-- ==== Sys2Proof/Word.lean ====
section
/-! DEFINITION. The word types of the machine and their plainest arithmetic (01 R7, R8, R9). -/

namespace Sys2Proof

/-- One byte of memory. -/
abbrev Byte := BitVec 8
/-- A vector or scalar register (02 R19, R21). -/
abbrev Word32 := BitVec 32
/-- A 64-bit value: a register pair, an instruction word, a control register (01 R7, R13). -/
abbrev Word64 := BitVec 64
/-- A register field of an instruction word (03 R47). -/
abbrev Reg := BitVec 8

/-- `Sat(x, lo, hi)` of 01 R9. -/
def satInt (x lo hi : Int) : Int := if x < lo then lo else if hi < x then hi else x

/-- `x[hi:lo]` of 01 R8 on a natural number: `n` bits from bit `lo` on. -/
def bitsOf (x lo n : Nat) : Nat := x / 2 ^ lo % 2 ^ n

/-- Bit `i` of `x`. -/
def bitOf (x i : Nat) : Bool := x / 2 ^ i % 2 == 1

end Sys2Proof
end

