-- ==== Sys2Proof/Syntax.lean ====
section
/-! DEFINITION. The syntax of the machine's steps: one constructor per row of spec/opcode_table.json.
The 155 instruction rows carry the decoded fields of their words (03 R45, 05 R74 to R84); the 112 rows that are
steps of the hardware (95) carry the objects they act on and what the outside gives them. -/

namespace Sys2Proof

/-- The guard of a word: a predicate number and its negation (03 R46). -/
structure Guard where
  reg : BitVec 4
  neg : Bool
deriving DecidableEq, Repr

/-- A source operand of a lane instruction: a vector register, or a scalar register by its select bit (03 R47). -/
inductive Src where
  | vec (n : Reg)
  | sca (n : Reg)
deriving DecidableEq, Repr

/-- Integer operation types (06 R87). -/
inductive IntTy where
  | b32 | b64 | s32 | s64 | n32 | n64
deriving DecidableEq, Repr

/-- Byte types of `dp4` (06 R96). -/
inductive ByteTy where
  | s8 | n8
deriving DecidableEq, Repr

/-- Floating-point formats that an instruction word can name (05 R77, R79). -/
inductive FTy where
  | f64 | f32 | f16 | bf16 | f8a | f8b
deriving DecidableEq, Repr

/-- Rounding modifier (05 R77): `dyn` is FMT.RM. -/
inductive Rnd where
  | dyn | rn | rz | rp | rm
deriving DecidableEq, Repr

/-- Comparison codes (05 R77). -/
inductive Cc where
  | eq | ne | lt | le | gt | ge | num | nan
deriving DecidableEq, Repr

/-- Modes of `shfl` (05 R80). -/
inductive ShflMode where
  | idx | up | down | xor
deriving DecidableEq, Repr

/-- Modes of `vote` (05 R80). -/
inductive VoteMode where
  | any | all | none | odd | agree
deriving DecidableEq, Repr

/-- Operations of `lscan`, `lred` and `red` (05 R80, R83). -/
inductive RedOp where
  | add | min | max | and | or | xor
deriving DecidableEq, Repr

/-- Types of reductions and atomics (05 R80, R82, R83). -/
inductive RedTy where
  | b32 | b64 | s32 | s64 | n32 | n64 | f32 | f64
deriving DecidableEq, Repr

/-- Operations of the atomics (05 R82). -/
inductive AtomOp where
  | add | min | max | and | or | xor | exch | cas
deriving DecidableEq, Repr

/-- Memory size codes (03 R49, 05 R81). -/
inductive MemSize where
  | n8 | s8 | n16 | s16 | b32 | b64 | b128
deriving DecidableEq, Repr

/-- Aperture of a memory word (05 R81). -/
inductive Aperture where
  | cached | ms
deriving DecidableEq, Repr

/-- Cache policy (05 R81, 12 R205). -/
inductive Policy where
  | dflt | nol1 | stream | keep
deriving DecidableEq, Repr

/-- Scopes (05 R82, 13 R239). -/
inductive Scope where
  | dom | cell | pkg | clu | team | grp
deriving DecidableEq, Repr

/-- Orders (05 R82, 13 R240). -/
inductive Order where
  | relaxed | acq | rel | ar | sc
deriving DecidableEq, Repr

/-- Access paths (02 R26, 05 R82). -/
inductive Path where
  | gl | gs | sp | cp | mx | nm | cl
deriving DecidableEq, Repr

/-- Barrier levels (16 R302). -/
inductive BarLevel where
  | team | clu | grid
deriving DecidableEq, Repr

/-- Element types of the copy engine (16 R316). -/
inductive ElemTy where
  | n8 | n16 | b32 | b64
deriving DecidableEq, Repr

/-- Operations of `pim` (19 R352). -/
inductive PimOp where
  | add | fma | scale
deriving DecidableEq, Repr

/-- The address fields of an M-format word (03 R49). `indexUniform` is bit [49]; in a lane word with it set, and in
`ldu` and `stu`, the index 0xFF means no index. -/
structure MAddr where
  baseUniform : Bool
  indexUniform : Bool
  base : Reg
  index : Reg
  scale : Bool
  offset : BitVec 16
deriving DecidableEq, Repr

/-- The order fields of an atomic (05 R82). -/
structure AtomMod where
  op : AtomOp
  ty : RedTy
  scope : Scope
  order : Order
  post : Bool
deriving DecidableEq, Repr

/-- The token register of an engine command: `some c` with TOK set (05 R83, 16 R307). -/
abbrev TokReg := Option Reg

/-- The eight words of a management command (23 R403). -/
abbrev MgmtWords := List (BitVec 64)

/-- A route packet (25 R442): the instance, the wire format, the stream by its starter's rank and its place in the plan, the packets of
the stream, its route and operations, the hops done, the first element and the payload as encodings. -/
structure RoutePacket where
  gid : Nat
  n : Nat
  wire : FTy
  rank : Nat
  stream : Nat
  total : Nat
  route : List Nat
  ops : List Nat
  hop : Nat
  off : Nat
  payload : List Nat
deriving DecidableEq, Repr

/-- Where at its home a request acts: a local physical address, the words of its granule, by place, that the access behind the request touches, and
whether that access stands in a read section (13 R232, R235). -/
structure Reach where
  lpa : Nat
  words : List Nat
  sec : Bool
  deriving DecidableEq, Repr

/-- The form of an atomic that travels: its order, and whether it is a `.ms` one (24 R420, R424). -/
structure AtomForm where
  order : Order
  ms : Bool
  deriving DecidableEq, Repr

/-- One step of the machine. -/
inductive Instr where
  -- uniform integer instructions (06 R86, R89)
  | uadd (g : Guard) (t : IntTy) (sat : Bool) (d a b : Reg)
  | usub (g : Guard) (t : IntTy) (sat : Bool) (d a b : Reg)
  | umul (g : Guard) (t : IntTy) (sat : Bool) (d a b : Reg)
  | umulh (g : Guard) (t : IntTy) (d a b : Reg)
  | umad (g : Guard) (t : IntTy) (sat : Bool) (d a b c : Reg)
  | uand (g : Guard) (t : IntTy) (d a b : Reg)
  | uor (g : Guard) (t : IntTy) (d a b : Reg)
  | uxor (g : Guard) (t : IntTy) (d a b : Reg)
  | ushl (g : Guard) (t : IntTy) (d a b : Reg)
  | ushr (g : Guard) (t : IntTy) (d a b : Reg)
  | usar (g : Guard) (t : IntTy) (d a b : Reg)
  | umin (g : Guard) (t : IntTy) (d a b : Reg)
  | umax (g : Guard) (t : IntTy) (d a b : Reg)
  | ubfe (g : Guard) (t : IntTy) (d a b c : Reg)
  | ubfi (g : Guard) (t : IntTy) (d a b c : Reg)
  | upopc (g : Guard) (t : IntTy) (d a : Reg)
  | uclz (g : Guard) (t : IntTy) (d a : Reg)
  | ucmp (g : Guard) (t : IntTy) (cc : Cc) (d a b : Reg)
  | usel (g : Guard) (t : IntTy) (d a b c : Reg)
  | umov (g : Guard) (t : IntTy) (d a : Reg)
  | uli (g : Guard) (d : Reg) (imm : BitVec 32)
  | ulih (g : Guard) (d : Reg) (imm : BitVec 32)
  | usrd (g : Guard) (d : Reg) (sel : BitVec 32)
  | uswr (g : Guard) (a : Reg) (sel : BitVec 32)
  | ufmt (g : Guard) (a : Reg)
  | ulease (g : Guard) (imm : BitVec 32)
  -- control instructions (07 R124)
  | nop (g : Guard)
  | bra (g : Guard) (off : BitVec 32)
  | brq (g : Guard) (whenFalse : Bool) (q : Reg) (off : BitVec 32)
  | bdiv (g : Guard) (join : BitVec 16) (off : BitVec 32)
  | regang (g : Guard) (off : BitVec 32)
  | loop (g : Guard) (vector : Bool) (c : Reg) (off : BitVec 32)
  | call (g : Guard) (l : Reg) (off : BitVec 32)
  | calli (g : Guard) (l : Reg) (a : Src)
  | ret (g : Guard) (a : Src)
  | jmpi (g : Guard) (a : Src)
  | exit (g : Guard)
  | yield (g : Guard)
  -- lane integer instructions (06 R89)
  | add (g : Guard) (t : IntTy) (sat : Bool) (d : Reg) (a b : Src)
  | sub (g : Guard) (t : IntTy) (sat : Bool) (d : Reg) (a b : Src)
  | mul (g : Guard) (t : IntTy) (sat : Bool) (d : Reg) (a b : Src)
  | mulh (g : Guard) (t : IntTy) (d : Reg) (a b : Src)
  | mad (g : Guard) (t : IntTy) (sat : Bool) (d : Reg) (a b c : Src)
  | addc (g : Guard) (d : Reg) (a b : Src) (c : Reg)
  | subb (g : Guard) (d : Reg) (a b : Src) (c : Reg)
  | abs (g : Guard) (t : IntTy) (sat : Bool) (d : Reg) (a : Src)
  | min (g : Guard) (t : IntTy) (d : Reg) (a b : Src)
  | max (g : Guard) (t : IntTy) (d : Reg) (a b : Src)
  | and (g : Guard) (t : IntTy) (d : Reg) (a b : Src)
  | or (g : Guard) (t : IntTy) (d : Reg) (a b : Src)
  | xor (g : Guard) (t : IntTy) (d : Reg) (a b : Src)
  | lop3 (g : Guard) (tt : BitVec 8) (d : Reg) (a b c : Src)
  | shl (g : Guard) (t : IntTy) (d : Reg) (a b : Src)
  | shr (g : Guard) (t : IntTy) (d : Reg) (a b : Src)
  | sar (g : Guard) (t : IntTy) (d : Reg) (a b : Src)
  | rot (g : Guard) (t : IntTy) (d : Reg) (a b : Src)
  | bfe (g : Guard) (t : IntTy) (d : Reg) (a b c : Src)
  | bfi (g : Guard) (t : IntTy) (d : Reg) (a b c : Src)
  | popc (g : Guard) (t : IntTy) (d : Reg) (a : Src)
  | clz (g : Guard) (t : IntTy) (d : Reg) (a : Src)
  | brev (g : Guard) (t : IntTy) (d : Reg) (a : Src)
  | cmp (g : Guard) (t : IntTy) (cc : Cc) (d : Reg) (a b : Src)
  | sel (g : Guard) (t : IntTy) (d : Reg) (a b : Src) (cUniform : Bool) (c : Reg)
  | mov (g : Guard) (t : IntTy) (d : Reg) (a : Src)
  | li (g : Guard) (d : Reg) (imm : BitVec 32)
  | prmt (g : Guard) (d : Reg) (a b c : Src)
  | sext (g : Guard) (t : IntTy) (d : Reg) (a b : Src)
  | dp4 (g : Guard) (t : IntTy) (t2 : ByteTy) (sat : Bool) (d : Reg) (a b c : Src)
  | sad (g : Guard) (t : IntTy) (d : Reg) (a b c : Src)
  -- floating-point lane instructions (09 R164)
  | fadd (g : Guard) (t : FTy) (r : Rnd) (sat : Bool) (d : Reg) (a b : Src)
  | fsub (g : Guard) (t : FTy) (r : Rnd) (sat : Bool) (d : Reg) (a b : Src)
  | fmul (g : Guard) (t : FTy) (r : Rnd) (sat : Bool) (d : Reg) (a b : Src)
  | ffma (g : Guard) (t : FTy) (r : Rnd) (sat : Bool) (d : Reg) (a b c : Src)
  | fmin (g : Guard) (t : FTy) (d : Reg) (a b : Src)
  | fmax (g : Guard) (t : FTy) (d : Reg) (a b : Src)
  | fcmp (g : Guard) (t : FTy) (cc : Cc) (d : Reg) (a b : Src)
  | fclass (g : Guard) (t : FTy) (d : Reg) (a : Src)
  | fdiv (g : Guard) (t : FTy) (r : Rnd) (sat : Bool) (d : Reg) (a b : Src)
  | fsqrt (g : Guard) (t : FTy) (r : Rnd) (sat : Bool) (d : Reg) (a : Src)
  | frcp (g : Guard) (d : Reg) (a : Src)
  | frsq (g : Guard) (d : Reg) (a : Src)
  | fex2 (g : Guard) (d : Reg) (a : Src)
  | flg2 (g : Guard) (d : Reg) (a : Src)
  | frred (g : Guard) (d : Reg) (a : Src) (q : Reg)
  | fsin (g : Guard) (d : Reg) (a : Src)
  | fcos (g : Guard) (d : Reg) (a : Src)
  | fint (g : Guard) (t : FTy) (r : Rnd) (d : Reg) (a : Src)
  | fcvt (g : Guard) (t t2 : FTy) (r : Rnd) (sat : Bool) (d : Reg) (a : Src)
  | f2i (g : Guard) (t : IntTy) (t2 : FTy) (r : Rnd) (d : Reg) (a : Src)
  | i2f (g : Guard) (t : FTy) (t2 : IntTy) (r : Rnd) (sat : Bool) (d : Reg) (a : Src)
  | fpack (g : Guard) (t : FTy) (r : Rnd) (sat : Bool) (d : Reg) (a b : Src)
  | funpack (g : Guard) (t2 : FTy) (d : Reg) (a : Src)
  | fldexp (g : Guard) (t : FTy) (r : Rnd) (sat : Bool) (d : Reg) (a b : Src)
  | ffrexp (g : Guard) (t : FTy) (d : Reg) (a : Src) (e : Reg)
  | fdot2 (g : Guard) (t t2 : FTy) (r : Rnd) (sat : Bool) (d : Reg) (a b c : Src)
  | fdot4 (g : Guard) (t t2 : FTy) (r : Rnd) (sat : Bool) (d : Reg) (a b c : Src)
  -- cross-lane instructions (07 R132 to R139)
  | shfl (g : Guard) (t : IntTy) (m : ShflMode) (d : Reg) (a b : Src)
  | pswap (g : Guard) (t : IntTy) (d : Reg) (a b : Src)
  | vote (g : Guard) (m : VoteMode) (d a : Reg)
  | ballot (g : Guard) (d a : Reg)
  | lscan (g : Guard) (op : RedOp) (t : RedTy) (excl : Bool) (d : Reg) (a : Src)
  | lred (g : Guard) (op : RedOp) (t : RedTy) (d : Reg) (a : Src)
  | matchl (g : Guard) (t : IntTy) (d : Reg) (a : Src)
  | regroup (g : Guard) (d a : Reg)
  /-- A step: two groups of one core meet at `regroup` (07 R138, R139). -/
  | regroupRendezvous (core slotA slotB : Nat)
  -- memory instructions (12 R218 to R227)
  | ld (g : Guard) (sz : MemSize) (ap : Aperture) (pol : Policy) (d : Reg) (m : MAddr)
  | st (g : Guard) (sz : MemSize) (ap : Aperture) (pol : Policy) (d : Reg) (m : MAddr)
  | ldu (g : Guard) (sz : MemSize) (ap : Aperture) (pol : Policy) (d : Reg) (m : MAddr)
  | stu (g : Guard) (sz : MemSize) (ap : Aperture) (pol : Policy) (d : Reg) (m : MAddr)
  | lds (g : Guard) (sz : MemSize) (d : Reg) (m : MAddr)
  | sts (g : Guard) (sz : MemSize) (d : Reg) (m : MAddr)
  | prf (g : Guard) (pol : Policy) (m : MAddr)
  | atom (g : Guard) (x : AtomMod) (ap : Aperture) (d : Reg) (a b c : Src)
  | atomu (g : Guard) (x : AtomMod) (ap : Aperture) (d a b c : Reg)
  | atoms (g : Guard) (x : AtomMod) (d : Reg) (a b c : Src)
  | fence (g : Guard) (scope : Scope) (order : Order)
  | wait (g : Guard) (path : Path) (a : Reg)
  | commit (g : Guard) (path : Path)
  | cln (g : Guard) (m : MAddr)
  | inv (g : Guard) (m : MAddr)
  | clninv (g : Guard) (m : MAddr)
  | rdenter (g : Guard)
  | rdexit (g : Guard)
  -- bench commands (15 R280)
  | srsv (g : Guard) (wide : Bool) (d a : Reg)
  | srel (g : Guard)
  | bload (g : Guard) (a b : Reg)
  | cbt (g : Guard) (d a : Reg)
  | mma (g : Guard) (chk : Bool) (d a b : Reg) (tok : TokReg)
  | szero (g : Guard) (d : Reg) (tok : TokReg)
  | srd (g : Guard) (d a b : Reg) (tok : TokReg)
  | swr (g : Guard) (d a b : Reg) (tok : TokReg)
  | sst (g : Guard) (d a b : Reg) (tok : TokReg)
  -- copy engine, tokens, near memory, collectives (16 R316, 19 R352, 25 R439)
  | cpy (g : Guard) (d a b : Reg) (tok : TokReg)
  | gath (g : Guard) (t : ElemTy) (d a b : Reg) (tok : TokReg)
  | scat (g : Guard) (t : ElemTy) (d a b : Reg) (tok : TokReg)
  | fill (g : Guard) (wide : Bool) (d a b : Reg) (tok : TokReg)
  | tokset (g : Guard) (a : Reg)
  /-- A step: the oldest `tokset` of a group not yet applied takes effect (16 R309). -/
  | toksetApply (core slot : Nat)
  | pim (g : Guard) (op : PimOp) (d a b : Reg) (tok : TokReg)
  | rowcp (g : Guard) (d a b : Reg) (tok : TokReg)
  | rowz (g : Guard) (d b : Reg) (tok : TokReg)
  | cgrp (g : Guard) (scope : Scope) (d a : Reg)
  | cstart (g : Guard) (t : FTy) (a b : Reg)
  | cwait (g : Guard) (a : Reg)
  | red (g : Guard) (op : RedOp) (t : RedTy) (scope : Scope) (a b : Reg)
  | emit (g : Guard) (a b : Reg)
  -- system instructions (14 R258)
  | trap (g : Guard) (imm : BitVec 32)
  | resume (g : Guard) (d a b : Reg)
  | csrr (g : Guard) (d a : Reg)
  | csrw (g : Guard) (a b : Reg)
  | bar (g : Guard) (level : BarLevel)
  /-- A step: a group whose barrier instance has completed issues again (16 R303). -/
  | barrierRelease (core slot : Nat)
  | gwait (g : Guard) (scope : Scope)
  | dfree (g : Guard) (a b : Reg)
  | brk (g : Guard) (imm : BitVec 32)
  | dbg (g : Guard) (d a b c : Reg)
  | halt (g : Guard) (d a : Reg)
  | sleep (g : Guard) (imm : BitVec 32)
  /-- A step: an opcode that the map leaves unassigned (05 R74). -/
  | unassignedOpcode (op : BitVec 8)
  -- steps of the core (03, 07, 11, 12, 14)
  | sleepWake (core slot : Nat)
  | clauseStart (core slot entry : Nat)
  | groupEnd (core slot : Nat)
  | memoryOpCompletion (core slot : Nat) (path : Path)
  | batchComplete (core slot : Nat) (path : Path)
  | faultRecordWrite (core slot : Nat)
  /-- The command `cmd` meets the fault its next access raises. -/
  | engineFaultSuspend (cmd : Nat)
  | comparatorBreakpoint (core slot entry : Nat)
  | dbgStep (core slot : Nat)
  | dbgStop (core slot : Nat)
  | preemption (queue : Nat)
  | contextRestore (queue : Nat)
  | contextRemoval (queue : Nat)
  | escapementEvaluation (core : Nat)
  | ageingTimeReached (core slot : Nat)
  | settFill (core team sett : Nat)
  | settSpill (core team sett : Nat)
  | cmemCfgWrite (core : Nat) (value : BitVec 64)
  | l1ResizeComplete (core : Nat)
  | xlatInvWrite (core : Nat) (value : BitVec 64)
  | xlatInvComplete (core : Nat)
  | commandDispatch (cmd : Nat)
  | faceGrant (bench face : Nat)
  | mmaKstep (cmd : Nat)
  | engineCommandComplete (cmd : Nat)
  | nearMemoryRowComplete (cmd : Nat)
  -- steps of the die (18)
  | dresserVisit (die line : Nat)
  /-- The die looks at the conditions for its ECC target (18 R338) and sees `ce` corrected errors in the last millisecond, the lowest and the highest
  junction temperature, and whether no condition has held for 100 ms. -/
  | eccTargetChange (die ce : Nat) (tmin tmax : Int) (quiet : Bool)
  /-- The stack looks at a channel (18 R345): whether its sensor has moved 8 °C, and the channel's corrected errors in the last millisecond. -/
  | retrainQueue (stack chan : Nat) (tempMoved : Bool) (ce : Nat)
  | retrainingWindow (stack : Nat) (pass : Bool)
  | retrainRequeue (stack chan : Nat)
  | shapeRecordWrite (rec : Nat) (value : BitVec 64)
  | shapeChangeComplete
  -- steps of the package scheduler (21)
  | writeIndexNotify (queue : Nat)
  | queueEntryRead (queue : Nat)
  | clusterPlacement (queue : Nat)
  | clusterReserve (queue core : Nat)
  | slotMapping (part : Nat)
  | sliceExpiry (queue : Nat)
  | waitingBudgetExceeded (queue : Nat)
  | nodeCoalescingTimer (queue node : Nat)
  | partWrite (part : Nat) (value : BitVec 64)
  | partctlWrite (value : BitVec 64)
  -- the host (23)
  | rdmaWrite (qp key lpa : Nat) (data : List Byte)
  | rdmaRead (qp key lpa len : Nat)
  | cread (qp : Nat) (w : MgmtWords)
  | cwrite (qp : Nat) (w : MgmtWords)
  | load (qp : Nat) (w : MgmtWords)
  | resumeCommand (qp : Nat) (w : MgmtWords)
  | remove (qp : Nat) (w : MgmtWords)
  | restore (qp : Nat) (w : MgmtWords)
  | mbox (qp : Nat) (w : MgmtWords)
  | attest (qp : Nat) (w : MgmtWords)
  | winset (qp : Nat) (w : MgmtWords)
  | keyset (qp : Nat) (w : MgmtWords)
  | mailboxSend
  -- bring-up, clock and power (23)
  | packageReset
  /-- The step in progress acts (23 R411): the lowest junction temperature it reads, and the stacks whose check or training does not pass. -/
  | windingStep (temp : Int) (failed : BitVec 12)
  | windingRestart
  | cycleStretch (die : Nat)
  /-- Module power in W and the highest junction temperature of the die. -/
  | regulatorTick (die power : Nat) (tmax : Int)
  | thermalStop (die : Nat)
  | moduleLimitStop
  | moduleLimitRecovery
  | deratedBand (inside : Bool)
  -- the fabric: requests of other packages to this home (24)
  /-- With `ms`, a memory-side load of that many bytes (24 R421, R424). -/
  | rs (pkg : Nat) (reach : Reach) (ms : Option Nat)
  /-- With `ms`, a memory-side store of those bytes. -/
  | rx (pkg : Nat) (reach : Reach) (ms : Option (List Byte))
  | atHome (pkg lpa seq : Nat) (op : AtomOp) (t : RedTy) (b c : BitVec 64) (form : AtomForm)
  | cb (pkg : Nat) (reach : Reach) (op : RedOp) (t : RedTy)
  | upgradeNotice (pkg gran : Nat)
  /-- A dropped (or, with `keep`, cleaned) copy or partial of package `pkg` reaches this home. -/
  | writeBack (pkg gran : Nat) (keep : Bool) (data : List Byte)
  /-- The home of a remote granule recalls this package's copy; with `share` an owner keeps it shared. -/
  | recall (pa : Nat) (share : Bool)
  | dirqLookup
  | firewallChange (value : BitVec 64)
  | firewallChangeComplete
  /-- The response to request `req`: the load level, the cause (0 for none) and the granule's bytes or the old value. -/
  | remoteResponse (req level cause : Nat) (data : List Byte)
  | remoteRetry (req : Nat)
  | remoteTimeout (req : Nat)
  | atomicBusyResend (req : Nat)
  | replayEntryExpiry (pkg seq : Nat)
  | writeBackResend (req : Nat)
  | packetDrop (idx : Nat)
  | heartbeat (cell : Nat)
  | cellDeathDeclare (cell : Nat)
  | deathMessage (cell : Nat)
  | directorySweep
  | selfIsolation
  | lend (ext : Nat) (value : BitVec 64)
  | withdraw (ext : Nat)
  | withdrawComplete (ext : Nat)
  -- grace periods (22)
  | localGraceBegin (dom : Nat)
  | localGraceEnd (dom : Nat)
  | graceRequestMessage (dom pkg : Nat) (scope : Scope)
  | graceReport (dom pkg : Nat) (scope : Scope)
  | dfreePost (queue : Nat)
  | dfreePostRetry (queue : Nat)
  -- collectives (25)
  /-- The announcement of a member, with the number of its streams; with `ended`, the notice that one of them has ended. -/
  | announcement (gid n rank : Nat) (sig : BitVec 32) (nstr : Nat) (ended : Bool)
  /-- The hop of a packet held here; with `arrival`, the arrival of a packet from another package. -/
  | routePacketHop (idx : Nat) (arrival : Option RoutePacket)
  | collectiveAbort (gid n cause : Nat)
  | collectiveTimeout (core slot : Nat)
  -- control space and the rest
  | controlRegisterWrite (addr : Nat) (value : BitVec 64) (firmware : Bool)
  | teamMigration (core team target : Nat)
  | minimumResidencyReached (queue : Nat)
  | clusterAged (queue : Nat)
  | linkDownOrReturn (port : Nat) (up : Bool)
  | rateLimitRelease (cell : Nat)
  | rdmaAtomic (qp : Nat)
  | badManagementCommand (qp : Nat) (w : MgmtWords)
deriving DecidableEq, Repr

end Sys2Proof
end

