-- ==== Sys2Proof/Machine/OpTable.lean ====
section
/-! DEFINITION. What the opcode tables of the spec say of each instruction word: its modifiers' allowed values
(05 R78 to R84) and the registers its fields name, with their class, width and role (03 R47, 06 R89, 07 R124, 09 R164,
12 R218, R222, 14 R258, 15 R280, 16 R316, 19 R352, 25 R439). -/

namespace Sys2Proof

/-- The class of register a field names. -/
inductive RegClass where
  | vec | sca | pred | upred
deriving DecidableEq, Repr

/-- One operand field: class, number, count of consecutive registers (1, 2 or 4), and whether it is read or written. -/
structure Opnd where
  cls : RegClass
  num : Nat
  width : Nat
  reads : Bool
  writes : Bool
deriving DecidableEq, Repr

/-- Registers a type of 06 R87 takes. -/
def IntTy.width : IntTy → Nat
  | .b32 | .s32 | .n32 => 1
  | .b64 | .s64 | .n64 => 2

/-- Registers a format of 09 R161 takes. -/
def FTy.width : FTy → Nat
  | .f64 => 2
  | _ => 1

/-- Registers a reduction or atomic type takes. -/
def RedTy.width : RedTy → Nat
  | .b32 | .s32 | .n32 | .f32 => 1
  | .b64 | .s64 | .n64 | .f64 => 2

/-- Bytes of a memory access (03 R49). -/
def MemSize.bytes : MemSize → Nat
  | .n8 | .s8 => 1
  | .n16 | .s16 => 2
  | .b32 => 4
  | .b64 => 8
  | .b128 => 16

/-- Registers a memory access moves (03 R49). -/
def MemSize.width : MemSize → Nat
  | .n8 | .s8 | .n16 | .s16 | .b32 => 1
  | .b64 => 2
  | .b128 => 4

def ElemTy.bytes : ElemTy → Nat
  | .n8 => 1
  | .n16 => 2
  | .b32 => 4
  | .b64 => 8

/-- A vector destination. -/
def vDst (n : Reg) (w : Nat) : Opnd := ⟨.vec, n.toNat, w, false, true⟩
/-- A vector register that is read and written. -/
def vUpd (n : Reg) (w : Nat) : Opnd := ⟨.vec, n.toNat, w, true, true⟩
/-- A vector source. -/
def vSrc (n : Reg) (w : Nat) : Opnd := ⟨.vec, n.toNat, w, true, false⟩
/-- A scalar destination. -/
def sDst (n : Reg) (w : Nat) : Opnd := ⟨.sca, n.toNat, w, false, true⟩
/-- A scalar register that is read and written. -/
def sUpd (n : Reg) (w : Nat) : Opnd := ⟨.sca, n.toNat, w, true, true⟩
/-- A scalar source. -/
def sSrc (n : Reg) (w : Nat) : Opnd := ⟨.sca, n.toNat, w, true, false⟩
/-- A lane source of either class (03 R47). -/
def srcOp (x : Src) (w : Nat) : Opnd :=
  match x with
  | .vec n => vSrc n w
  | .sca n => sSrc n w
def pSrc (n : Reg) : Opnd := ⟨.pred, n.toNat, 1, true, false⟩
def pDst (n : Reg) : Opnd := ⟨.pred, n.toNat, 1, false, true⟩
def pUpd (n : Reg) : Opnd := ⟨.pred, n.toNat, 1, true, true⟩
def qSrc (n : Reg) : Opnd := ⟨.upred, n.toNat, 1, true, false⟩
def qDst (n : Reg) : Opnd := ⟨.upred, n.toNat, 1, false, true⟩

/-- Base and index of a lane memory word (03 R49): index 0xFF with its select bit set is no index. -/
def addrOps (m : MAddr) (baseWidth : Nat) : List Opnd :=
  [if m.baseUniform then sSrc m.base baseWidth else vSrc m.base baseWidth] ++
  (if m.indexUniform then (if m.index = 0xFF then [] else [sSrc m.index 1]) else [vSrc m.index 1])

/-- Base and index of `ldu` and `stu` (12 R218). -/
def addrOpsU (m : MAddr) : List Opnd :=
  [sSrc m.base 2] ++ (if m.index = 0xFF then [] else [sSrc m.index 1])

/-- The token register of a command (16 R307). -/
def tokOps (t : TokReg) : List Opnd :=
  match t with
  | none => []
  | some c => [sSrc c 1]

/-- The registers of `usrd`: a lane selector writes a vector register (02 R32). -/
def usrdOps (d : Reg) (sel : BitVec 32) : List Opnd :=
  if sel.toNat < 3 then [vDst d 1]
  else if sel.toNat = 0x0A ∨ sel.toNat = 0x0B then [sDst d 2]
  else [sDst d 1]

/-- The operand of a lane atomic: `c` holds the compare value of `.cas` alone (12 R222). -/
def atomOps (x : AtomMod) (addrWidth : Nat) (d : Reg) (a b c : Src) : List Opnd :=
  (if x.post then [] else [vDst d x.ty.width]) ++ [srcOp a addrWidth, srcOp b x.ty.width] ++
  (if x.op = .cas then [srcOp c x.ty.width] else [])

/-- The registers that an instruction word names, besides its guard. The steps of the hardware name none. -/
def Instr.operands : Instr → List Opnd
  | .uadd _ t _ d a b | .usub _ t _ d a b | .umul _ t _ d a b => [sDst d t.width, sSrc a t.width, sSrc b t.width]
  | .umulh _ t d a b | .uand _ t d a b | .uor _ t d a b | .uxor _ t d a b | .umin _ t d a b | .umax _ t d a b =>
    [sDst d t.width, sSrc a t.width, sSrc b t.width]
  | .umad _ t _ d a b c => [sDst d t.width, sSrc a t.width, sSrc b t.width, sSrc c t.width]
  | .ushl _ t d a b | .ushr _ t d a b | .usar _ t d a b => [sDst d t.width, sSrc a t.width, sSrc b 1]
  | .ubfe _ t d a b c => [sDst d t.width, sSrc a t.width, sSrc b 1, sSrc c 1]
  | .ubfi _ t d a b c => [sUpd d t.width, sSrc a t.width, sSrc b 1, sSrc c 1]
  | .upopc _ t d a | .uclz _ t d a => [sDst d 1, sSrc a t.width]
  | .ucmp _ t _ d a b => [qDst d, sSrc a t.width, sSrc b t.width]
  | .usel _ t d a b c => [sDst d t.width, sSrc a t.width, sSrc b t.width, qSrc c]
  | .umov _ t d a => [sDst d t.width, sSrc a t.width]
  | .uli _ d _ => [sDst d 1]
  | .ulih _ d _ => [sDst d 2]
  | .usrd _ d x => usrdOps d x
  | .uswr _ a _ => [sSrc a 1]
  | .ufmt _ a => [sSrc a 2]
  | .loop _ v c _ => [if v then vUpd c 1 else sUpd c 1]
  | .brq _ _ q _ => [qSrc q]
  | .call _ l _ => [vDst l 2]
  | .calli _ l a => [vDst l 2, srcOp a 2]
  | .ret _ a | .jmpi _ a => [srcOp a 2]
  | .add _ t _ d a b | .sub _ t _ d a b | .mul _ t _ d a b => [vDst d t.width, srcOp a t.width, srcOp b t.width]
  | .mulh _ t d a b | .min _ t d a b | .max _ t d a b | .and _ t d a b | .or _ t d a b | .xor _ t d a b =>
    [vDst d t.width, srcOp a t.width, srcOp b t.width]
  | .mad _ t _ d a b c => [vDst d t.width, srcOp a t.width, srcOp b t.width, srcOp c t.width]
  | .addc _ d a b c | .subb _ d a b c => [vDst d 1, srcOp a 1, srcOp b 1, pUpd c]
  | .abs _ t _ d a => [vDst d t.width, srcOp a t.width]
  | .lop3 _ _ d a b c | .prmt _ d a b c => [vDst d 1, srcOp a 1, srcOp b 1, srcOp c 1]
  | .shl _ t d a b | .shr _ t d a b | .sar _ t d a b | .rot _ t d a b | .sext _ t d a b =>
    [vDst d t.width, srcOp a t.width, srcOp b 1]
  | .bfe _ t d a b c => [vDst d t.width, srcOp a t.width, srcOp b 1, srcOp c 1]
  | .bfi _ t d a b c => [vUpd d t.width, srcOp a t.width, srcOp b 1, srcOp c 1]
  | .popc _ t d a | .clz _ t d a => [vDst d 1, srcOp a t.width]
  | .brev _ t d a | .mov _ t d a => [vDst d t.width, srcOp a t.width]
  | .cmp _ t _ d a b => [pDst d, srcOp a t.width, srcOp b t.width]
  | .sel _ t d a b u c => [vDst d t.width, srcOp a t.width, srcOp b t.width, if u then qSrc c else pSrc c]
  | .li _ d _ => [vDst d 1]
  | .dp4 _ _ _ _ d a b c | .sad _ _ d a b c => [vDst d 1, srcOp a 1, srcOp b 1, srcOp c 1]
  | .fadd _ t _ _ d a b | .fsub _ t _ _ d a b | .fmul _ t _ _ d a b | .fdiv _ t _ _ d a b =>
    [vDst d t.width, srcOp a t.width, srcOp b t.width]
  | .fmin _ t d a b | .fmax _ t d a b => [vDst d t.width, srcOp a t.width, srcOp b t.width]
  | .ffma _ t _ _ d a b c => [vDst d t.width, srcOp a t.width, srcOp b t.width, srcOp c t.width]
  | .fcmp _ t _ d a b => [pDst d, srcOp a t.width, srcOp b t.width]
  | .fclass _ t d a => [vDst d 1, srcOp a t.width]
  | .fsqrt _ t _ _ d a => [vDst d t.width, srcOp a t.width]
  | .fint _ t _ d a => [vDst d t.width, srcOp a t.width]
  | .frcp _ d a | .frsq _ d a | .fex2 _ d a | .flg2 _ d a | .fsin _ d a | .fcos _ d a => [vDst d 1, srcOp a 1]
  | .frred _ d a q => [vDst d 1, srcOp a 1, vDst q 1]
  | .fcvt _ t t2 _ _ d a => [vDst d t.width, srcOp a t2.width]
  | .f2i _ t t2 _ d a => [vDst d t.width, srcOp a t2.width]
  | .i2f _ t t2 _ _ d a => [vDst d t.width, srcOp a t2.width]
  | .fpack _ _ _ _ d a b => [vDst d 1, srcOp a 1, srcOp b 1]
  | .funpack _ _ d a => [vDst d 2, srcOp a 1]
  | .fldexp _ t _ _ d a b => [vDst d t.width, srcOp a t.width, srcOp b 1]
  | .ffrexp _ t d a e => [vDst d t.width, srcOp a t.width, vDst e 1]
  | .fdot2 _ t _ _ _ d a b c | .fdot4 _ t _ _ _ d a b c =>
    [vDst d t.width, srcOp a 1, srcOp b 1, srcOp c t.width]
  | .shfl _ t _ d a b => [vDst d t.width, srcOp a t.width, srcOp b 1]
  | .pswap _ t d a b => [vDst d t.width, srcOp a t.width, srcOp b t.width]
  | .vote _ _ d a => [pDst d, pSrc a]
  | .ballot _ d a => [vDst d 1, pSrc a]
  | .lscan _ _ t _ d a => [vDst d t.width, srcOp a t.width]
  | .lred _ _ t d a => [vDst d t.width, srcOp a t.width]
  | .matchl _ t d a => [vDst d 1, srcOp a t.width]
  | .regroup _ d a => [vDst d 1, sSrc a 1]
  | .ld _ sz _ _ d m => vDst d sz.width :: addrOps m 2
  | .st _ sz _ _ d m => vSrc d sz.width :: addrOps m 2
  | .ldu _ sz _ _ d m => sDst d sz.width :: addrOpsU m
  | .stu _ sz _ _ d m => sSrc d sz.width :: addrOpsU m
  | .lds _ sz d m => vDst d sz.width :: addrOps m 1
  | .sts _ sz d m => vSrc d sz.width :: addrOps m 1
  | .prf _ _ m | .cln _ m | .inv _ m | .clninv _ m => addrOps m 2
  | .atom _ x _ d a b c => atomOps x 2 d a b c
  | .atoms _ x d a b c => atomOps x 1 d a b c
  | .atomu _ x _ d a b c =>
    (if x.post then [] else [sDst d x.ty.width]) ++ [sSrc a 2, sSrc b x.ty.width] ++
    (if x.op = .cas then [sSrc c x.ty.width] else [])
  | .wait _ _ a => [sSrc a 1]
  | .srsv _ _ d a => [sDst d 1, sSrc a 1]
  | .bload _ a b => [sSrc a 2, sSrc b 1]
  | .cbt _ d a => [sSrc d 1, sSrc a 2]
  | .mma _ _ d a b t => [sSrc d 1, sSrc a 2, sSrc b 1] ++ tokOps t
  | .szero _ d t => sSrc d 1 :: tokOps t
  | .srd _ d a b t | .swr _ d a b t | .sst _ d a b t => [sSrc d 1, sSrc a 2, sSrc b 1] ++ tokOps t
  | .cpy _ d a b t => [sSrc d 2, sSrc a 2, sSrc b 2] ++ tokOps t
  | .gath _ _ d a b t | .scat _ _ d a b t => [sSrc d 2, sSrc a 2, sSrc b 4] ++ tokOps t
  | .fill _ w d a b t => [sSrc d 2, sSrc a (if w then 2 else 1), sSrc b 1] ++ tokOps t
  | .tokset _ a => [sSrc a 1]
  | .pim _ _ d a b t => [sSrc d 2, sSrc a 2, sSrc b 4] ++ tokOps t
  | .rowcp _ d a b t => [sSrc d 2, sSrc a 2, sSrc b 1] ++ tokOps t
  | .rowz _ d b t => [sSrc d 2, sSrc b 1] ++ tokOps t
  | .cgrp _ _ d a => [sUpd d 1, sSrc a 2]
  | .cstart _ _ a b => [sSrc a 2, sSrc b 1]
  | .cwait _ a => [sSrc a 1]
  | .red _ _ t _ a b => [sSrc a 2, sSrc b t.width]
  | .emit _ a b => [sSrc a 1, vSrc b 1]
  | .resume _ d a b => [sDst d 1, sSrc a 1, sSrc b 1]
  | .csrr _ d a => [sDst d 2, sSrc a 2]
  | .csrw _ a b => [sSrc a 2, sSrc b 2]
  | .dfree _ a b => [sSrc a 2, sSrc b 1]
  | .dbg _ d a b c => [sDst d 1, sSrc a 1, sSrc b 1, sSrc c 1]
  | .halt _ d a => [sDst d 1, sSrc a 1]
  | _ => []

/-- The static part of check 6 of R52 on one operand: scalar numbers below 128, predicates below 16 or 8, and the start
of a pair or a quad on a multiple of its width (02 R20, R21, 03 R47, R49, 06 R88). -/
def Opnd.staticOk (o : Opnd) : Bool :=
  (match o.cls with
   | .vec => true
   | .sca => o.num + o.width ≤ 128
   | .pred => o.num < 16
   | .upred => o.num < 8) && o.num % o.width == 0

/-- The part of check 6 that needs the group's declaration of `n` vector registers (02 R20). -/
def Opnd.withinDecl (n : Nat) (o : Opnd) : Bool :=
  match o.cls with
  | .vec => o.num + o.width ≤ n
  | _ => true

/-- The types with a sign (06 R87), which alone compare, and alone may saturate. -/
def IntTy.isNum : IntTy → Bool
  | .b32 | .b64 => false
  | _ => true

def IntTy.isBits : IntTy → Bool
  | .b32 | .b64 => true
  | _ => false

def IntTy.isSigned : IntTy → Bool
  | .s32 | .s64 => true
  | _ => false

/-- The four arithmetic formats ("four" of 05 R79). -/
def FTy.isFour : FTy → Bool
  | .f8a | .f8b => false
  | _ => true

def FTy.isWide : FTy → Bool
  | .f64 | .f32 => true
  | _ => false

def FTy.isHalf : FTy → Bool
  | .bf16 | .f16 => true
  | _ => false

def FTy.isNarrow : FTy → Bool
  | .f8a | .f8b => true
  | _ => false

/-- `.sat` is allowed only with an .s or an .n type (05 R78). -/
def satOk (t : IntTy) (sat : Bool) : Bool := !sat || t.isNum

/-- Operation and type pairs of `lscan` and `lred` (05 R80). -/
def scanOk (op : RedOp) (t : RedTy) : Bool :=
  match op with
  | .add | .min | .max => match t with
    | .b32 | .b64 => false
    | _ => true
  | .and | .or | .xor => match t with
    | .b32 | .b64 => true
    | _ => false

/-- Operation and type pairs of the atomics (05 R82). -/
def atomTyOk (op : AtomOp) (t : RedTy) : Bool :=
  match op with
  | .add => match t with
    | .b32 | .b64 => false
    | _ => true
  | .min | .max => match t with
    | .s32 | .s64 | .n32 | .n64 => true
    | _ => false
  | .and | .or | .xor | .exch | .cas => match t with
    | .b32 | .b64 => true
    | _ => false

/-- The refused combinations of an atomic (05 R82). -/
def atomOk (x : AtomMod) : Bool :=
  atomTyOk x.op x.ty && !(x.post && (x.order == .acq || x.order == .ar)) && !(x.post && x.op == .cas)

/-- Operation and type pairs of `red` (05 R83). -/
def redOk (op : RedOp) (t : RedTy) : Bool :=
  match op with
  | .add => match t with
    | .f32 | .s32 | .s64 => true
    | _ => false
  | .min | .max => match t with
    | .s32 | .s64 | .f32 => true
    | _ => false
  | .and | .or | .xor => match t with
    | .b32 | .b64 => true
    | _ => false

/-- `.ms` takes only the default policy (05 R81). -/
def apOk (ap : Aperture) (pol : Policy) : Bool := ap == .cached || pol == .dflt

/-- A store takes no sign-extending size (05 R81). -/
def storeSizeOk (sz : MemSize) : Bool := sz != .s8 && sz != .s16

def Cc.isInt : Cc → Bool
  | .num | .nan => false
  | _ => true

/-- The modifier values of an instruction are among those the spec lists for it (05 R78 to R83). -/
def Instr.modsOk : Instr → Bool
  | .uadd _ t sat _ _ _ | .usub _ t sat _ _ _ | .umul _ t sat _ _ _ => satOk t sat
  | .umad _ t sat _ _ _ _ => satOk t sat
  | .add _ t sat _ _ _ | .sub _ t sat _ _ _ | .mul _ t sat _ _ _ => satOk t sat
  | .mad _ t sat _ _ _ _ => satOk t sat
  | .umulh _ t _ _ _ | .umin _ t _ _ _ | .umax _ t _ _ _ => t.isNum
  | .ubfe _ t _ _ _ _ => t.isNum
  | .mulh _ t _ _ _ | .min _ t _ _ _ | .max _ t _ _ _ => t.isNum
  | .bfe _ t _ _ _ _ => t.isNum
  | .abs _ t _ _ _ => t.isSigned
  | .sad _ t _ _ _ _ => t == .s32 || t == .n32
  | .dp4 _ t _ _ _ _ _ _ => t == .s32 || t == .n32
  | .sext _ t _ _ _ => t.isSigned
  | .uand _ t _ _ _ | .uor _ t _ _ _ | .uxor _ t _ _ _ | .ushl _ t _ _ _ | .ushr _ t _ _ _ | .usar _ t _ _ _ => t.isBits
  | .ubfi _ t _ _ _ _ | .usel _ t _ _ _ _ => t.isBits
  | .upopc _ t _ _ | .uclz _ t _ _ | .umov _ t _ _ => t.isBits
  | .and _ t _ _ _ | .or _ t _ _ _ | .xor _ t _ _ _ | .shl _ t _ _ _ | .shr _ t _ _ _ | .sar _ t _ _ _
  | .rot _ t _ _ _ => t.isBits
  | .bfi _ t _ _ _ _ => t.isBits
  | .sel _ t _ _ _ _ _ => t.isBits
  | .popc _ t _ _ | .clz _ t _ _ | .brev _ t _ _ | .mov _ t _ _ => t.isBits
  | .cmp _ t cc _ _ _ => t.isNum && cc.isInt
  | .ucmp _ t cc _ _ _ => t.isNum && cc.isInt
  | .fadd _ t _ _ _ _ _ | .fsub _ t _ _ _ _ _ | .fmul _ t _ _ _ _ _ | .fldexp _ t _ _ _ _ _ => t.isFour
  | .ffma _ t _ _ _ _ _ _ => t.isFour
  | .fmin _ t _ _ _ | .fmax _ t _ _ _ => t.isFour
  | .fcmp _ t _ _ _ _ => t.isFour
  | .fclass _ t _ _ => t.isFour
  | .ffrexp _ t _ _ _ => t.isFour
  | .fdiv _ t _ _ _ _ _ => t.isWide
  | .fsqrt _ t _ _ _ _ => t.isWide
  | .fint _ t _ _ _ => t.isFour
  | .fcvt _ t t2 _ _ _ _ => t != t2
  | .f2i _ t t2 _ _ _ => t.isNum && t2.isFour
  | .i2f _ t t2 _ _ _ _ => t.isFour && t2.isNum
  | .fpack _ t _ _ _ _ _ => t.isHalf
  | .funpack _ t2 _ _ => t2.isHalf
  | .fdot2 _ t t2 _ _ _ _ _ _ => t.isWide && t2.isHalf
  | .fdot4 _ t t2 _ _ _ _ _ _ => t.isWide && t2.isNarrow
  | .shfl _ t _ _ _ _ => t.isBits
  | .pswap _ t _ _ _ => t.isBits
  | .matchl _ t _ _ => t.isBits
  | .lscan _ op t _ _ _ => scanOk op t
  | .lred _ op t _ _ => scanOk op t
  | .ld _ _ ap pol _ _ | .ldu _ _ ap pol _ _ => apOk ap pol
  | .st _ sz ap pol _ _ | .stu _ sz ap pol _ _ => apOk ap pol && storeSizeOk sz
  | .sts _ sz _ _ => storeSizeOk sz
  | .atom _ x _ _ _ _ _ => atomOk x
  | .atomu _ x _ _ _ _ _ => atomOk x
  | .atoms _ x _ _ _ _ => atomOk x && (x.scope == .team || x.scope == .grp)
  | .fence _ _ order => order != .relaxed
  | .commit _ path => path == .cp || path == .mx || path == .nm || path == .cl
  | .gwait _ s => s == .pkg || s == .cell || s == .dom
  | .cgrp _ s _ _ => s == .pkg || s == .cell || s == .dom
  | .cstart _ t _ _ => t == .bf16 || t == .f32 || t == .f64
  | .red _ op t _ _ _ => redOk op t
  | _ => true

/-- Instruction words that end control flow and must stand in the last slot of their clause (03 R51). -/
def Instr.endsClause : Instr → Bool
  | .bra .. | .brq .. | .bdiv .. | .regang .. | .loop .. | .call .. | .calli .. | .ret .. | .jmpi .. | .exit ..
  | .regroup .. => true
  | _ => false

/-- Field values that the spec requires to be zero given other fields (12 R222: `c` outside `.cas`, `d` with `.post`;
12 R218: the select bits of `ldu` and `stu`;
05 R81: the scale bit of `prf`, `cln`, `inv`, `clninv`; 06 R112 and 14 R264 for immediates), and the selectors of `usrd` and `uswr` (06 R109,
R110; log entry 15). Another value raises cause 0x02. -/
def Instr.zeroOk : Instr → Bool
  | .atom _ x _ d _ _ c => (x.op == .cas || c == .vec 0) && (!x.post || d == 0)
  | .atoms _ x d _ _ c => (x.op == .cas || c == .vec 0) && (!x.post || d == 0)
  | .atomu _ x _ d _ _ c => (x.op == .cas || c == 0) && (!x.post || d == 0)
  | .ldu _ _ _ _ _ m | .stu _ _ _ _ _ m => !m.baseUniform && !m.indexUniform
  | .prf _ _ m => !m.scale
  | .cln _ m | .inv _ m | .clninv _ m => !m.scale
  | .usrd _ _ x => x.toNat ≤ 0x10
  | .uswr _ _ x => x == 0x0C
  | .ulease _ imm => imm &&& 0x7FFFC000 == 0
  | .sleep _ imm => imm &&& 0xFFC00000 == 0
  | _ => true

/-- Words that need monitor privilege (14 R258); `sleep` with a wake bit does too (14 R264). -/
def Instr.needsMon : Instr → Bool
  | .resume .. | .csrr .. | .csrw .. | .dbg .. | .halt .. => true
  | .sleep _ imm => imm.getLsbD 20 || imm.getLsbD 21
  | _ => false

end Sys2Proof
end

