-- ==== Sys2Proof/WellFormed.lean ====
section
/-! DEFINITION. Which instructions are well formed: those whose word passes every check of 03 R52 that needs nothing
but the word. -/

namespace Sys2Proof

/-- The opcodes with a uniform guard name q0 to q7 (03 R46, 05 R75). -/
def Guard.uniformOk (g : Guard) : Bool := g.reg.toNat < 8

/-- The guard of an instruction word and whether it is uniform (05 R75). The steps of the hardware have none. -/
def Instr.guard? : Instr → Option (Guard × Bool)
  | .uadd g .. | .usub g .. | .umul g .. | .umulh g .. | .umad g .. | .uand g .. | .uor g .. | .uxor g .. | .ushl g ..
  | .ushr g .. | .usar g .. | .umin g .. | .umax g .. | .ubfe g .. | .ubfi g .. | .upopc g .. | .uclz g .. | .ucmp g ..
  | .usel g .. | .umov g .. | .uli g .. | .ulih g .. | .usrd g .. | .uswr g .. | .ufmt g .. | .ulease g .. | .ldu g ..
  | .stu g .. | .atomu g .. | .fence g .. | .wait g .. | .commit g .. | .rdenter g | .rdexit g | .srsv g .. | .srel g
  | .bload g .. | .cbt g .. | .mma g .. | .szero g .. | .srd g .. | .swr g .. | .sst g .. | .cpy g .. | .gath g ..
  | .scat g .. | .fill g .. | .tokset g .. | .pim g .. | .rowcp g .. | .rowz g .. | .cgrp g .. | .cstart g ..
  | .cwait g .. | .red g .. | .resume g .. | .csrr g .. | .csrw g .. | .bar g .. | .gwait g .. | .dfree g .. | .dbg g ..
  | .halt g .. | .sleep g .. => some (g, true)
  | .nop g | .bra g .. | .brq g .. | .bdiv g .. | .regang g .. | .loop g .. | .call g .. | .calli g .. | .ret g ..
  | .jmpi g .. | .exit g | .yield g | .add g .. | .sub g .. | .mul g .. | .mulh g .. | .mad g .. | .addc g ..
  | .subb g .. | .abs g .. | .min g .. | .max g .. | .and g .. | .or g .. | .xor g .. | .lop3 g .. | .shl g ..
  | .shr g .. | .sar g .. | .rot g .. | .bfe g .. | .bfi g .. | .popc g .. | .clz g .. | .brev g .. | .cmp g ..
  | .sel g .. | .mov g .. | .li g .. | .prmt g .. | .sext g .. | .dp4 g .. | .sad g .. | .fadd g .. | .fsub g ..
  | .fmul g .. | .ffma g .. | .fmin g .. | .fmax g .. | .fcmp g .. | .fclass g .. | .fdiv g .. | .fsqrt g ..
  | .frcp g .. | .frsq g .. | .fex2 g .. | .flg2 g .. | .frred g .. | .fsin g .. | .fcos g .. | .fint g ..
  | .fcvt g .. | .f2i g .. | .i2f g .. | .fpack g .. | .funpack g .. | .fldexp g .. | .ffrexp g .. | .fdot2 g ..
  | .fdot4 g .. | .shfl g .. | .pswap g .. | .vote g .. | .ballot g .. | .lscan g .. | .lred g .. | .matchl g ..
  | .regroup g .. | .ld g .. | .st g .. | .lds g .. | .sts g .. | .prf g .. | .atom g .. | .atoms g .. | .cln g ..
  | .inv g .. | .clninv g .. | .emit g .. | .trap g .. | .brk g .. => some (g, false)
  | _ => none

/-- Check 5 of R52: no field that must be zero is not, and a uniform guard names q0 to q7. -/
def Instr.reservedOk (i : Instr) : Bool :=
  i.zeroOk && (match i.guard? with
    | some (g, true) => g.uniformOk
    | _ => true)

/-- Check 6 of R52, its part that needs only the word. -/
def Instr.legalOk (i : Instr) : Bool := i.modsOk && i.operands.all Opnd.staticOk

/-- A well-formed instruction. -/
def Instr.wf (i : Instr) : Bool := i.reservedOk && i.legalOk

end Sys2Proof
end

