-- ==== Sys2Proof/Decode.lean ====
section
/-! DEFINITION. The decoder of instruction words and clause headers, and after it the encoder, both written from the
encoding tables of the spec (03 R37, R45 to R52; 05 R74 to R84). -/

namespace Sys2Proof

/-- Why a word is rejected (03 R52, checks 3, 5 and 6). -/
inductive DecodeErr where
  /-- Check 3: the opcode is unassigned; cause 0x01. -/
  | unassigned (op : BitVec 8)
  /-- Check 5: a field that must be zero is not; cause 0x02. -/
  | reservedField
  /-- Check 6: a modifier, kind or register that the instruction does not list; cause 0x01. -/
  | illegal
deriving DecidableEq, Repr

/-- The fields of an instruction word in the L format (03 R45); the other formats read the same bits under other names. -/
structure Raw where
  op : BitVec 8
  gr : BitVec 4
  gn : Bool
  ua : Bool
  ub : Bool
  uc : Bool
  d : BitVec 8
  a : BitVec 8
  b : BitVec 8
  c : BitVec 8
  m : BitVec 16
deriving DecidableEq, Repr

/-- The fields of a word (03 R45). -/
def Raw.ofWord (w : Word64) : Raw where
  op := w.extractLsb' 56 8
  gr := w.extractLsb' 52 4
  gn := w.getLsbD 51
  ua := w.getLsbD 50
  ub := w.getLsbD 49
  uc := w.getLsbD 48
  d := w.extractLsb' 40 8
  a := w.extractLsb' 32 8
  b := w.extractLsb' 24 8
  c := w.extractLsb' 16 8
  m := w.extractLsb' 0 16

/-- The word of the fields. -/
def Raw.toWord (r : Raw) : Word64 :=
  r.op ++ r.gr ++ BitVec.ofBool r.gn ++ BitVec.ofBool r.ua ++ BitVec.ofBool r.ub ++ BitVec.ofBool r.uc ++ r.d ++ r.a ++
    r.b ++ r.c ++ r.m

/-- The arithmetic modifier layout (05 R77). -/
structure AM where
  ty : BitVec 5
  aux : BitVec 5
  rnd : BitVec 3
  sat : Bool
  lo : BitVec 2
deriving DecidableEq, Repr

def AM.bits (x : AM) : BitVec 16 := x.ty ++ x.aux ++ x.rnd ++ BitVec.ofBool x.sat ++ x.lo

/-- The memory and synchronisation modifier layout (05 R82). -/
structure SM where
  ty : BitVec 5
  op : BitVec 3
  scope : BitVec 3
  order : BitVec 3
  post : Bool
  ap : Bool
deriving DecidableEq, Repr

def SM.bits (x : SM) : BitVec 16 := x.ty ++ x.op ++ x.scope ++ x.order ++ BitVec.ofBool x.post ++ BitVec.ofBool x.ap

/-- The engine command modifier layout (05 R83). -/
structure EM where
  ty : BitVec 5
  op : BitVec 3
  scope : BitVec 3
  chk : Bool
  tok : Bool
  lo : BitVec 3
deriving DecidableEq, Repr

def EM.bits (x : EM) : BitVec 16 := x.ty ++ x.op ++ x.scope ++ BitVec.ofBool x.chk ++ BitVec.ofBool x.tok ++ x.lo

/-- Bits [23:16] of an M-format word (03 R45, 05 R81). -/
structure MM where
  size : BitVec 3
  scale : Bool
  ap : BitVec 2
  pol : BitVec 2
deriving DecidableEq, Repr

def MM.bits (x : MM) : BitVec 8 := x.size ++ BitVec.ofBool x.scale ++ x.ap ++ x.pol

/-- The modifier bits read in the arithmetic layout. -/
def Raw.am (r : Raw) : AM :=
  ⟨r.m.extractLsb' 11 5, r.m.extractLsb' 6 5, r.m.extractLsb' 3 3, r.m.getLsbD 2, r.m.extractLsb' 0 2⟩

/-- The modifier bits read in the synchronisation layout. -/
def Raw.sm (r : Raw) : SM :=
  ⟨r.m.extractLsb' 11 5, r.m.extractLsb' 8 3, r.m.extractLsb' 5 3, r.m.extractLsb' 2 3, r.m.getLsbD 1, r.m.getLsbD 0⟩

/-- The modifier bits read in the engine layout. -/
def Raw.em (r : Raw) : EM :=
  ⟨r.m.extractLsb' 11 5, r.m.extractLsb' 8 3, r.m.extractLsb' 5 3, r.m.getLsbD 4, r.m.getLsbD 3, r.m.extractLsb' 0 3⟩

/-- Bits [23:16] read in the memory layout. -/
def Raw.mm (r : Raw) : MM :=
  ⟨r.c.extractLsb' 5 3, r.c.getLsbD 4, r.c.extractLsb' 2 2, r.c.extractLsb' 0 2⟩

/-- The kind field of a B-format word: bits [50:48] (03 R45). -/
def Raw.kind (r : Raw) : Nat := r.ua.toNat * 4 + r.ub.toNat * 2 + r.uc.toNat

/-- imm32 of an I-format word, the offset of a B-format word: bits [31:0] (03 R45). -/
def Raw.imm (r : Raw) : BitVec 32 := r.b ++ r.c ++ r.m

def Raw.guard (r : Raw) : Guard := ⟨r.gr, r.gn⟩

/-- The address fields of an M-format word (03 R49). -/
def Raw.maddr (r : Raw) : MAddr := ⟨r.ua, r.ub, r.a, r.b, r.mm.scale, r.m⟩

/-- The token register of an engine command (05 R83). -/
def Raw.tokReg (r : Raw) : TokReg := if r.em.tok then some r.c else none

/-- A lane source from its field and its select bit (03 R47). -/
def src (u : Bool) (n : BitVec 8) : Src := if u then .sca n else .vec n

def Src.isSca : Src → Bool
  | .sca _ => true
  | .vec _ => false

def Src.num : Src → Reg
  | .sca n => n
  | .vec n => n

/-! The codes of 03 R49 and 05 R77 to R83. -/

def IntTy.code : IntTy → BitVec 5
  | .b32 => 0x00 | .b64 => 0x01 | .s32 => 0x04 | .s64 => 0x05 | .n32 => 0x08 | .n64 => 0x09

def IntTy.ofCode (x : BitVec 5) : Option IntTy :=
  match x.toNat with
  | 0x00 => some .b32 | 0x01 => some .b64 | 0x04 => some .s32 | 0x05 => some .s64 | 0x08 => some .n32
  | 0x09 => some .n64 | _ => none

def ByteTy.code : ByteTy → BitVec 5
  | .s8 => 0x02 | .n8 => 0x06

def ByteTy.ofCode (x : BitVec 5) : Option ByteTy :=
  match x.toNat with
  | 0x02 => some .s8 | 0x06 => some .n8 | _ => none

def ElemTy.code : ElemTy → BitVec 5
  | .n8 => 0x06 | .n16 => 0x07 | .b32 => 0x00 | .b64 => 0x01

def ElemTy.ofCode (x : BitVec 5) : Option ElemTy :=
  match x.toNat with
  | 0x06 => some .n8 | 0x07 => some .n16 | 0x00 => some .b32 | 0x01 => some .b64 | _ => none

def FTy.code : FTy → BitVec 5
  | .f64 => 0x0A | .f32 => 0x0B | .f16 => 0x0C | .bf16 => 0x0D | .f8a => 0x0E | .f8b => 0x0F

def FTy.ofCode (x : BitVec 5) : Option FTy :=
  match x.toNat with
  | 0x0A => some .f64 | 0x0B => some .f32 | 0x0C => some .f16 | 0x0D => some .bf16 | 0x0E => some .f8a
  | 0x0F => some .f8b | _ => none

def RedTy.code : RedTy → BitVec 5
  | .b32 => 0x00 | .b64 => 0x01 | .s32 => 0x04 | .s64 => 0x05 | .n32 => 0x08 | .n64 => 0x09 | .f64 => 0x0A
  | .f32 => 0x0B

def RedTy.ofCode (x : BitVec 5) : Option RedTy :=
  match x.toNat with
  | 0x00 => some .b32 | 0x01 => some .b64 | 0x04 => some .s32 | 0x05 => some .s64 | 0x08 => some .n32
  | 0x09 => some .n64 | 0x0A => some .f64 | 0x0B => some .f32 | _ => none

def Rnd.code : Rnd → BitVec 3
  | .dyn => 0 | .rn => 4 | .rz => 5 | .rp => 6 | .rm => 7

def Rnd.ofCode (x : BitVec 3) : Option Rnd :=
  match x.toNat with
  | 0 => some .dyn | 4 => some .rn | 5 => some .rz | 6 => some .rp | 7 => some .rm | _ => none

def Cc.code : Cc → BitVec 5
  | .eq => 0 | .ne => 1 | .lt => 2 | .le => 3 | .gt => 4 | .ge => 5 | .num => 6 | .nan => 7

def Cc.ofCode (x : BitVec 5) : Option Cc :=
  match x.toNat with
  | 0 => some .eq | 1 => some .ne | 2 => some .lt | 3 => some .le | 4 => some .gt | 5 => some .ge | 6 => some .num
  | 7 => some .nan | _ => none

def ShflMode.code : ShflMode → BitVec 5
  | .idx => 0 | .up => 1 | .down => 2 | .xor => 3

def ShflMode.ofCode (x : BitVec 5) : Option ShflMode :=
  match x.toNat with
  | 0 => some .idx | 1 => some .up | 2 => some .down | 3 => some .xor | _ => none

def VoteMode.code : VoteMode → BitVec 5
  | .any => 0 | .all => 1 | .none => 2 | .odd => 3 | .agree => 4

def VoteMode.ofCode (x : BitVec 5) : Option VoteMode :=
  match x.toNat with
  | 0 => some .any | 1 => some .all | 2 => some .none | 3 => some .odd | 4 => some .agree | _ => Option.none

def RedOp.code : RedOp → BitVec 3
  | .add => 0 | .min => 1 | .max => 2 | .and => 3 | .or => 4 | .xor => 5

def RedOp.code5 : RedOp → BitVec 5
  | .add => 0 | .min => 1 | .max => 2 | .and => 3 | .or => 4 | .xor => 5

def RedOp.ofCode (x : BitVec 5) : Option RedOp :=
  match x.toNat with
  | 0 => some .add | 1 => some .min | 2 => some .max | 3 => some .and | 4 => some .or | 5 => some .xor | _ => none

def RedOp.ofCode3 (x : BitVec 3) : Option RedOp :=
  match x.toNat with
  | 0 => some .add | 1 => some .min | 2 => some .max | 3 => some .and | 4 => some .or | 5 => some .xor | _ => none

def AtomOp.code : AtomOp → BitVec 3
  | .add => 0 | .min => 1 | .max => 2 | .and => 3 | .or => 4 | .xor => 5 | .exch => 6 | .cas => 7

def AtomOp.ofCode (x : BitVec 3) : Option AtomOp :=
  match x.toNat with
  | 0 => some .add | 1 => some .min | 2 => some .max | 3 => some .and | 4 => some .or | 5 => some .xor | 6 => some .exch
  | 7 => some .cas | _ => none

def MemSize.code : MemSize → BitVec 3
  | .n8 => 0 | .s8 => 1 | .n16 => 2 | .s16 => 3 | .b32 => 4 | .b64 => 5 | .b128 => 6

def MemSize.ofCode (x : BitVec 3) : Option MemSize :=
  match x.toNat with
  | 0 => some .n8 | 1 => some .s8 | 2 => some .n16 | 3 => some .s16 | 4 => some .b32 | 5 => some .b64 | 6 => some .b128
  | _ => none

def Aperture.code : Aperture → BitVec 2
  | .cached => 0 | .ms => 1

def Aperture.ofCode (x : BitVec 2) : Option Aperture :=
  match x.toNat with
  | 0 => some .cached | 1 => some .ms | _ => none

def Policy.code : Policy → BitVec 2
  | .dflt => 0 | .nol1 => 1 | .stream => 2 | .keep => 3

def Policy.ofCode (x : BitVec 2) : Policy :=
  match x.toNat with
  | 0 => .dflt | 1 => .nol1 | 2 => .stream | _ => .keep

def Scope.code : Scope → BitVec 3
  | .dom => 0 | .cell => 1 | .pkg => 2 | .clu => 3 | .team => 4 | .grp => 5

def Scope.ofCode (x : BitVec 3) : Option Scope :=
  match x.toNat with
  | 0 => some .dom | 1 => some .cell | 2 => some .pkg | 3 => some .clu | 4 => some .team | 5 => some .grp | _ => none

def Order.code : Order → BitVec 3
  | .relaxed => 0 | .acq => 1 | .rel => 2 | .ar => 3 | .sc => 4

def Order.ofCode (x : BitVec 3) : Option Order :=
  match x.toNat with
  | 0 => some .relaxed | 1 => some .acq | 2 => some .rel | 3 => some .ar | 4 => some .sc | _ => none

def Path.code : Path → BitVec 3
  | .gl => 0 | .gs => 1 | .sp => 2 | .cp => 3 | .mx => 4 | .nm => 5 | .cl => 6

def Path.ofCode (x : BitVec 3) : Option Path :=
  match x.toNat with
  | 0 => some .gl | 1 => some .gs | 2 => some .sp | 3 => some .cp | 4 => some .mx | 5 => some .nm | 6 => some .cl
  | _ => none

def BarLevel.code : BarLevel → BitVec 3
  | .team => 0 | .clu => 1 | .grid => 2

def BarLevel.ofCode (x : BitVec 3) : Option BarLevel :=
  match x.toNat with
  | 0 => some .team | 1 => some .clu | 2 => some .grid | _ => none

def PimOp.code : PimOp → BitVec 3
  | .add => 0 | .fma => 1 | .scale => 2

def PimOp.ofCode (x : BitVec 3) : Option PimOp :=
  match x.toNat with
  | 0 => some .add | 1 => some .fma | 2 => some .scale | _ => none

/-- The parts of a word that an instruction may use: operand fields, select bits, modifier groups. -/
inductive Fld where
  | d | a | b | c | ua | ub | uc | ty | aux | rnd | sat | sync | sscope | sorder | sop | ety | eop | escope | echk | etok
  | immF | off | size | ap
deriving DecidableEq, Repr

/-- The modifier bits [15:0] of a part. -/
def Fld.mMask : Fld → BitVec 16
  | .ty | .ety => 0xF800
  | .aux => 0x07C0
  | .rnd => 0x0038
  | .sat => 0x0004
  | .sync | .immF | .off => 0xFFFF
  | .sop | .eop => 0x0700
  | .sscope | .escope => 0x00E0
  | .sorder => 0x001C
  | .echk => 0x0010
  | .etok => 0x0008
  | _ => 0

/-- The bits [23:16] of a part. -/
def Fld.cMask : Fld → BitVec 8
  | .c | .immF => 0xFF
  | .size => 0xF0
  | .ap => 0x0F
  | _ => 0

/-- Check 5 of R52 on the unused fields of a word, `uses` being the parts its opcode uses. With TOK clear the c field
of an engine command is unused (05 R83). -/
def Raw.unusedZero (r : Raw) (uses : List Fld) : Bool :=
  let free := uses.filter fun f => !(f == .c && uses.contains .etok && !r.em.tok)
  (uses.contains .d || r.d == 0) && (uses.contains .a || r.a == 0) &&
  (uses.contains .b || uses.contains .immF || r.b == 0) &&
  (uses.contains .ua || !r.ua) && (uses.contains .ub || !r.ub) && (uses.contains .uc || !r.uc) &&
  (r.c &&& ~~~(free.foldl (fun m f => m ||| f.cMask) 0) == 0) &&
  (r.m &&& ~~~(uses.foldl (fun m f => m ||| f.mMask) 0) == 0)

/-- The fields of an L-format word. -/
def mk (op : BitVec 8) (g : Guard) (ua ub uc : Bool) (d a b c : BitVec 8) (m : BitVec 16) : Raw :=
  ⟨op, g.reg, g.neg, ua, ub, uc, d, a, b, c, m⟩

/-- The fields of an I-format word. -/
def mkImm (op : BitVec 8) (g : Guard) (d a : BitVec 8) (imm : BitVec 32) : Raw :=
  ⟨op, g.reg, g.neg, false, false, false, d, a, imm.extractLsb' 24 8, imm.extractLsb' 16 8, imm.extractLsb' 0 16⟩

/-- The fields of a B-format word of kind 0 or 1. -/
def mkB (op : BitVec 8) (g : Guard) (kind : Nat) (d a : BitVec 8) (off : BitVec 32) : Raw :=
  ⟨op, g.reg, g.neg, false, false, kind == 1, d, a, off.extractLsb' 24 8, off.extractLsb' 16 8, off.extractLsb' 0 16⟩

/-- The fields of an M-format word. -/
def mkM (op : BitVec 8) (g : Guard) (d : BitVec 8) (ma : MAddr) (c : BitVec 8) : Raw :=
  ⟨op, g.reg, g.neg, ma.baseUniform, ma.indexUniform, false, d, ma.base, ma.index, c, ma.offset⟩

/-- The fields each opcode uses; every other field of its word must be zero (03 R47, 05 R76). `none`: unassigned (05 R74). -/
def opcodeUses (op : Nat) : Option (List Fld) :=
  match op with
  | 0x01 => some [.d, .a, .b, .ty, .sat]
  | 0x02 => some [.d, .a, .b, .ty, .sat]
  | 0x03 => some [.d, .a, .b, .ty, .sat]
  | 0x04 => some [.d, .a, .b, .ty]
  | 0x05 => some [.d, .a, .b, .c, .ty, .sat]
  | 0x06 => some [.d, .a, .b, .ty]
  | 0x07 => some [.d, .a, .b, .ty]
  | 0x08 => some [.d, .a, .b, .ty]
  | 0x09 => some [.d, .a, .b, .ty]
  | 0x0A => some [.d, .a, .b, .ty]
  | 0x0B => some [.d, .a, .b, .ty]
  | 0x0C => some [.d, .a, .b, .ty]
  | 0x0D => some [.d, .a, .b, .ty]
  | 0x0E => some [.d, .a, .b, .c, .ty]
  | 0x0F => some [.d, .a, .b, .c, .ty]
  | 0x10 => some [.d, .a, .ty]
  | 0x11 => some [.d, .a, .ty]
  | 0x12 => some [.d, .a, .b, .ty, .aux]
  | 0x13 => some [.d, .a, .b, .c, .ty]
  | 0x14 => some [.d, .a, .ty]
  | 0x15 => some [.d, .immF]
  | 0x16 => some [.d, .immF]
  | 0x17 => some [.d, .immF]
  | 0x18 => some [.a, .immF]
  | 0x19 => some [.a]
  | 0x1A => some [.immF]
  | 0x30 => some []
  | 0x31 => some [.ua, .ub, .uc, .immF]
  | 0x32 => some [.a, .ua, .ub, .uc, .immF]
  | 0x33 => some [.d, .a, .ua, .ub, .uc, .immF]
  | 0x34 => some [.ua, .ub, .uc, .immF]
  | 0x35 => some [.a, .ua, .ub, .uc, .immF]
  | 0x36 => some [.d, .ua, .ub, .uc, .immF]
  | 0x37 => some [.d, .a, .ua]
  | 0x38 => some [.a, .ua]
  | 0x39 => some [.a, .ua]
  | 0x3A => some []
  | 0x3B => some []
  | 0x40 => some [.d, .a, .b, .ty, .sat, .ua, .ub]
  | 0x41 => some [.d, .a, .b, .ty, .sat, .ua, .ub]
  | 0x42 => some [.d, .a, .b, .ty, .sat, .ua, .ub]
  | 0x43 => some [.d, .a, .b, .ty, .ua, .ub]
  | 0x44 => some [.d, .a, .b, .c, .ty, .sat, .ua, .ub, .uc]
  | 0x45 => some [.d, .a, .b, .c, .ua, .ub, .ty]
  | 0x46 => some [.d, .a, .b, .c, .ua, .ub, .ty]
  | 0x47 => some [.d, .a, .ty, .sat, .ua]
  | 0x48 => some [.d, .a, .b, .ty, .ua, .ub]
  | 0x49 => some [.d, .a, .b, .ty, .ua, .ub]
  | 0x4A => some [.d, .a, .b, .ty, .ua, .ub]
  | 0x4B => some [.d, .a, .b, .ty, .ua, .ub]
  | 0x4C => some [.d, .a, .b, .ty, .ua, .ub]
  | 0x4D => some [.d, .a, .b, .c, .ua, .ub, .uc, .ty, .aux, .rnd]
  | 0x4E => some [.d, .a, .b, .ty, .ua, .ub]
  | 0x4F => some [.d, .a, .b, .ty, .ua, .ub]
  | 0x50 => some [.d, .a, .b, .ty, .ua, .ub]
  | 0x51 => some [.d, .a, .b, .ty, .ua, .ub]
  | 0x52 => some [.d, .a, .b, .c, .ty, .ua, .ub, .uc]
  | 0x53 => some [.d, .a, .b, .c, .ty, .ua, .ub, .uc]
  | 0x54 => some [.d, .a, .ty, .ua]
  | 0x55 => some [.d, .a, .ty, .ua]
  | 0x56 => some [.d, .a, .ty, .ua]
  | 0x57 => some [.d, .a, .b, .ty, .aux, .ua, .ub]
  | 0x58 => some [.d, .a, .b, .c, .ua, .ub, .uc, .ty]
  | 0x59 => some [.d, .a, .ty, .ua]
  | 0x5A => some [.d, .immF]
  | 0x5B => some [.d, .a, .b, .c, .ua, .ub, .uc, .ty]
  | 0x5C => some [.d, .a, .b, .ty, .ua, .ub]
  | 0x5D => some [.d, .a, .b, .c, .ua, .ub, .uc, .ty, .aux, .sat]
  | 0x5E => some [.d, .a, .b, .c, .ty, .ua, .ub, .uc]
  | 0x80 => some [.d, .ty, .a, .b, .ua, .ub, .rnd, .sat]
  | 0x81 => some [.d, .ty, .a, .b, .ua, .ub, .rnd, .sat]
  | 0x82 => some [.d, .ty, .a, .b, .ua, .ub, .rnd, .sat]
  | 0x83 => some [.d, .ty, .a, .b, .c, .ua, .ub, .uc, .rnd, .sat]
  | 0x84 => some [.d, .ty, .a, .b, .ua, .ub]
  | 0x85 => some [.d, .ty, .a, .b, .ua, .ub]
  | 0x86 => some [.d, .ty, .a, .b, .ua, .ub, .aux]
  | 0x87 => some [.d, .ty, .a, .ua]
  | 0x88 => some [.d, .ty, .a, .b, .ua, .ub, .rnd, .sat]
  | 0x89 => some [.d, .ty, .a, .ua, .rnd, .sat]
  | 0x8A => some [.d, .a, .ua, .ty]
  | 0x8B => some [.d, .a, .ua, .ty]
  | 0x8C => some [.d, .a, .ua, .ty]
  | 0x8D => some [.d, .a, .ua, .ty]
  | 0x8E => some [.d, .a, .ua, .b, .ty]
  | 0x8F => some [.d, .a, .ua, .ty]
  | 0x90 => some [.d, .a, .ua, .ty]
  | 0x91 => some [.d, .ty, .a, .ua, .rnd]
  | 0x92 => some [.d, .ty, .a, .ua, .aux, .rnd, .sat]
  | 0x93 => some [.d, .ty, .a, .ua, .aux, .rnd]
  | 0x94 => some [.d, .ty, .a, .ua, .aux, .rnd, .sat]
  | 0x95 => some [.d, .a, .b, .ua, .ub, .ty, .aux, .rnd, .sat]
  | 0x96 => some [.d, .a, .ua, .ty, .aux]
  | 0x97 => some [.d, .ty, .a, .b, .ua, .ub, .rnd, .sat]
  | 0x98 => some [.d, .a, .ua, .b, .ty]
  | 0x99 => some [.d, .ty, .a, .b, .c, .ua, .ub, .uc, .aux, .rnd, .sat]
  | 0x9A => some [.d, .ty, .a, .b, .c, .ua, .ub, .uc, .aux, .rnd, .sat]
  | 0xB0 => some [.d, .a, .b, .ua, .ub, .ty, .aux]
  | 0xB1 => some [.d, .a, .b, .ty, .ua, .ub]
  | 0xB2 => some [.d, .a, .aux]
  | 0xB3 => some [.d, .a]
  | 0xB4 => some [.d, .a, .ua, .ty, .aux, .rnd]
  | 0xB5 => some [.d, .a, .ua, .ty, .aux]
  | 0xB6 => some [.d, .a, .ty, .ua]
  | 0xB7 => some [.d, .a, .ua]
  | 0xC0 => some [.d, .a, .b, .off, .size, .ua, .ub, .ap]
  | 0xC1 => some [.d, .a, .b, .off, .size, .ua, .ub, .ap]
  | 0xC2 => some [.d, .a, .b, .off, .size, .ap]
  | 0xC3 => some [.d, .a, .b, .off, .size, .ap]
  | 0xC4 => some [.d, .a, .b, .off, .size, .ua, .ub]
  | 0xC5 => some [.d, .a, .b, .off, .size, .ua, .ub]
  | 0xC6 => some [.a, .b, .ua, .ub, .off, .ap]
  | 0xC7 => some [.d, .a, .b, .c, .ua, .ub, .uc, .sync]
  | 0xC8 => some [.d, .a, .b, .c, .sync]
  | 0xC9 => some [.d, .a, .b, .c, .ua, .ub, .uc, .sync]
  | 0xCA => some [.sscope, .sorder]
  | 0xCB => some [.a, .sop]
  | 0xCC => some [.sop]
  | 0xCD => some [.a, .b, .ua, .ub, .off]
  | 0xCE => some [.a, .b, .ua, .ub, .off]
  | 0xCF => some [.a, .b, .ua, .ub, .off]
  | 0xD0 => some []
  | 0xD1 => some []
  | 0xD8 => some [.d, .a, .ety]
  | 0xD9 => some []
  | 0xDA => some [.a, .b]
  | 0xDB => some [.d, .a]
  | 0xDC => some [.d, .a, .b, .c, .etok, .echk]
  | 0xDD => some [.d, .c, .etok]
  | 0xDE => some [.d, .a, .b, .c, .etok]
  | 0xDF => some [.d, .a, .b, .c, .etok]
  | 0xE0 => some [.d, .a, .b, .c, .etok]
  | 0xE1 => some [.d, .a, .b, .c, .etok]
  | 0xE2 => some [.d, .a, .b, .c, .etok, .ety]
  | 0xE3 => some [.d, .a, .b, .c, .etok, .ety]
  | 0xE4 => some [.d, .a, .b, .c, .etok, .ety]
  | 0xE5 => some [.a]
  | 0xE6 => some [.d, .a, .b, .c, .etok, .ety, .eop]
  | 0xE7 => some [.d, .a, .b, .c, .etok]
  | 0xE8 => some [.d, .b, .c, .etok]
  | 0xE9 => some [.d, .a, .escope]
  | 0xEA => some [.a, .b, .ety]
  | 0xEB => some [.a]
  | 0xEC => some [.a, .b, .ety, .eop, .escope]
  | 0xED => some [.ua, .a, .b]
  | 0xF0 => some [.immF]
  | 0xF1 => some [.d, .a, .b]
  | 0xF2 => some [.d, .a]
  | 0xF3 => some [.a, .b]
  | 0xF4 => some [.sop]
  | 0xF5 => some [.sscope]
  | 0xF6 => some [.a, .b]
  | 0xF7 => some [.immF]
  | 0xF8 => some [.d, .a, .b, .c]
  | 0xF9 => some [.d, .a]
  | 0xFA => some [.immF]
  | _ => none

/-- The instruction of a word whose unused fields are zero: one row per opcode of the map of 05 R74. `none`: a modifier
or kind value that the opcode does not list. -/
def buildInstr0 (r : Raw) : Option Instr :=
  match r.op.toNat with
  | 0x01 => (IntTy.ofCode r.am.ty).bind fun t => some (.uadd r.guard t r.am.sat r.d r.a r.b)
  | 0x02 => (IntTy.ofCode r.am.ty).bind fun t => some (.usub r.guard t r.am.sat r.d r.a r.b)
  | 0x03 => (IntTy.ofCode r.am.ty).bind fun t => some (.umul r.guard t r.am.sat r.d r.a r.b)
  | 0x04 => (IntTy.ofCode r.am.ty).bind fun t => some (.umulh r.guard t r.d r.a r.b)
  | 0x05 => (IntTy.ofCode r.am.ty).bind fun t => some (.umad r.guard t r.am.sat r.d r.a r.b r.c)
  | 0x06 => (IntTy.ofCode r.am.ty).bind fun t => some (.uand r.guard t r.d r.a r.b)
  | 0x07 => (IntTy.ofCode r.am.ty).bind fun t => some (.uor r.guard t r.d r.a r.b)
  | 0x08 => (IntTy.ofCode r.am.ty).bind fun t => some (.uxor r.guard t r.d r.a r.b)
  | 0x09 => (IntTy.ofCode r.am.ty).bind fun t => some (.ushl r.guard t r.d r.a r.b)
  | 0x0A => (IntTy.ofCode r.am.ty).bind fun t => some (.ushr r.guard t r.d r.a r.b)
  | 0x0B => (IntTy.ofCode r.am.ty).bind fun t => some (.usar r.guard t r.d r.a r.b)
  | 0x0C => (IntTy.ofCode r.am.ty).bind fun t => some (.umin r.guard t r.d r.a r.b)
  | 0x0D => (IntTy.ofCode r.am.ty).bind fun t => some (.umax r.guard t r.d r.a r.b)
  | 0x0E => (IntTy.ofCode r.am.ty).bind fun t => some (.ubfe r.guard t r.d r.a r.b r.c)
  | 0x0F => (IntTy.ofCode r.am.ty).bind fun t => some (.ubfi r.guard t r.d r.a r.b r.c)
  | 0x10 => (IntTy.ofCode r.am.ty).bind fun t => some (.upopc r.guard t r.d r.a)
  | 0x11 => (IntTy.ofCode r.am.ty).bind fun t => some (.uclz r.guard t r.d r.a)
  | 0x12 => (IntTy.ofCode r.am.ty).bind fun t => (Cc.ofCode r.am.aux).bind fun cc => some (.ucmp r.guard t cc r.d r.a r.b)
  | 0x13 => (IntTy.ofCode r.am.ty).bind fun t => some (.usel r.guard t r.d r.a r.b r.c)
  | 0x14 => (IntTy.ofCode r.am.ty).bind fun t => some (.umov r.guard t r.d r.a)
  | 0x15 => some (.uli r.guard r.d r.imm)
  | 0x16 => some (.ulih r.guard r.d r.imm)
  | 0x17 => some (.usrd r.guard r.d r.imm)
  | 0x18 => some (.uswr r.guard r.a r.imm)
  | 0x19 => some (.ufmt r.guard r.a)
  | 0x1A => some (.ulease r.guard  r.imm)
  | 0x30 => some (.nop r.guard)
  | 0x31 => if r.kind = 0 then some (.bra r.guard r.imm) else none
  | 0x32 => if r.kind = 0 then some (.brq r.guard false r.a r.imm) else if r.kind = 1 then some (.brq r.guard true r.a r.imm) else none
  | 0x33 => if r.kind = 0 then some (.bdiv r.guard (r.d ++ r.a) r.imm) else none
  | 0x34 => if r.kind = 0 then some (.regang r.guard r.imm) else none
  | 0x35 => if r.kind = 0 then some (.loop r.guard false r.a r.imm) else if r.kind = 1 then some (.loop r.guard true r.a r.imm) else none
  | 0x36 => if r.kind = 0 then some (.call r.guard r.d r.imm) else none
  | 0x37 => some (.calli r.guard r.d (src r.ua r.a))
  | 0x38 => some (.ret r.guard (src r.ua r.a))
  | 0x39 => some (.jmpi r.guard (src r.ua r.a))
  | 0x3A => some (.exit r.guard)
  | 0x3B => some (.yield r.guard)
  | 0x40 => (IntTy.ofCode r.am.ty).bind fun t => some (.add r.guard t r.am.sat r.d (src r.ua r.a) (src r.ub r.b))
  | 0x41 => (IntTy.ofCode r.am.ty).bind fun t => some (.sub r.guard t r.am.sat r.d (src r.ua r.a) (src r.ub r.b))
  | 0x42 => (IntTy.ofCode r.am.ty).bind fun t => some (.mul r.guard t r.am.sat r.d (src r.ua r.a) (src r.ub r.b))
  | 0x43 => (IntTy.ofCode r.am.ty).bind fun t => some (.mulh r.guard t r.d (src r.ua r.a) (src r.ub r.b))
  | 0x44 => (IntTy.ofCode r.am.ty).bind fun t => some (.mad r.guard t r.am.sat r.d (src r.ua r.a) (src r.ub r.b) (src r.uc r.c))
  | 0x45 => if r.am.ty = 0 then some (.addc r.guard r.d (src r.ua r.a) (src r.ub r.b) r.c) else none
  | 0x46 => if r.am.ty = 0 then some (.subb r.guard r.d (src r.ua r.a) (src r.ub r.b) r.c) else none
  | 0x47 => (IntTy.ofCode r.am.ty).bind fun t => some (.abs r.guard t r.am.sat r.d (src r.ua r.a))
  | 0x48 => (IntTy.ofCode r.am.ty).bind fun t => some (.min r.guard t r.d (src r.ua r.a) (src r.ub r.b))
  | 0x49 => (IntTy.ofCode r.am.ty).bind fun t => some (.max r.guard t r.d (src r.ua r.a) (src r.ub r.b))
  | 0x4A => (IntTy.ofCode r.am.ty).bind fun t => some (.and r.guard t r.d (src r.ua r.a) (src r.ub r.b))
  | 0x4B => (IntTy.ofCode r.am.ty).bind fun t => some (.or r.guard t r.d (src r.ua r.a) (src r.ub r.b))
  | 0x4C => (IntTy.ofCode r.am.ty).bind fun t => some (.xor r.guard t r.d (src r.ua r.a) (src r.ub r.b))
  | 0x4D => if r.am.ty = 0 then some (.lop3 r.guard (r.am.aux ++ r.am.rnd) r.d (src r.ua r.a) (src r.ub r.b) (src r.uc r.c)) else none
  | _ => none

/-- The next rows of the map. -/
def buildInstr1 (r : Raw) : Option Instr :=
  match r.op.toNat with
  | 0x4E => (IntTy.ofCode r.am.ty).bind fun t => some (.shl r.guard t r.d (src r.ua r.a) (src r.ub r.b))
  | 0x4F => (IntTy.ofCode r.am.ty).bind fun t => some (.shr r.guard t r.d (src r.ua r.a) (src r.ub r.b))
  | 0x50 => (IntTy.ofCode r.am.ty).bind fun t => some (.sar r.guard t r.d (src r.ua r.a) (src r.ub r.b))
  | 0x51 => (IntTy.ofCode r.am.ty).bind fun t => some (.rot r.guard t r.d (src r.ua r.a) (src r.ub r.b))
  | 0x52 => (IntTy.ofCode r.am.ty).bind fun t => some (.bfe r.guard t r.d (src r.ua r.a) (src r.ub r.b) (src r.uc r.c))
  | 0x53 => (IntTy.ofCode r.am.ty).bind fun t => some (.bfi r.guard t r.d (src r.ua r.a) (src r.ub r.b) (src r.uc r.c))
  | 0x54 => (IntTy.ofCode r.am.ty).bind fun t => some (.popc r.guard t r.d (src r.ua r.a))
  | 0x55 => (IntTy.ofCode r.am.ty).bind fun t => some (.clz r.guard t r.d (src r.ua r.a))
  | 0x56 => (IntTy.ofCode r.am.ty).bind fun t => some (.brev r.guard t r.d (src r.ua r.a))
  | 0x57 => (IntTy.ofCode r.am.ty).bind fun t => (Cc.ofCode r.am.aux).bind fun cc => some (.cmp r.guard t cc r.d (src r.ua r.a) (src r.ub r.b))
  | 0x58 => (IntTy.ofCode r.am.ty).bind fun t => some (.sel r.guard t r.d (src r.ua r.a) (src r.ub r.b) r.uc r.c)
  | 0x59 => (IntTy.ofCode r.am.ty).bind fun t => some (.mov r.guard t r.d (src r.ua r.a))
  | 0x5A => some (.li r.guard r.d r.imm)
  | 0x5B => if r.am.ty = 0 then some (.prmt r.guard r.d (src r.ua r.a) (src r.ub r.b) (src r.uc r.c)) else none
  | 0x5C => (IntTy.ofCode r.am.ty).bind fun t => some (.sext r.guard t r.d (src r.ua r.a) (src r.ub r.b))
  | 0x5D => (IntTy.ofCode r.am.ty).bind fun t => (ByteTy.ofCode r.am.aux).bind fun t2 => some (.dp4 r.guard t t2 r.am.sat r.d (src r.ua r.a) (src r.ub r.b) (src r.uc r.c))
  | 0x5E => (IntTy.ofCode r.am.ty).bind fun t => some (.sad r.guard t r.d (src r.ua r.a) (src r.ub r.b) (src r.uc r.c))
  | 0x80 => (FTy.ofCode r.am.ty).bind fun t => (Rnd.ofCode r.am.rnd).bind fun rmode => some (.fadd r.guard t rmode r.am.sat r.d (src r.ua r.a) (src r.ub r.b))
  | 0x81 => (FTy.ofCode r.am.ty).bind fun t => (Rnd.ofCode r.am.rnd).bind fun rmode => some (.fsub r.guard t rmode r.am.sat r.d (src r.ua r.a) (src r.ub r.b))
  | 0x82 => (FTy.ofCode r.am.ty).bind fun t => (Rnd.ofCode r.am.rnd).bind fun rmode => some (.fmul r.guard t rmode r.am.sat r.d (src r.ua r.a) (src r.ub r.b))
  | 0x83 => (FTy.ofCode r.am.ty).bind fun t => (Rnd.ofCode r.am.rnd).bind fun rmode => some (.ffma r.guard t rmode r.am.sat r.d (src r.ua r.a) (src r.ub r.b) (src r.uc r.c))
  | 0x84 => (FTy.ofCode r.am.ty).bind fun t => some (.fmin r.guard t r.d (src r.ua r.a) (src r.ub r.b))
  | 0x85 => (FTy.ofCode r.am.ty).bind fun t => some (.fmax r.guard t r.d (src r.ua r.a) (src r.ub r.b))
  | 0x86 => (FTy.ofCode r.am.ty).bind fun t => (Cc.ofCode r.am.aux).bind fun cc => some (.fcmp r.guard t cc r.d (src r.ua r.a) (src r.ub r.b))
  | 0x87 => (FTy.ofCode r.am.ty).bind fun t => some (.fclass r.guard t r.d (src r.ua r.a))
  | 0x88 => (FTy.ofCode r.am.ty).bind fun t => (Rnd.ofCode r.am.rnd).bind fun rmode => some (.fdiv r.guard t rmode r.am.sat r.d (src r.ua r.a) (src r.ub r.b))
  | 0x89 => (FTy.ofCode r.am.ty).bind fun t => (Rnd.ofCode r.am.rnd).bind fun rmode => some (.fsqrt r.guard t rmode r.am.sat r.d (src r.ua r.a))
  | 0x8A => if r.am.ty = FTy.code .f32 then some (.frcp r.guard r.d (src r.ua r.a)) else none
  | 0x8B => if r.am.ty = FTy.code .f32 then some (.frsq r.guard r.d (src r.ua r.a)) else none
  | 0x8C => if r.am.ty = FTy.code .f32 then some (.fex2 r.guard r.d (src r.ua r.a)) else none
  | 0x8D => if r.am.ty = FTy.code .f32 then some (.flg2 r.guard r.d (src r.ua r.a)) else none
  | 0x8E => if r.am.ty = FTy.code .f32 then some (.frred r.guard r.d (src r.ua r.a) r.b) else none
  | 0x8F => if r.am.ty = FTy.code .f32 then some (.fsin r.guard r.d (src r.ua r.a)) else none
  | 0x90 => if r.am.ty = FTy.code .f32 then some (.fcos r.guard r.d (src r.ua r.a)) else none
  | 0x91 => (FTy.ofCode r.am.ty).bind fun t => (Rnd.ofCode r.am.rnd).bind fun rmode => some (.fint r.guard t rmode r.d (src r.ua r.a))
  | 0x92 => (FTy.ofCode r.am.ty).bind fun t => (FTy.ofCode r.am.aux).bind fun t2 => (Rnd.ofCode r.am.rnd).bind fun rmode => some (.fcvt r.guard t t2 rmode r.am.sat r.d (src r.ua r.a))
  | 0x93 => (IntTy.ofCode r.am.ty).bind fun t => (FTy.ofCode r.am.aux).bind fun t2 => (Rnd.ofCode r.am.rnd).bind fun rmode => some (.f2i r.guard t t2 rmode r.d (src r.ua r.a))
  | 0x94 => (FTy.ofCode r.am.ty).bind fun t => (IntTy.ofCode r.am.aux).bind fun t2 => (Rnd.ofCode r.am.rnd).bind fun rmode => some (.i2f r.guard t t2 rmode r.am.sat r.d (src r.ua r.a))
  | 0x95 => (FTy.ofCode r.am.ty).bind fun t => (Rnd.ofCode r.am.rnd).bind fun rmode => if r.am.aux = FTy.code .f32 then some (.fpack r.guard t rmode r.am.sat r.d (src r.ua r.a) (src r.ub r.b)) else none
  | 0x96 => (FTy.ofCode r.am.aux).bind fun t2 => if r.am.ty = FTy.code .f32 then some (.funpack r.guard t2 r.d (src r.ua r.a)) else none
  | 0x97 => (FTy.ofCode r.am.ty).bind fun t => (Rnd.ofCode r.am.rnd).bind fun rmode => some (.fldexp r.guard t rmode r.am.sat r.d (src r.ua r.a) (src r.ub r.b))
  | 0x98 => (FTy.ofCode r.am.ty).bind fun t => some (.ffrexp r.guard t r.d (src r.ua r.a) r.b)
  | 0x99 => (FTy.ofCode r.am.ty).bind fun t => (FTy.ofCode r.am.aux).bind fun t2 => (Rnd.ofCode r.am.rnd).bind fun rmode => some (.fdot2 r.guard t t2 rmode r.am.sat r.d (src r.ua r.a) (src r.ub r.b) (src r.uc r.c))
  | 0x9A => (FTy.ofCode r.am.ty).bind fun t => (FTy.ofCode r.am.aux).bind fun t2 => (Rnd.ofCode r.am.rnd).bind fun rmode => some (.fdot4 r.guard t t2 rmode r.am.sat r.d (src r.ua r.a) (src r.ub r.b) (src r.uc r.c))
  | 0xB0 => (IntTy.ofCode r.am.ty).bind fun t => (ShflMode.ofCode r.am.aux).bind fun mo => some (.shfl r.guard t mo r.d (src r.ua r.a) (src r.ub r.b))
  | 0xB1 => (IntTy.ofCode r.am.ty).bind fun t => some (.pswap r.guard t r.d (src r.ua r.a) (src r.ub r.b))
  | 0xB2 => (VoteMode.ofCode r.am.aux).bind fun mo => some (.vote r.guard mo r.d r.a)
  | 0xB3 => some (.ballot r.guard r.d r.a)
  | 0xB4 => (RedOp.ofCode r.am.aux).bind fun op => (RedTy.ofCode r.am.ty).bind fun t => if r.am.rnd = 0 ∨ r.am.rnd = 1 then some (.lscan r.guard op t (r.am.rnd == 1) r.d (src r.ua r.a)) else none
  | 0xB5 => (RedOp.ofCode r.am.aux).bind fun op => (RedTy.ofCode r.am.ty).bind fun t => some (.lred r.guard op t r.d (src r.ua r.a))
  | 0xB6 => (IntTy.ofCode r.am.ty).bind fun t => some (.matchl r.guard t r.d (src r.ua r.a))
  | 0xB7 => if r.ua then some (.regroup r.guard r.d r.a) else none
  | _ => none

/-- The next rows of the map. -/
def buildInstr2 (r : Raw) : Option Instr :=
  match r.op.toNat with
  | 0xC0 => (MemSize.ofCode r.mm.size).bind fun sz => (Aperture.ofCode r.mm.ap).bind fun ap => some (.ld r.guard sz ap (Policy.ofCode r.mm.pol) r.d r.maddr)
  | 0xC1 => (MemSize.ofCode r.mm.size).bind fun sz => (Aperture.ofCode r.mm.ap).bind fun ap => some (.st r.guard sz ap (Policy.ofCode r.mm.pol) r.d r.maddr)
  | 0xC2 => (MemSize.ofCode r.mm.size).bind fun sz => (Aperture.ofCode r.mm.ap).bind fun ap => some (.ldu r.guard sz ap (Policy.ofCode r.mm.pol) r.d r.maddr)
  | 0xC3 => (MemSize.ofCode r.mm.size).bind fun sz => (Aperture.ofCode r.mm.ap).bind fun ap => some (.stu r.guard sz ap (Policy.ofCode r.mm.pol) r.d r.maddr)
  | 0xC4 => (MemSize.ofCode r.mm.size).bind fun sz => some (.lds r.guard sz r.d r.maddr)
  | 0xC5 => (MemSize.ofCode r.mm.size).bind fun sz => some (.sts r.guard sz r.d r.maddr)
  | 0xC6 => if r.mm.ap = 0 then some (.prf r.guard (Policy.ofCode r.mm.pol) r.maddr) else none
  | 0xC7 => (AtomOp.ofCode r.sm.op).bind fun op => (RedTy.ofCode r.sm.ty).bind fun t => (Scope.ofCode r.sm.scope).bind fun sc => (Order.ofCode r.sm.order).bind fun od => some (.atom r.guard ⟨op, t, sc, od, r.sm.post⟩ (if r.sm.ap then .ms else .cached) r.d (src r.ua r.a) (src r.ub r.b) (src r.uc r.c))
  | 0xC8 => (AtomOp.ofCode r.sm.op).bind fun op => (RedTy.ofCode r.sm.ty).bind fun t => (Scope.ofCode r.sm.scope).bind fun sc => (Order.ofCode r.sm.order).bind fun od => some (.atomu r.guard ⟨op, t, sc, od, r.sm.post⟩ (if r.sm.ap then .ms else .cached) r.d r.a r.b r.c)
  | 0xC9 => (AtomOp.ofCode r.sm.op).bind fun op => (RedTy.ofCode r.sm.ty).bind fun t => (Scope.ofCode r.sm.scope).bind fun sc => (Order.ofCode r.sm.order).bind fun od => if r.sm.ap then none else some (.atoms r.guard ⟨op, t, sc, od, r.sm.post⟩ r.d (src r.ua r.a) (src r.ub r.b) (src r.uc r.c))
  | 0xCA => (Scope.ofCode r.sm.scope).bind fun sc => (Order.ofCode r.sm.order).bind fun od => some (.fence r.guard sc od)
  | 0xCB => (Path.ofCode r.sm.op).bind fun p => some (.wait r.guard p r.a)
  | 0xCC => (Path.ofCode r.sm.op).bind fun p => some (.commit r.guard p)
  | 0xCD => some (.cln r.guard r.maddr)
  | 0xCE => some (.inv r.guard r.maddr)
  | 0xCF => some (.clninv r.guard r.maddr)
  | 0xD0 => some (.rdenter r.guard)
  | 0xD1 => some (.rdexit r.guard)
  | 0xD8 => if r.em.ty = FTy.code .f32 then some (.srsv r.guard false r.d r.a) else if r.em.ty = FTy.code .f64 then some (.srsv r.guard true r.d r.a) else none
  | 0xD9 => some (.srel r.guard)
  | 0xDA => some (.bload r.guard r.a r.b)
  | 0xDB => some (.cbt r.guard r.d r.a)
  | 0xDC => some (.mma r.guard r.em.chk r.d r.a r.b r.tokReg)
  | 0xDD => some (.szero r.guard r.d r.tokReg)
  | 0xDE => some (.srd r.guard r.d r.a r.b r.tokReg)
  | 0xDF => some (.swr r.guard r.d r.a r.b r.tokReg)
  | 0xE0 => some (.sst r.guard r.d r.a r.b r.tokReg)
  | 0xE1 => some (.cpy r.guard r.d r.a r.b r.tokReg)
  | 0xE2 => (ElemTy.ofCode r.em.ty).bind fun t => some (.gath r.guard t r.d r.a r.b r.tokReg)
  | 0xE3 => (ElemTy.ofCode r.em.ty).bind fun t => some (.scat r.guard t r.d r.a r.b r.tokReg)
  | 0xE4 => if r.em.ty = 0 then some (.fill r.guard false r.d r.a r.b r.tokReg) else if r.em.ty = 1 then some (.fill r.guard true r.d r.a r.b r.tokReg) else none
  | 0xE5 => some (.tokset r.guard r.a)
  | 0xE6 => if r.em.ty = FTy.code .bf16 then (PimOp.ofCode r.em.op).bind fun op => some (.pim r.guard op r.d r.a r.b r.tokReg) else none
  | 0xE7 => some (.rowcp r.guard r.d r.a r.b r.tokReg)
  | 0xE8 => some (.rowz r.guard r.d r.b r.tokReg)
  | 0xE9 => (Scope.ofCode r.em.scope).bind fun sc => some (.cgrp r.guard sc r.d r.a)
  | 0xEA => (FTy.ofCode r.em.ty).bind fun t => some (.cstart r.guard t r.a r.b)
  | 0xEB => some (.cwait r.guard r.a)
  | 0xEC => (RedOp.ofCode3 r.em.op).bind fun op => (RedTy.ofCode r.em.ty).bind fun t => (Scope.ofCode r.em.scope).bind fun sc => some (.red r.guard op t sc r.a r.b)
  | 0xED => if r.ua then some (.emit r.guard r.a r.b) else none
  | 0xF0 => some (.trap r.guard  r.imm)
  | 0xF1 => some (.resume r.guard r.d r.a r.b)
  | 0xF2 => some (.csrr r.guard r.d r.a)
  | 0xF3 => some (.csrw r.guard r.a r.b)
  | 0xF4 => (BarLevel.ofCode r.sm.op).bind fun l => some (.bar r.guard l)
  | 0xF5 => (Scope.ofCode r.sm.scope).bind fun sc => some (.gwait r.guard sc)
  | 0xF6 => some (.dfree r.guard r.a r.b)
  | 0xF7 => some (.brk r.guard  r.imm)
  | 0xF8 => some (.dbg r.guard r.d r.a r.b r.c)
  | 0xF9 => some (.halt r.guard r.d r.a)
  | 0xFA => some (.sleep r.guard  r.imm)
  | _ => none

/-- The instruction of a word, over the whole map. -/
def buildInstr (r : Raw) : Option Instr :=
  if r.op.toNat < 0x4E then buildInstr0 r else if r.op.toNat < 0xC0 then buildInstr1 r else buildInstr2 r

/-- The fields of an instruction's word. `none` for the steps of the hardware, which have no word. -/
def encodeRaw : Instr → Option Raw
  | .uadd g t sat d a b => some (mk 0x01 g false false false d a b 0 (AM.bits ⟨t.code, 0, 0, sat, 0⟩))
  | .usub g t sat d a b => some (mk 0x02 g false false false d a b 0 (AM.bits ⟨t.code, 0, 0, sat, 0⟩))
  | .umul g t sat d a b => some (mk 0x03 g false false false d a b 0 (AM.bits ⟨t.code, 0, 0, sat, 0⟩))
  | .umulh g t d a b => some (mk 0x04 g false false false d a b 0 (AM.bits ⟨t.code, 0, 0, false, 0⟩))
  | .umad g t sat d a b c => some (mk 0x05 g false false false d a b c (AM.bits ⟨t.code, 0, 0, sat, 0⟩))
  | .uand g t d a b => some (mk 0x06 g false false false d a b 0 (AM.bits ⟨t.code, 0, 0, false, 0⟩))
  | .uor g t d a b => some (mk 0x07 g false false false d a b 0 (AM.bits ⟨t.code, 0, 0, false, 0⟩))
  | .uxor g t d a b => some (mk 0x08 g false false false d a b 0 (AM.bits ⟨t.code, 0, 0, false, 0⟩))
  | .ushl g t d a b => some (mk 0x09 g false false false d a b 0 (AM.bits ⟨t.code, 0, 0, false, 0⟩))
  | .ushr g t d a b => some (mk 0x0A g false false false d a b 0 (AM.bits ⟨t.code, 0, 0, false, 0⟩))
  | .usar g t d a b => some (mk 0x0B g false false false d a b 0 (AM.bits ⟨t.code, 0, 0, false, 0⟩))
  | .umin g t d a b => some (mk 0x0C g false false false d a b 0 (AM.bits ⟨t.code, 0, 0, false, 0⟩))
  | .umax g t d a b => some (mk 0x0D g false false false d a b 0 (AM.bits ⟨t.code, 0, 0, false, 0⟩))
  | .ubfe g t d a b c => some (mk 0x0E g false false false d a b c (AM.bits ⟨t.code, 0, 0, false, 0⟩))
  | .ubfi g t d a b c => some (mk 0x0F g false false false d a b c (AM.bits ⟨t.code, 0, 0, false, 0⟩))
  | .upopc g t d a => some (mk 0x10 g false false false d a 0 0 (AM.bits ⟨t.code, 0, 0, false, 0⟩))
  | .uclz g t d a => some (mk 0x11 g false false false d a 0 0 (AM.bits ⟨t.code, 0, 0, false, 0⟩))
  | .ucmp g t cc d a b => some (mk 0x12 g false false false d a b 0 (AM.bits ⟨t.code, cc.code, 0, false, 0⟩))
  | .usel g t d a b c => some (mk 0x13 g false false false d a b c (AM.bits ⟨t.code, 0, 0, false, 0⟩))
  | .umov g t d a => some (mk 0x14 g false false false d a 0 0 (AM.bits ⟨t.code, 0, 0, false, 0⟩))
  | .uli g d imm => some (mkImm 0x15 g d 0 imm)
  | .ulih g d imm => some (mkImm 0x16 g d 0 imm)
  | .usrd g d sl => some (mkImm 0x17 g d 0 sl)
  | .uswr g a sl => some (mkImm 0x18 g 0 a sl)
  | .ufmt g a => some (mk 0x19 g false false false 0 a 0 0 0)
  | .ulease g imm => some (mkImm 0x1A g 0 0 imm)
  | .nop g => some (mk 0x30 g false false false 0 0 0 0 0)
  | .bra g off => some (mkB 0x31 g 0 0 0 off)
  | .brq g wf q off => some (mkB 0x32 g (if wf then 1 else 0) 0 q off)
  | .bdiv g j off => some (mkB 0x33 g 0 (j.extractLsb' 8 8) (j.extractLsb' 0 8) off)
  | .regang g off => some (mkB 0x34 g 0 0 0 off)
  | .loop g v c off => some (mkB 0x35 g (if v then 1 else 0) 0 c off)
  | .call g l off => some (mkB 0x36 g 0 l 0 off)
  | .calli g l a => some (mk 0x37 g a.isSca false false l a.num 0 0 0)
  | .ret g a => some (mk 0x38 g a.isSca false false 0 a.num 0 0 0)
  | .jmpi g a => some (mk 0x39 g a.isSca false false 0 a.num 0 0 0)
  | .exit g => some (mk 0x3A g false false false 0 0 0 0 0)
  | .yield g => some (mk 0x3B g false false false 0 0 0 0 0)
  | .add g t sat d a b => some (mk 0x40 g a.isSca b.isSca false d a.num b.num 0 (AM.bits ⟨t.code, 0, 0, sat, 0⟩))
  | .sub g t sat d a b => some (mk 0x41 g a.isSca b.isSca false d a.num b.num 0 (AM.bits ⟨t.code, 0, 0, sat, 0⟩))
  | .mul g t sat d a b => some (mk 0x42 g a.isSca b.isSca false d a.num b.num 0 (AM.bits ⟨t.code, 0, 0, sat, 0⟩))
  | .mulh g t d a b => some (mk 0x43 g a.isSca b.isSca false d a.num b.num 0 (AM.bits ⟨t.code, 0, 0, false, 0⟩))
  | .mad g t sat d a b c => some (mk 0x44 g a.isSca b.isSca c.isSca d a.num b.num c.num (AM.bits ⟨t.code, 0, 0, sat, 0⟩))
  | .addc g d a b c => some (mk 0x45 g a.isSca b.isSca false d a.num b.num c 0)
  | .subb g d a b c => some (mk 0x46 g a.isSca b.isSca false d a.num b.num c 0)
  | .abs g t sat d a => some (mk 0x47 g a.isSca false false d a.num 0 0 (AM.bits ⟨t.code, 0, 0, sat, 0⟩))
  | .min g t d a b => some (mk 0x48 g a.isSca b.isSca false d a.num b.num 0 (AM.bits ⟨t.code, 0, 0, false, 0⟩))
  | .max g t d a b => some (mk 0x49 g a.isSca b.isSca false d a.num b.num 0 (AM.bits ⟨t.code, 0, 0, false, 0⟩))
  | .and g t d a b => some (mk 0x4A g a.isSca b.isSca false d a.num b.num 0 (AM.bits ⟨t.code, 0, 0, false, 0⟩))
  | .or g t d a b => some (mk 0x4B g a.isSca b.isSca false d a.num b.num 0 (AM.bits ⟨t.code, 0, 0, false, 0⟩))
  | .xor g t d a b => some (mk 0x4C g a.isSca b.isSca false d a.num b.num 0 (AM.bits ⟨t.code, 0, 0, false, 0⟩))
  | .lop3 g tt d a b c => some (mk 0x4D g a.isSca b.isSca c.isSca d a.num b.num c.num (AM.bits ⟨0, tt.extractLsb' 3 5, tt.extractLsb' 0 3, false, 0⟩))
  | .shl g t d a b => some (mk 0x4E g a.isSca b.isSca false d a.num b.num 0 (AM.bits ⟨t.code, 0, 0, false, 0⟩))
  | .shr g t d a b => some (mk 0x4F g a.isSca b.isSca false d a.num b.num 0 (AM.bits ⟨t.code, 0, 0, false, 0⟩))
  | .sar g t d a b => some (mk 0x50 g a.isSca b.isSca false d a.num b.num 0 (AM.bits ⟨t.code, 0, 0, false, 0⟩))
  | .rot g t d a b => some (mk 0x51 g a.isSca b.isSca false d a.num b.num 0 (AM.bits ⟨t.code, 0, 0, false, 0⟩))
  | .bfe g t d a b c => some (mk 0x52 g a.isSca b.isSca c.isSca d a.num b.num c.num (AM.bits ⟨t.code, 0, 0, false, 0⟩))
  | .bfi g t d a b c => some (mk 0x53 g a.isSca b.isSca c.isSca d a.num b.num c.num (AM.bits ⟨t.code, 0, 0, false, 0⟩))
  | .popc g t d a => some (mk 0x54 g a.isSca false false d a.num 0 0 (AM.bits ⟨t.code, 0, 0, false, 0⟩))
  | .clz g t d a => some (mk 0x55 g a.isSca false false d a.num 0 0 (AM.bits ⟨t.code, 0, 0, false, 0⟩))
  | .brev g t d a => some (mk 0x56 g a.isSca false false d a.num 0 0 (AM.bits ⟨t.code, 0, 0, false, 0⟩))
  | .cmp g t cc d a b => some (mk 0x57 g a.isSca b.isSca false d a.num b.num 0 (AM.bits ⟨t.code, cc.code, 0, false, 0⟩))
  | .sel g t d a b u c => some (mk 0x58 g a.isSca b.isSca u d a.num b.num c (AM.bits ⟨t.code, 0, 0, false, 0⟩))
  | .mov g t d a => some (mk 0x59 g a.isSca false false d a.num 0 0 (AM.bits ⟨t.code, 0, 0, false, 0⟩))
  | .li g d imm => some (mkImm 0x5A g d 0 imm)
  | .prmt g d a b c => some (mk 0x5B g a.isSca b.isSca c.isSca d a.num b.num c.num 0)
  | .sext g t d a b => some (mk 0x5C g a.isSca b.isSca false d a.num b.num 0 (AM.bits ⟨t.code, 0, 0, false, 0⟩))
  | .dp4 g t t2 sat d a b c => some (mk 0x5D g a.isSca b.isSca c.isSca d a.num b.num c.num (AM.bits ⟨t.code, t2.code, 0, sat, 0⟩))
  | .sad g t d a b c => some (mk 0x5E g a.isSca b.isSca c.isSca d a.num b.num c.num (AM.bits ⟨t.code, 0, 0, false, 0⟩))
  | .fadd g t rmode sat d a b => some (mk 0x80 g a.isSca b.isSca false d a.num b.num 0 (AM.bits ⟨t.code, 0, rmode.code, sat, 0⟩))
  | .fsub g t rmode sat d a b => some (mk 0x81 g a.isSca b.isSca false d a.num b.num 0 (AM.bits ⟨t.code, 0, rmode.code, sat, 0⟩))
  | .fmul g t rmode sat d a b => some (mk 0x82 g a.isSca b.isSca false d a.num b.num 0 (AM.bits ⟨t.code, 0, rmode.code, sat, 0⟩))
  | .ffma g t rmode sat d a b c => some (mk 0x83 g a.isSca b.isSca c.isSca d a.num b.num c.num (AM.bits ⟨t.code, 0, rmode.code, sat, 0⟩))
  | .fmin g t d a b => some (mk 0x84 g a.isSca b.isSca false d a.num b.num 0 (AM.bits ⟨t.code, 0, 0, false, 0⟩))
  | .fmax g t d a b => some (mk 0x85 g a.isSca b.isSca false d a.num b.num 0 (AM.bits ⟨t.code, 0, 0, false, 0⟩))
  | .fcmp g t cc d a b => some (mk 0x86 g a.isSca b.isSca false d a.num b.num 0 (AM.bits ⟨t.code, cc.code, 0, false, 0⟩))
  | .fclass g t d a => some (mk 0x87 g a.isSca false false d a.num 0 0 (AM.bits ⟨t.code, 0, 0, false, 0⟩))
  | .fdiv g t rmode sat d a b => some (mk 0x88 g a.isSca b.isSca false d a.num b.num 0 (AM.bits ⟨t.code, 0, rmode.code, sat, 0⟩))
  | .fsqrt g t rmode sat d a => some (mk 0x89 g a.isSca false false d a.num 0 0 (AM.bits ⟨t.code, 0, rmode.code, sat, 0⟩))
  | .frcp g d a => some (mk 0x8A g a.isSca false false d a.num 0 0 (AM.bits ⟨(FTy.code .f32), 0, 0, false, 0⟩))
  | .frsq g d a => some (mk 0x8B g a.isSca false false d a.num 0 0 (AM.bits ⟨(FTy.code .f32), 0, 0, false, 0⟩))
  | .fex2 g d a => some (mk 0x8C g a.isSca false false d a.num 0 0 (AM.bits ⟨(FTy.code .f32), 0, 0, false, 0⟩))
  | .flg2 g d a => some (mk 0x8D g a.isSca false false d a.num 0 0 (AM.bits ⟨(FTy.code .f32), 0, 0, false, 0⟩))
  | .frred g d a q => some (mk 0x8E g a.isSca false false d a.num q 0 (AM.bits ⟨(FTy.code .f32), 0, 0, false, 0⟩))
  | .fsin g d a => some (mk 0x8F g a.isSca false false d a.num 0 0 (AM.bits ⟨(FTy.code .f32), 0, 0, false, 0⟩))
  | .fcos g d a => some (mk 0x90 g a.isSca false false d a.num 0 0 (AM.bits ⟨(FTy.code .f32), 0, 0, false, 0⟩))
  | .fint g t rmode d a => some (mk 0x91 g a.isSca false false d a.num 0 0 (AM.bits ⟨t.code, 0, rmode.code, false, 0⟩))
  | .fcvt g t t2 rmode sat d a => some (mk 0x92 g a.isSca false false d a.num 0 0 (AM.bits ⟨t.code, t2.code, rmode.code, sat, 0⟩))
  | .f2i g t t2 rmode d a => some (mk 0x93 g a.isSca false false d a.num 0 0 (AM.bits ⟨t.code, t2.code, rmode.code, false, 0⟩))
  | .i2f g t t2 rmode sat d a => some (mk 0x94 g a.isSca false false d a.num 0 0 (AM.bits ⟨t.code, t2.code, rmode.code, sat, 0⟩))
  | .fpack g t rmode sat d a b => some (mk 0x95 g a.isSca b.isSca false d a.num b.num 0 (AM.bits ⟨t.code, (FTy.code .f32), rmode.code, sat, 0⟩))
  | .funpack g t2 d a => some (mk 0x96 g a.isSca false false d a.num 0 0 (AM.bits ⟨(FTy.code .f32), t2.code, 0, false, 0⟩))
  | .fldexp g t rmode sat d a b => some (mk 0x97 g a.isSca b.isSca false d a.num b.num 0 (AM.bits ⟨t.code, 0, rmode.code, sat, 0⟩))
  | .ffrexp g t d a e => some (mk 0x98 g a.isSca false false d a.num e 0 (AM.bits ⟨t.code, 0, 0, false, 0⟩))
  | .fdot2 g t t2 rmode sat d a b c => some (mk 0x99 g a.isSca b.isSca c.isSca d a.num b.num c.num (AM.bits ⟨t.code, t2.code, rmode.code, sat, 0⟩))
  | .fdot4 g t t2 rmode sat d a b c => some (mk 0x9A g a.isSca b.isSca c.isSca d a.num b.num c.num (AM.bits ⟨t.code, t2.code, rmode.code, sat, 0⟩))
  | .shfl g t mo d a b => some (mk 0xB0 g a.isSca b.isSca false d a.num b.num 0 (AM.bits ⟨t.code, mo.code, 0, false, 0⟩))
  | .pswap g t d a b => some (mk 0xB1 g a.isSca b.isSca false d a.num b.num 0 (AM.bits ⟨t.code, 0, 0, false, 0⟩))
  | .vote g mo d a => some (mk 0xB2 g false false false d a 0 0 (AM.bits ⟨0, mo.code, 0, false, 0⟩))
  | .ballot g d a => some (mk 0xB3 g false false false d a 0 0 0)
  | .lscan g op t ex d a => some (mk 0xB4 g a.isSca false false d a.num 0 0 (AM.bits ⟨t.code, op.code5, (if ex then 1 else 0), false, 0⟩))
  | .lred g op t d a => some (mk 0xB5 g a.isSca false false d a.num 0 0 (AM.bits ⟨t.code, op.code5, 0, false, 0⟩))
  | .matchl g t d a => some (mk 0xB6 g a.isSca false false d a.num 0 0 (AM.bits ⟨t.code, 0, 0, false, 0⟩))
  | .regroup g d a => some (mk 0xB7 g true false false d a 0 0 0)
  | .ld g sz ap pol d ma => some (mkM 0xC0 g d ma (MM.bits ⟨sz.code, ma.scale, ap.code, pol.code⟩))
  | .st g sz ap pol d ma => some (mkM 0xC1 g d ma (MM.bits ⟨sz.code, ma.scale, ap.code, pol.code⟩))
  | .ldu g sz ap pol d ma => some (mkM 0xC2 g d ma (MM.bits ⟨sz.code, ma.scale, ap.code, pol.code⟩))
  | .stu g sz ap pol d ma => some (mkM 0xC3 g d ma (MM.bits ⟨sz.code, ma.scale, ap.code, pol.code⟩))
  | .lds g sz d ma => some (mkM 0xC4 g d ma (MM.bits ⟨sz.code, ma.scale, 0, 0⟩))
  | .sts g sz d ma => some (mkM 0xC5 g d ma (MM.bits ⟨sz.code, ma.scale, 0, 0⟩))
  | .prf g pol ma => some (mkM 0xC6 g 0 ma (MM.bits ⟨0, ma.scale, 0, pol.code⟩))
  | .atom g x ap d a b c => some (mk 0xC7 g a.isSca b.isSca c.isSca d a.num b.num c.num (SM.bits ⟨x.ty.code, x.op.code, x.scope.code, x.order.code, x.post, ap == .ms⟩))
  | .atomu g x ap d a b c => some (mk 0xC8 g false false false d a b c (SM.bits ⟨x.ty.code, x.op.code, x.scope.code, x.order.code, x.post, ap == .ms⟩))
  | .atoms g x d a b c => some (mk 0xC9 g a.isSca b.isSca c.isSca d a.num b.num c.num (SM.bits ⟨x.ty.code, x.op.code, x.scope.code, x.order.code, x.post, false⟩))
  | .fence g sc od => some (mk 0xCA g false false false 0 0 0 0 (SM.bits ⟨0, 0, sc.code, od.code, false, false⟩))
  | .wait g p a => some (mk 0xCB g false false false 0 a 0 0 (SM.bits ⟨0, p.code, 0, 0, false, false⟩))
  | .commit g p => some (mk 0xCC g false false false 0 0 0 0 (SM.bits ⟨0, p.code, 0, 0, false, false⟩))
  | .cln g ma => some (mkM 0xCD g 0 ma (MM.bits ⟨0, ma.scale, 0, 0⟩))
  | .inv g ma => some (mkM 0xCE g 0 ma (MM.bits ⟨0, ma.scale, 0, 0⟩))
  | .clninv g ma => some (mkM 0xCF g 0 ma (MM.bits ⟨0, ma.scale, 0, 0⟩))
  | .rdenter g => some (mk 0xD0 g false false false 0 0 0 0 0)
  | .rdexit g => some (mk 0xD1 g false false false 0 0 0 0 0)
  | .srsv g wd d a => some (mk 0xD8 g false false false d a 0 0 (EM.bits ⟨(if wd then FTy.code .f64 else FTy.code .f32), 0, 0, false, false, 0⟩))
  | .srel g => some (mk 0xD9 g false false false 0 0 0 0 0)
  | .bload g a b => some (mk 0xDA g false false false 0 a b 0 0)
  | .cbt g d a => some (mk 0xDB g false false false d a 0 0 0)
  | .mma g chk d a b tok => some (mk 0xDC g false false false d a b (tok.getD 0) (EM.bits ⟨0, 0, 0, chk, tok.isSome, 0⟩))
  | .szero g d tok => some (mk 0xDD g false false false d 0 0 (tok.getD 0) (EM.bits ⟨0, 0, 0, false, tok.isSome, 0⟩))
  | .srd g d a b tok => some (mk 0xDE g false false false d a b (tok.getD 0) (EM.bits ⟨0, 0, 0, false, tok.isSome, 0⟩))
  | .swr g d a b tok => some (mk 0xDF g false false false d a b (tok.getD 0) (EM.bits ⟨0, 0, 0, false, tok.isSome, 0⟩))
  | .sst g d a b tok => some (mk 0xE0 g false false false d a b (tok.getD 0) (EM.bits ⟨0, 0, 0, false, tok.isSome, 0⟩))
  | .cpy g d a b tok => some (mk 0xE1 g false false false d a b (tok.getD 0) (EM.bits ⟨0, 0, 0, false, tok.isSome, 0⟩))
  | .gath g t d a b tok => some (mk 0xE2 g false false false d a b (tok.getD 0) (EM.bits ⟨t.code, 0, 0, false, tok.isSome, 0⟩))
  | .scat g t d a b tok => some (mk 0xE3 g false false false d a b (tok.getD 0) (EM.bits ⟨t.code, 0, 0, false, tok.isSome, 0⟩))
  | .fill g wd d a b tok => some (mk 0xE4 g false false false d a b (tok.getD 0) (EM.bits ⟨(if wd then 1 else 0), 0, 0, false, tok.isSome, 0⟩))
  | .tokset g a => some (mk 0xE5 g false false false 0 a 0 0 0)
  | .pim g op d a b tok => some (mk 0xE6 g false false false d a b (tok.getD 0) (EM.bits ⟨(FTy.code .bf16), op.code, 0, false, tok.isSome, 0⟩))
  | .rowcp g d a b tok => some (mk 0xE7 g false false false d a b (tok.getD 0) (EM.bits ⟨0, 0, 0, false, tok.isSome, 0⟩))
  | .rowz g d b tok => some (mk 0xE8 g false false false d 0 b (tok.getD 0) (EM.bits ⟨0, 0, 0, false, tok.isSome, 0⟩))
  | .cgrp g sc d a => some (mk 0xE9 g false false false d a 0 0 (EM.bits ⟨0, 0, sc.code, false, false, 0⟩))
  | .cstart g t a b => some (mk 0xEA g false false false 0 a b 0 (EM.bits ⟨t.code, 0, 0, false, false, 0⟩))
  | .cwait g a => some (mk 0xEB g false false false 0 a 0 0 0)
  | .red g op t sc a b => some (mk 0xEC g false false false 0 a b 0 (EM.bits ⟨t.code, op.code, sc.code, false, false, 0⟩))
  | .emit g a b => some (mk 0xED g true false false 0 a b 0 0)
  | .trap g imm => some (mkImm 0xF0 g 0 0 imm)
  | .resume g d a b => some (mk 0xF1 g false false false d a b 0 0)
  | .csrr g d a => some (mk 0xF2 g false false false d a 0 0 0)
  | .csrw g a b => some (mk 0xF3 g false false false 0 a b 0 0)
  | .bar g l => some (mk 0xF4 g false false false 0 0 0 0 (SM.bits ⟨0, l.code, 0, 0, false, false⟩))
  | .gwait g sc => some (mk 0xF5 g false false false 0 0 0 0 (SM.bits ⟨0, 0, sc.code, 0, false, false⟩))
  | .dfree g a b => some (mk 0xF6 g false false false 0 a b 0 0)
  | .brk g imm => some (mkImm 0xF7 g 0 0 imm)
  | .dbg g d a b c => some (mk 0xF8 g false false false d a b c 0)
  | .halt g d a => some (mk 0xF9 g false false false d a 0 0 0)
  | .sleep g imm => some (mkImm 0xFA g 0 0 imm)
  | _ => none
/-- Opcodes whose guard names q0 to q7 (05 R75). -/
def opcodeUniform (op : Nat) : Bool :=
  (0x01 ≤ op && op ≤ 0x1A) || op == 0xC2 || op == 0xC3 || op == 0xC8 || (0xCA ≤ op && op ≤ 0xCC) ||
  (0xD0 ≤ op && op ≤ 0xEC) || (0xF1 ≤ op && op ≤ 0xF6) || (0xF8 ≤ op && op ≤ 0xFA)

/-- A uniform guard above q7, which check 5 refuses before check 6 (03 R46, R52). -/
def Raw.uniformGuardBad (r : Raw) : Bool := opcodeUniform r.op.toNat && 8 ≤ r.gr.toNat

/-- The zero fields of an atomic, whatever its type: `c` without `.cas`, `d` with `.post` (05 R82, 03 R52). -/
def Raw.atomFieldBad (r : Raw) : Bool :=
  let lane := r.op == 0xC7 || r.op == 0xC9
  (lane || r.op == 0xC8) && ((r.sm.op != 7 && (r.c != 0 || (lane && r.uc))) || (r.sm.post && r.d != 0))

/-- Checks 3, 5 and 6 of R52 on the fields of a word, the part of check 6 that needs the group apart. -/
def decodeRaw (r : Raw) : Except DecodeErr Instr :=
  match opcodeUses r.op.toNat with
  | none => .error (.unassigned r.op)
  | some uses =>
    if r.unusedZero uses then
      match buildInstr r with
      | none => if r.uniformGuardBad || r.atomFieldBad then .error .reservedField else .error .illegal
      | some i => if !i.reservedOk then .error .reservedField else if i.legalOk then .ok i else .error .illegal
    else .error .reservedField

/-- The instruction that a 64-bit word holds, or the check that rejects it. -/
def decode (w : Word64) : Except DecodeErr Instr := decodeRaw (Raw.ofWord w)

/-- The instruction's word; `none` for the steps of the hardware. -/
def encode (i : Instr) : Option Word64 := (encodeRaw i).map Raw.toWord

/-- Whether the opcode belongs to monitor code (05 R75): `resume`, `csrr`, `csrw`, `dbg`, `halt`. -/
def opcodeMonitor (op : Nat) : Bool := op == 0xF1 || op == 0xF2 || op == 0xF3 || op == 0xF8 || op == 0xF9

/-- Check 4 of R52: the word needs monitor privilege; `sleep` with wake bit [20] or [21] does too (14 R264). -/
def needsMonitor (w : Word64) : Bool :=
  let r := Raw.ofWord w
  opcodeMonitor r.op.toNat || (r.op == 0xFA && (w.getLsbD 20 || w.getLsbD 21))

/-- A clause header (03 R37). -/
structure Header where
  len : Nat
  wait : BitVec 12
  fla : Nat
  flav : Bool
  flb : Nat
  flbv : Bool
  region : Bool
  yield : Bool
  attach : BitVec 30
  top : BitVec 6
deriving DecidableEq, Repr

def Header.ofWord (w : Word64) : Header where
  len := (w.extractLsb' 0 4).toNat
  wait := w.extractLsb' 4 12
  fla := (w.extractLsb' 16 4).toNat
  flav := w.getLsbD 20
  flb := (w.extractLsb' 21 4).toNat
  flbv := w.getLsbD 25
  region := w.getLsbD 26
  yield := w.getLsbD 27
  attach := w.extractLsb' 28 30
  top := w.extractLsb' 58 6

/-- The ATTACH code of slot k, from 1 to 15 (03 R37). -/
def Header.attachOf (h : Header) (k : Nat) : Nat := (h.attach.extractLsb' (2 * (k - 1)) 2).toNat

/-- The flag that slot k is attached to (03 R38). -/
def Header.flagOf (h : Header) (k : Nat) : Option Nat :=
  match h.attachOf k with
  | 1 => some h.fla
  | 2 => some h.flb
  | _ => none

/-- An ATTACH code that check 2 of R52 refuses in slot k. -/
def Header.attachBad (h : Header) (k : Nat) : Bool :=
  match h.attachOf k with
  | 0 => false
  | 1 => !h.flav || h.len < k
  | 2 => !h.flbv || h.len < k
  | _ => true

/-- Checks 1 and 2 of R52: the cause a header raises, if any. -/
def Header.cause (h : Header) : Option Nat :=
  if h.len = 0 then some 0x01
  else if h.top ≠ 0 ∨ (h.flav = true ∧ 11 < h.fla) ∨ (h.flav = false ∧ h.fla ≠ 0) ∨ (h.flbv = true ∧ 11 < h.flb) ∨
    (h.flbv = false ∧ h.flb ≠ 0) ∨ (h.flav = true ∧ h.flbv = true ∧ h.fla = h.flb) ∨
    (List.range 15).any (fun k => h.attachBad (k + 1)) = true then some 0x02
  else none

/-- The decoder's answer for a word numbered as spec/opcode_table.json numbers bits. The opcode table gives its rows no
bits; a word of this machine has 64, laid out little-endian with the lowest bit first, so the number is the word. -/
def decodeTableWord (_nbits w : Nat) : Option Instr := (decode (BitVec.ofNat 64 w)).toOption

end Sys2Proof
end

