-- ==== Sys2Proof/Config.lean ====
section
/-! DEFINITION. What the machine leaves to its surroundings or leaves open: the order and the time of its steps, free
values, the approximated functions and the functions of the package controller. Every one is opaque: nothing can be proved of
its value. -/

namespace Sys2Proof

/-- What moves next (the model's own; log entry 1): a split-table entry of the group in a slot of a core issues, an
event happens, or the oldest status of a system instruction of a group is written (03 R42). -/
inductive Turn where
  | issue (core slot entry : Nat)
  | event (i : Instr)
  | status (core slot : Nat)
deriving DecidableEq, Repr, Inhabited

/-- What an SRAM error is in (18 R340): a sector of the L2 by domain address div 32; a register by group, scalar or not, and number; a
scratchpad sector by team and address div 32; bench storage by group, kind (0 slate, 1 bed, 2 codebook slot), relative index, row and
element of the row; a tag of the DRAM cache layer by channel, set and way; a line that holds nothing in use. -/
inductive SramAt where
  | l2 (sec : Nat)
  | reg (key : Nat) (scalar : Bool) (n : Nat)
  | sett (key sec : Nat)
  | bench (key kind index row elem : Nat)
  | tag (chan set way : Nat)
  | spare (die : Nat)
deriving DecidableEq, Repr

/-- Bits of one 64-bit word of an SRAM line gone bad (18 R337): where, the line, the word in it, and how many bits. -/
structure SramHit where
  place : SramAt
  line : Nat
  word : Nat
  bits : Nat
deriving DecidableEq, Repr

/-- An entry of the capability list (01 R16): its ID less 1, its VER less 1, its words after the header, and the bytes div 8 that lie free
before the next entry. Every value of these fields is an entry that R16 allows. -/
structure CapEntry where
  id : Fin 65535
  ver : Fin 255
  words : List Word64
  gap : Nat
deriving DecidableEq, Repr, Inhabited

/-- What the surroundings do after a step (log entry 6): L1 lines and translations that are replaced (12 R204, R209), bits that go bad in
the stacks and the SRAMs (18 R337, R342), sensors, and what other packages do. -/
structure Surroundings where
  /-- L1 lines replaced, by core and line address. -/
  lines : List (Nat × Nat)
  /-- Cached translations replaced, by core and position. -/
  tlb : List (Nat × Nat)
  /-- Symbols of a sector's codeword in the stacks gone bad, by local address div 32 and their number (18 R342). -/
  media : List (Nat × Nat)
  /-- Granules that a party outside the device has changed or moved, by local address div 128: their tags do not match (18 R341). -/
  tampered : List Nat
  /-- Bits of the SRAMs gone bad (18 R337). -/
  sram : List SramHit
  /-- SRAM lines that the step has written, by die and line (18 R338). -/
  encoded : List (Nat × Nat)
  /-- Granules whose directory entries are replaced (24 R423). -/
  dirs : List Nat
  /-- Accesses of other packages' parties to words of the domain: package, domain address div 4, kind (0 read, 1 write, 2 relaxed atomic,
  3 releasing atomic, else `red`), and whether it was a load in a read section (13 R235). -/
  far : List (Nat × Nat × Nat × Bool)
  /-- Packages whose parties' regions end toward this package (13 R231). -/
  farCuts : List Nat
  /-- Stack sensors as they read now (18 R346). -/
  temps : List (Nat × BitVec 8)
  /-- The lowest and the highest junction sensor of a die as they read now (18 R338, 23 R411). -/
  junctions : List (Nat × BitVec 8 × BitVec 8)
  /-- Key ids that the firmware gives to 2 MiB blocks of the package's memory: block, key id (18 R341, 23 R410). -/
  keys : List (Nat × Nat)
deriving DecidableEq, Repr, Inhabited

/-- What moves at a tick (log entry 1). -/
opaque Config.schedule : Nat → Turn
/-- Nanoseconds that a step takes (log entry 1). -/
opaque Config.elapsed : Nat → Nat
/-- Clock cycles that a step takes (log entry 1). -/
opaque Config.cycles : Nat → Nat
/-- What the surroundings do after a step (log entry 6). -/
opaque Config.surroundings : Nat → Surroundings
/-- Free 32-bit values, by the free-value counter (log entry 4). -/
opaque Config.freeWord : Nat → Word32
/-- Free 64-bit values, by the free-value counter (log entry 4). -/
opaque Config.freeWord64 : Nat → Word64
/-- Bytes of memory whose contents a change has left unspecified, by the change's name and the address (log entry 4). -/
opaque Config.freeByte : Nat → Nat → Byte
/-- Free choices, by the free-value counter (log entry 4). -/
opaque Config.freeBool : Nat → Bool
/-- Free numbers, by the free-value counter (log entry 4). -/
opaque Config.freeNat : Nat → Nat
/-- The approximated functions of 08 R158 and R159: each a fixed function of its operand (log entry 7). -/
opaque Config.rsqrtApprox : Word32 → Word32
opaque Config.exp2Approx : Word32 → Word32
opaque Config.log2Approx : Word32 → Word32
opaque Config.sinApprox : Word32 → Word32
opaque Config.cosApprox : Word32 → Word32
/-- The capability list of 01 R16, its first entry and the others: fixed at manufacture and not given (log entry 8). -/
opaque Config.capFirst : CapEntry
opaque Config.capRest : List CapEntry
/-- The set of a slice in which a line lies, by its domain address div 256, modulo 768 (18 R330; log entry 87). -/
opaque Config.l2Set : Nat → Nat
/-- The SRAM lines of a die beside those of its L2 slices (18 R337; log entry 88). -/
opaque Config.sramLines : Nat
/-- Where the split tables stand in control space, as a number of words past the listed blocks (07 R116; log entry 89). -/
opaque Config.splitTables : Nat
/-- What a context's allocation sets aside for its teams' scratchpads: the 16 KiB pieces for sett maps and the 2 KiB backing blocks, by virtual
address div 2^14 and div 2^11, in the order in which launches take them (12 R213; log entry 97). -/
opaque Config.mapSpace : Nat → List Nat
opaque Config.backing : Nat → List Nat
/-- The partition that a queue pair of the host belongs to, none for the whole package (23 R403; log entry 10). -/
opaque Config.queuePairPart : Nat → Option Nat
/-- The firmware's trusted-key table, by index: an ECDSA P-384 and an LMS public key (23 R406; log entry 10). -/
opaque Config.trustedKeys : Nat → List Byte × List Byte
/-- Whether a signature of a digest verifies under a public key (23 R407; log entry 10). -/
opaque Config.ecdsaOk : List Byte → List Byte → List Byte → Bool
opaque Config.lmsOk : List Byte → List Byte → List Byte → Bool
/-- Signatures under the package identity key (23 R409; log entry 10). -/
opaque Config.identityEcdsa : List Byte → List Byte
opaque Config.identityLms : List Byte → List Byte
/-- The transport key of a tenant, by ECDH between the package identity key and the tenant's public key (23 R410; log entry 10). -/
opaque Config.transportKey : List Byte → List Byte
/-- The firmware measurement of the package (23 R409; log entry 10). -/
opaque Config.firmwareMeasurement : List Byte

end Sys2Proof
end

