-- ==== Sys2Proof/Machine/Table.lean ====
section
/-! DEFINITION. Sparse tables in one canonical form: pairs of a key and a value, keys strictly rising. A table with a
default lists no entry that equals its default, so equal contents are equal data. -/

namespace Sys2Proof.Machine

/-- A table: keys strictly rising. -/
abbrev Tbl (β : Type) := List (Nat × β)

/-- The entry at a key, if there is one. -/
def Tbl.find? {β : Type} : Tbl β → Nat → Option β
  | [], _ => none
  | (k, v) :: t, a => if k = a then some v else Tbl.find? t a

/-- The value at a key, or the default. -/
def Tbl.getD {β : Type} (t : Tbl β) (a : Nat) (d : β) : β :=
  match Tbl.find? t a with
  | some v => v
  | none => d

/-- The table with an entry put at its key. -/
def Tbl.put {β : Type} : Tbl β → Nat → β → Tbl β
  | [], a, v => [(a, v)]
  | (k, w) :: t, a, v => if a < k then (a, v) :: (k, w) :: t else if a = k then (a, v) :: t else (k, w) :: Tbl.put t a v

/-- The table without a key: every entry at it goes. -/
def Tbl.del {β : Type} : Tbl β → Nat → Tbl β
  | [], _ => []
  | (k, w) :: t, a => if a = k then Tbl.del t a else (k, w) :: Tbl.del t a

/-- The table with a value set; a value equal to the default leaves no entry. -/
def Tbl.setD {β : Type} [DecidableEq β] (t : Tbl β) (a : Nat) (v d : β) : Tbl β :=
  if v = d then Tbl.del t a else Tbl.put t a v

/-- Keys strictly rising, all above `lo`. -/
def Tbl.risingFrom {β : Type} : Nat → Tbl β → Bool
  | _, [] => true
  | lo, (k, _) :: t => lo ≤ k && Tbl.risingFrom (k + 1) t

/-- The canonical form of a table. -/
def Tbl.rising {β : Type} (t : Tbl β) : Bool := Tbl.risingFrom 0 t

/-- The canonical form of a table with a default. -/
def Tbl.wfD {β : Type} [DecidableEq β] (t : Tbl β) (d : β) : Bool := Tbl.rising t && t.all fun p => p.2 != d

/-- The keys of a table. -/
def Tbl.keys {β : Type} (t : Tbl β) : List Nat := t.map (·.1)

/-- The values of a table. -/
def Tbl.vals {β : Type} (t : Tbl β) : List β := t.map (·.2)

/-- Every value of a table changed by a function. -/
def Tbl.mapV {β : Type} (f : β → β) (t : Tbl β) : Tbl β := t.map fun p => (p.1, f p.2)

/-- The entry at a key changed by a function, if there is one. -/
def Tbl.upd {β : Type} (t : Tbl β) (a : Nat) (f : β → β) : Tbl β :=
  t.map fun p => if p.1 = a then (p.1, f p.2) else p

end Sys2Proof.Machine
end

