-- ==== Sys2Proof/Machine/State.lean ====
section
/-! DEFINITION. The state of one package as plain data, its state after reset, and the reasons a step can stop. -/

namespace Sys2Proof.Machine

/-- Why the machine stops. No meaning of this model stops it: a fault of the hardware is a next state (14 R253). -/
inductive Fault where
  /-- Never raised; kept so that the type is inhabited. Safe: a claim about it holds of nothing. -/
  | none
deriving DecidableEq, Repr

/-- Why a step has no meaning. -/
inductive Refusal where
  /-- Raised by an arm of the dispatch whose instruction has no meaning yet. Safe: nothing can be claimed of what
  would follow. -/
  | notModelled (mnemonic : String)
deriving DecidableEq, Repr

/-- A program position: the address of a clause and a slot in it (03 R53). -/
structure Pos where
  caddr : Nat
  slot : Nat
deriving DecidableEq, Repr

/-- The states of a split-table entry (07 R117). -/
inductive EntrySt where
  | free | running | arrived | regang | stopped | regroup
deriving DecidableEq, Repr

/-- An entry of the split table (07 R116). Addresses are in bytes. `former` is the state that a STOPPED entry goes back
to (14 R260). -/
structure Entry where
  st : EntrySt
  pos : Pos
  mask : BitVec 32
  keeper : Nat
  level : Nat
  depth : Nat
  join : Bool
  reconv : Nat
  outer : Nat
  fmt : Word64
  saved : Word64
  former : EntrySt
deriving DecidableEq, Repr

/-- A FREE entry: every field at its reset value (07 R116). -/
def Entry.freed : Entry := ⟨.free, ⟨0, 0⟩, 0, 0, 0, 0, false, 0, 0, 0, 0, .free⟩

/-- A register write that waits for its instruction's completion (02 R25). -/
inductive RegWrite where
  | vec (lane reg : Nat) (x : Word32)
  | sca (reg : Nat) (x : Word32)
deriving DecidableEq, Repr

/-- What a fault reports of itself (14 R256). `lane` is 255 when no lane is named. -/
structure FaultInfo where
  cause : Nat
  lane : Nat
  synd : Nat
  addr0 : Nat
  addr1 : Nat
deriving DecidableEq, Repr

/-- A fault record, before or after it is written (14 R256). `cmd` is the suspended command of a resumable fault,
`pathQ` the path. -/
structure Rec where
  info : FaultInfo
  resumable : Bool
  regcnt : Word32
  faultPos : Pos
  restart : Pos
  /-- The position after the instruction, where action SKIP goes on (14 R260). -/
  after : Pos
  /-- The record is of class S (14 R253). -/
  stop : Bool
  /-- The fault was found after issue (12 R210): its fragment had issued beyond it (14 R260). -/
  late : Bool
  mask : BitVec 32
  entry : Nat
  progress : Nat
  cmd : Option Nat
  /-- When the stop was taken: records are written in that order (14 R255). -/
  tick : Nat
deriving DecidableEq, Repr

/-- Where the bytes of an access lie. -/
inductive Space where
  | cached | ms | scratch
deriving DecidableEq, Repr

/-- What an access does. Values are little-endian numbers (01 R7). -/
inductive AccOp where
  /-- A load of `size` bytes to a lane's or, at lane 255, a scalar register, with its extension (12 R219). -/
  | load (sz : MemSize) (lane reg : Nat)
  /-- A store of the low bytes of a value (12 R220). -/
  | store (x : Nat)
  /-- An atomic (12 R222): operation, type, operands; the old value goes to a register unless `post`. -/
  | atomic (op : AtomOp) (ty : RedTy) (order : Order) (b c : Nat) (post : Bool) (lane reg : Nat)
  /-- `red` performed as an atomic (25 R448). -/
  | fold (op : RedOp) (ty : RedTy) (x : Nat)
  /-- Maintenance of a 256-byte block (12 R224): clean, drop. -/
  | maint (clean drop : Bool)
deriving DecidableEq, Repr

/-- One access of a lane: space, address as the program names it, domain physical address, bytes, operation, the name under which
its requests to a remote home go, whether it was made in a read section, whether a range lock met it at its issue (16 R314), whether
the lanes of its instruction cover its whole sector (18 R344), its cache policy. -/
structure Access where
  space : Space
  lane : Nat
  va : Nat
  pa : Nat
  size : Nat
  op : AccOp
  tag : Nat
  section_ : Bool
  locked : Bool
  whole : Bool
  policy : Policy
deriving DecidableEq, Repr

/-- A memory operation in flight (02 R25, R26): its path, held flag, accesses not yet performed, register writes to make at
completion, and where it stands for a fault found after issue (12 R210). `posted` marks a plain store or `.post`. -/
structure PendOp where
  path : Path
  flag : Option Nat
  todo : List Access
  writes : List RegWrite
  pos : Pos
  after : Pos
  /-- Its place in the order of the group's operations. -/
  born : Nat
  entry : Nat
  mask : BitVec 32
  isLoad : Bool
  posted : Bool
  maint : Bool
  fault : Option FaultInfo
  /-- Checks 3 to 5 of 12 R210 have been passed by every lane. -/
  checked : Bool
  /-- The boundary that it is, by its level (13 R230, R231). -/
  bound : Option Nat
  /-- The write of XLAT_INV that it is (12 R209). -/
  awaits : Option Word64
  /-- A shadow's load: its writes come from the leader's load queue (14 R270). -/
  fromLeader : Bool
deriving DecidableEq, Repr

/-- A batch of engine commands of a path (12 R226): commands not yet complete, whether it is closed, held flags. -/
structure Batch where
  path : Path
  cmds : List Nat
  closed : Bool
deriving DecidableEq, Repr

/-- A status that `resume`, `dbg` or `halt` has still to write (03 R42): the flag it holds, the scalar register, the value. -/
structure StatusOp where
  flag : Option Nat
  reg : Nat
  value : Word32
deriving DecidableEq, Repr

/-- What a group is blocked on (21 R379). -/
inductive Block where
  | none
  | wait (path : Path) (thr : Nat)
  | bar (level : BarLevel) (gen : Nat)
  /-- `gwait`: the scope and the count its grace period reaches (22 R391). -/
  | gwait (scope : Scope) (target : Nat)
  /-- `cstart` that waits for the announcements of the instance before its own (25 R443), since a time. -/
  | cstart (handle cmd since : Nat)
  | cwait (handle since : Nat)
  | sleep (imm : BitVec 32) (deadline : Option Nat)
  /-- A stall at issue: what for and which (21 R379, WKIND 10, or 6 for `dfree`, 5 for `cstart`). The instruction issues
  when it can. -/
  | stall (kind obj : Nat)
deriving DecidableEq, Repr

/-- Activation states (11 R190). -/
inductive ActSt where
  | parked | active | forced | ending
deriving DecidableEq, Repr

/-- The escapement's fields of a group (11 R190 to R198). `since` is the cycle count at which it was parked, or its parked
time when it is saved; `aged` is 0, 1 aged or 2 overdue; `byAge` the cycle count at which the ageing rule activated it. -/
structure Act where
  st : ActSt
  sole : Bool
  since : Nat
  aged : Nat
  byAge : Option Nat
  stamp : Nat
deriving DecidableEq, Repr

/-- The run state of DBG_STAT (14 R265). -/
inductive Run where
  | running | faulted | debugger | halted
deriving DecidableEq, Repr

/-- The debug registers of a group (14 R265). `pass` lists the positions whose comparator an entry's next issue ignores
(14 R266), `stepping` the entry that is allowed one instruction and whether that has issued and blocked (14 R267). -/
structure Dbg where
  nonstop : Bool
  stepEnt : Nat
  bp : List Word64
  lanes : BitVec 32
  run : Run
  cause : Nat
  err : Bool
  pass : List (Nat × Pos)
  stepping : Option (Nat × Bool)
  stopReq : Bool
deriving DecidableEq, Repr

def Dbg.launch : Dbg := ⟨false, 0, [0, 0, 0, 0], 0xFFFFFFFF, .running, 0, false, [], none, false⟩

/-- A binding of a collective handle (25 R438, R440). `seq` counts the instances started; `broken` is the abort's cause
and instance. -/
structure Binding where
  gid : Nat
  rank : Nat
  members : List Nat
  send : Nat
  recv : Nat
  len : Nat
  tmo : Nat
  seq : Nat
  broken : Option (Nat × Nat)
deriving DecidableEq, Repr

/-- A bed of a reservation (15 R274, R286): its format code, its rows by row × 64 + column as raw element bits, the elements with an
uncorrectable error (15 R296). -/
structure Bed where
  fmt : Option Nat
  cells : Tbl Nat
  bad : List Nat
deriving DecidableEq, Repr

/-- A bench reservation (15 R274), its resources by relative index. A pair of a .f64 reservation is one slate of 64-bit
elements, by row × 64 + column. Elements of slates and codebook slots with an uncorrectable error are listed with their slate or slot (15
R296). -/
structure Resv where
  wide : Bool
  nsl : Nat
  nbed : Nat
  ncb : Nat
  slates : Tbl (Tbl Nat)
  checked : List Nat
  badSlates : List (Nat × Nat)
  /-- The face of each bed (15 R275). -/
  faces : List Nat
  beds : Tbl Bed
  books : Tbl Nat
  badBooks : List (Nat × Nat)
deriving DecidableEq, Repr

/-- The identifiers of a group (02 R32). -/
structure Ids where
  grpid : Nat
  teamid : Nat
  cluid : Nat
  gridid : Nat
  queue : Nat
  teamSlot : Nat
  /-- The grid's place in its context's list. -/
  grid : Nat
  /-- The name of the group as a party (13 R229). -/
  uid : Nat
deriving DecidableEq, Repr

/-- The registers of a group (02 R19, R21): vector registers by lane × 256 + number, predicates by lane × 16 + number,
each with default zero; registers with an uncorrectable error (18 R340). -/
structure Regs where
  nlanes : Nat
  nvr : Nat
  v : Tbl Word32
  p : Tbl Bool
  s : Tbl Word32
  q : Tbl Bool
  orig : Tbl Word32
  badV : List Nat
  badS : List Nat
deriving DecidableEq, Repr

/-- What waits of a stopped group: the records not yet written, the records that no `resume` has served, and the fragments set back to
an instruction that faulted while a record waited, with its place in the order of issue (14 R255). -/
structure Stops where
  unwritten : List Rec
  unserved : List Rec
  back : Tbl Nat
deriving DecidableEq, Repr

/-- A group (02 R18 to R35). -/
structure Group where
  ids : Ids
  regs : Regs
  mon : Bool
  /-- Operations in flight, oldest first: they hold the completion flags and the gl, gs and sp counters (02 R24, R26). -/
  inflight : List PendOp
  /-- Statuses of system instructions not yet written, oldest first (03 R42). -/
  statuses : List StatusOp
  /-- Flags held by instructions of fixed latency, each with the cycle of its issue: the hold ends one cycle later (03 R41). -/
  holds : List (Nat × Nat)
  /-- Engine batches, oldest first: they are the cp, mx, nm and cl counters (02 R26, 12 R226). -/
  batches : List Batch
  ents : Tbl Entry
  fpstat : BitVec 5
  lease : Nat
  measured : Bool
  rdepth : Nat
  rtag : Bool
  region : Pos
  regcnt : Word32
  block : Block
  /-- The position of the instruction that the group is blocked in (17 R326, 21 R379). -/
  blockPos : Pos
  act : Act
  dbg : Dbg
  stops : Stops
  /-- `tokset` words not yet applied, each with the place in the order before which the operations it waits for were issued (16 R309). -/
  toksets : List (Word32 × Nat)
  /-- The leader's slot, of a shadow (14 R270). -/
  leader : Option Nat
  /-- The shadow's slot, of a leader, and the positions it has issued that the shadow has not (14 R270). -/
  shadow : Option Nat
  trace : List Pos
  /-- A restart has set the group back to its region entry, which does not count again (03 R43, 14 R252). -/
  again : Bool
  /-- Restarts without a rise of the region count (14 R271). -/
  restarts : Nat
  /-- Writes of the leader's completed loads that the shadow has not taken (14 R270). -/
  loadQueue : List (Path × List RegWrite)
  /-- TIME and FLAGS values that the leader has read and the shadow has not (06 R109). -/
  readQueue : List Nat
  binds : Tbl Binding
  resv : Option Resv
  /-- A posted store met a remote timeout: reported at the next boundary (24 R428). -/
  lateTimeout : Option FaultInfo
  /-- The rendezvous that a group in REGROUP waits for (07 R138): the partner's GRPID, the participating lanes, the status register and
  the fall-through address. -/
  meet : Option (Nat × BitVec 32 × Nat × Nat)
  /-- The records that a graph-node group was launched from: node, first sequence number, count (21 R375). -/
  records : Option (Nat × List Nat)
deriving DecidableEq, Repr

/-- The states of a sett (12 R214). -/
inductive SettSt where
  | unbacked | out | fill | res | dirty | spill
deriving DecidableEq, Repr

/-- A sett: state, bytes by offset with default zero, poisoned sectors, whether its spill has faulted and is not yet served
(12 R216), time of last use. -/
structure Sett where
  st : SettSt
  data : Tbl Byte
  poison : List Nat
  spillFault : Option FaultInfo
  /-- The spill's fault has been raised and waits for its `resume` (12 R216). -/
  raised : Bool
  /-- The fault of a fill, and the group slot whose access caused the fill (12 R215). -/
  fillFault : Option FaultInfo
  filler : Nat
  used : Nat
deriving DecidableEq, Repr

/-- A sett without a frame. -/
def Sett.absent : Sett := ⟨.out, [], [], none, false, none, 0, 0⟩

/-- A team (12 R213, 16 R301, R306): sett map, setts, tokens, team barrier. -/
structure Team where
  queue : Nat
  grid : Nat
  cluster : Nat
  teamid : Nat
  nsett : Nat
  map : Nat
  /-- The backing blocks that its launch has taken, by virtual address div 2048 (12 R213). -/
  backs : List Nat
  setts : Tbl Sett
  rdy : BitVec 8
  pend : Tbl Nat
  arr : BitVec 16
  memb : BitVec 16
  gen : Nat
deriving DecidableEq, Repr

/-- A range that a command has registered (16 R311). Bounds widened to sectors. -/
structure Lock where
  /-- Its place in the table. -/
  entry : Nat
  cmd : Nat
  lo : Nat
  hi : Nat
  sp : Bool
  wr : Bool
  team : Nat
  teamKey : Nat
  slot : Nat
  disp : Bool
  queue : Nat
deriving DecidableEq, Repr

/-- A placed cluster (16 R299, R300), with the core of its corner. -/
structure Cluster where
  origin : Nat
  queue : Nat
  grid : Nat
  cluid : Nat
  rows : Nat
  cols : Nat
  trans : Bool
  /-- The groups that have arrived at the cluster barrier, by TEAMID and GRPID (16 R300). -/
  arr : List (Nat × Nat)
  gen : Nat
  locks : List Lock
deriving DecidableEq, Repr

/-- A stream of a plan (25 R441). -/
structure Stream where
  off : Nat
  count : Nat
  route : List Nat
  ops : List Nat
deriving DecidableEq, Repr

/-- What an engine command does, with its operands as read at issue (15 R281, 16 R317, 19 R353, 25 R441). -/
inductive CmdOp where
  | srsv (wide : Bool) (req : Word32) (dst : Nat)
  | srel
  | bload (sp : Bool) (addr bed ksteps koff pitch : Nat)
  | cbt (sp : Bool) (addr slot : Nat)
  | mma (chk sp : Bool) (slate addr bed ksteps koff pitch : Nat)
  | szero (slate : Nat)
  | srd (sp : Bool) (slate addr pitch : Nat)
  | swr (sp : Bool) (slate addr pitch : Nat)
  | sst (sp : Bool) (slate addr pitch outf : Nat)
  | cpy (dsp ssp : Bool) (dst src rowLen rows dPitch sPitch : Nat)
  | gath (e : Nat) (dsp tsp isp : Bool) (dst tab idx count bound : Nat)
  | scat (e : Nat) (tsp ssp isp : Bool) (tab src idx count bound : Nat)
  | fill (e : Nat) (dsp : Bool) (dst value count : Nat)
  | pim (op : PimOp) (dst a b rows : Nat) (s : Word32)
  | rowcp (dst src rows : Nat)
  | rowz (dst rows : Nat)
  /-- `cgrp` with the status that its completion writes. -/
  | cgrp (dst : Nat) (status : Word32)
  | cstart (handle gid n rank : Nat) (ty : FTy) (streams : List Stream)
  | red (op : RedOp) (ty : RedTy) (scope : Scope) (addr pa x : Nat)
deriving DecidableEq, Repr

/-- An engine command in flight (15 R276, 16 R308, R321, 19 R358). -/
structure Cmd where
  id : Nat
  core : Nat
  slot : Nat
  queue : Nat
  path : Path
  op : CmdOp
  fmt : Word64
  rows : BitVec 32
  in0 : Option Nat
  in1 : Option Nat
  outTok : Option Nat
  flag : Option Nat
  disp : Bool
  suspended : Bool
  /-- The copies of the k-step in progress that a face has granted, and those that have been applied: 0, and 1 for the twin of `mma.chk` (15
  R277, R291). -/
  granted : List Nat
  ran : List Nat
  done : Bool
  progress : Nat
  /-- Bytes read for the part in progress, or, for `mma`, what the row buffers of its faces hold from that k-step on (15 R273). -/
  buf : List Byte
  pos : Pos
  after : Pos
  entry : Nat
  mask : BitVec 32
  /-- The issuing group's identifiers and privilege. -/
  ids : Ids
  mon : Bool
  /-- Cycle at which it was granted or began to wait for its face, or its next message is due. -/
  start : Nat
deriving DecidableEq, Repr

/-- A cached translation (12 R209): hardware slot, first page address, page bytes, and the leaf. -/
structure TlbEnt where
  ctx : Nat
  base : Nat
  size : Nat
  leaf : Word64
deriving DecidableEq, Repr

/-- A line of an L1 (12 R204): its address, the group slot that last accessed it (11 R196), which of its two 32-byte sectors are held. -/
structure L1Line where
  line : Nat
  slot : Nat
  secs : BitVec 2
deriving DecidableEq, Repr

/-- A core (11 R198, 12 R202, R209, R216). -/
structure CoreSt where
  escAge : Nat
  l1sz : Nat
  /-- The size of a change in progress (12 R203). -/
  resize : Option Nat
  fills : Nat
  tlb : List TlbEnt
  /-- Writes of XLAT_INV not yet complete, each with the place in the order before which the operations it waits for were issued
  (12 R209). -/
  inval : List (Word64 × Nat)
  /-- Victim tags, oldest first: line address and group slot (11 R196). -/
  tags : List (Nat × Nat)
  /-- L1 lines held, least recently used first (12 R204). -/
  lines : List L1Line
  /-- TTOK and TBAR of the team slots that hold no team, as its last team left them (16 R305, R310; 17 R328). -/
  past : Tbl (Nat × Nat)
deriving DecidableEq, Repr

def CoreSt.reset : CoreSt := ⟨0x100, 4, none, 0, [], [], [], [], []⟩

/-- A die's ECC and regulator registers (18 R340, 23 R412). -/
structure Die where
  cethr : Nat
  tlow : BitVec 8
  thigh : BitVec 8
  force : Nat
  target : Bool
  /-- The ECC mode of the SRAM lines that `odd` does not list (18 R337). -/
  mode : Bool
  /-- The SRAM lines that are in the mode other than `mode`. -/
  odd : List Nat
  /-- Bits in error by line × 8 + word, since the line was last written (18 R337). -/
  flips : Tbl Nat
  ce : Nat
  ue : Nat
  /-- Times of the corrected errors of the last millisecond (18 R338). -/
  ceTimes : List Nat
  /-- The lowest and the highest junction sensor as they read now, and when a condition for mode 1 last held (18 R338). -/
  jlow : BitVec 8
  jhigh : BitVec 8
  hotAt : Option Nat
  fmin : Nat
  fmax : Nat
  freq : Nat
  stretch : Nat
  /-- Stretches since the last regulator decision. -/
  recent : Nat
  power : Nat
  stopped : Bool
deriving DecidableEq, Repr

def Die.reset : Die :=
  { cethr := 0x40, tlow := 0xF6, thigh := 0x69, force := 0, target := false, mode := false, odd := [], flips := [], ce := 0, ue := 0,
    ceTimes := [], jlow := 0, jhigh := 0, hotAt := none, fmin := 48, fmax := 92, freq := 48, stretch := 0, recent := 0, power := 0,
    stopped := false }

/-- A stack's error and retraining registers (18 R344, R346). -/
structure Stack where
  lpa : Nat
  cls : Nat
  valid : Bool
  count : Nat
  ethr : Nat
  en : Bool
  chan : Nat
  active : Bool
  fail : Bool
  /-- Channels queued, in order. -/
  queue : List Nat
  temp : BitVec 8
  windows : Nat
  /-- Channels whose window failed, waiting to be queued again, each with the time of the failure (18 R345). -/
  requeue : List (Nat × Nat)
  /-- The temperature of each channel's last training (18 R345). -/
  trained : Tbl (BitVec 8)
  /-- Corrected errors of the last millisecond: channel and time (18 R343, R345). -/
  ceTimes : List (Nat × Nat)
  /-- When the last window ended (18 R345). -/
  closedAt : Option Nat
deriving DecidableEq, Repr

def Stack.reset : Stack :=
  { lpa := 0, cls := 0, valid := false, count := 0, ethr := 0x100, en := true, chan := 0, active := false, fail := false, queue := [],
    temp := 0, windows := 0, requeue := [], trained := [], ceTimes := [], closedAt := none }

/-- Holder states of a remote granule (24 R419), `home` for a line of this package. -/
inductive Holder where
  | m | o | e | s | c | home
deriving DecidableEq, Repr

/-- An L2 line (18 R330): its place in the order of use, and its `.keep` rank (12 R205). -/
structure L2Line where
  used : Nat
  keep : Bool
deriving DecidableEq, Repr

/-- A block of the DRAM cache layer (18 R335), by its channel, set and way: the tag, the sectors of 256 bytes it holds, those of them that
are dirty, its place in the order of use. -/
structure DramBlock where
  tag : Nat
  valid : BitVec 8
  dirty : BitVec 8
  used : Nat
deriving DecidableEq, Repr

/-- An L2 sector (18 R330): its bytes as a number, dirty mark, poison (18 R343), holder state of its granule. -/
structure L2Sec where
  data : Nat
  dirty : Bool
  poison : Nat
  holder : Holder
  /-- The combining operation of a granule in C (24 R419). -/
  cop : Nat
  /-- Bytes of a partial that hold a value, in C. -/
  valid : Nat
deriving DecidableEq, Repr

/-- The stacks (18 R331, R341, R342): bytes by local address, as the cache layer holds them dirty and else the data layer (18 R335); what an
unlisted one reads as is `Mem.unlisted` (log entry 2), a free value in the ranges `loose`, each an address, a length and a name (18 R334);
poison by sector; key id by 2 MiB block; symbols in error of a sector's codeword (18 R342); by granule the root key under which its sectors
were encrypted and its tag was formed (18 R341). -/
structure Mem where
  bytes : List Host.Cell
  loose : List (Nat × Nat × Nat)
  poison : Tbl Nat
  keyIds : Tbl Nat
  syms : Tbl Nat
  seals : Tbl (List Byte)
deriving DecidableEq, Repr

/-- A shape record (18 R333). -/
structure Shape where
  base : Nat
  units : Nat
  kind : Nat
  param : Nat
deriving DecidableEq, Repr

def Shape.off : Shape := ⟨0, 0, 0, 0⟩

/-- The die memory system of the package. -/
structure MemSys where
  mem : Mem
  l2 : Tbl L2Sec
  /-- Lines of the L2 by domain address div 256 (18 R330). -/
  lines : Tbl L2Line
  /-- The DRAM cache layer by (channel × 4096 + set) × 4 + way (18 R335). -/
  dram : Tbl DramBlock
  /-- Accesses counted for the orders of use. -/
  uses : Nat
  /-- Word 1 as last written, by record. -/
  param : Tbl Nat
  shapes : Tbl Shape
  shapeBusy : Bool
  shapeErr : Bool
  shapeErrRec : Nat
  /-- The old and the new ranges of the change in progress: first byte and bytes (18 R334). -/
  shapeRanges : List (Nat × Nat)
  /-- The keys derived for a key id from its root key, 32 bytes each: XTS data, XTS tweak, integrity (23 R410). -/
  memKeys : Tbl (List Byte)
deriving DecidableEq, Repr

/-- A grid (21 R368, R369). -/
structure Grid where
  gridid : Nat
  ridx : Nat
  chk : Bool
  mon : Bool
  after : Bool
  clusters : Nat
  entryPos : Nat
  done : Nat
  /-- The argument registers s0 to s11 (21 R370). -/
  args : List Word32
  lanes : Nat
  groups : Nat
  rows : Nat
  cols : Nat
  vregs : Nat
  lease : Nat
  measured : Bool
  setts : Nat
  /-- Clusters placed, groups that live, whether DONE has been written. -/
  placed : Nat
  live : Nat
  ended : Bool
  /-- Grid barrier (16 R305). -/
  arr : Nat
  gen : Nat
  /-- The node records of a graph-node grid: node and sequence numbers (21 R375). -/
  node : Option (Nat × List Nat)
  /-- Parties and places that come before its groups (21 R377). -/
  before : List (Nat × Nat)
deriving DecidableEq, Repr

/-- A pending cluster (21 R373, R374): its grid, target corner, orientation, reserved cores, time, aged. -/
structure Pending where
  grid : Nat
  origin : Nat
  trans : Bool
  reserved : List Nat
  since : Nat
  aged : Bool
deriving DecidableEq, Repr

/-- A graph node's counts (21 R375, R376, R377): the sequence count, records written and not launched, each with the time it was written
and the parties and places that come before a group launched from it, and records not yet freed. -/
structure NodeSt where
  seq : Nat
  pending : List (Nat × Nat × List (Nat × Nat))
  used : List Nat
deriving DecidableEq, Repr

def NodeSt.start : NodeSt := ⟨0, [], []⟩

/-- The states of a context (21 R371). -/
inductive CtxSt where
  | idle | ready | resident | saved | removed
deriving DecidableEq, Repr

/-- The queue descriptor as last read (21 R366). -/
structure QDesc where
  valid : Bool
  prio : Nat
  slice : Nat
  part : Nat
  monOk : Bool
  budget : Nat
  slmax : Nat
  vmax : Nat
  smax : Nat
  root : Nat
  logn : Nat
  ring : Nat
  widx : Nat
  evt : Nat
  snap : Nat
  nnodes : Nat
  graph : Nat
deriving DecidableEq, Repr

def QDesc.none : QDesc := ⟨false, 0, 0, 0, false, 0, 0, 0, 0, 0, 4, 0, 0, 0, 0, 0, 0⟩

/-- What the order of a deferred-free record rests on (22 R394): the issuing party and the place of its `dfree`, and the parties that were in a
read section, with the place at which each has left it; and the count of its scope at which it may post (22 R392). -/
structure DfSeen where
  party : Nat
  at_ : Nat
  inside : List Nat
  left_ : List (Nat × Nat)
  target : Nat
deriving DecidableEq, Repr

/-- The registers of a context's control block (14 R254, 22 R392, 24 R428). -/
structure CtxRegs where
  fqBase : Nat
  fqLogn : Nat
  fqEn : Bool
  handler : Nat
  head : Nat
  tail : Nat
  full : Bool
  rnode : Nat
  rvalid : Bool
  dscope : Nat
  gdom : Nat
  dfLogn : Nat
  dfRing : Nat
  dfHead : Nat
  dfTail : Nat
  rtmoUs : Nat
  rtmoLong : Bool
deriving DecidableEq, Repr

def CtxRegs.reset : CtxRegs := ⟨0, 4, false, 0, 0, 0, false, 0, false, 0, 0, 4, 0, 0, 0, 2000, false⟩

/-- A group in a saved image: the slots it held, itself (14 R268). -/
structure SavedGroup where
  core : Nat
  slot : Nat
  g : Group
deriving DecidableEq, Repr

/-- A context's saved image (14 R268, 15 R295, 21 R382). -/
structure Image where
  groups : List SavedGroup
  teams : List (Nat × Team)
  clusters : List (Nat × Cluster)
  cmds : List Cmd
deriving DecidableEq, Repr

/-- A context (21 R366, R371). -/
structure Ctx where
  desc : QDesc
  st : CtxSt
  /-- Its hardware slot while it is resident. -/
  hw : Option Nat
  ridx : Nat
  /-- The write index last seen. -/
  widx : Nat
  overflow : Bool
  regs : CtxRegs
  grids : List Grid
  pending : Option Pending
  nodes : Tbl NodeSt
  image : Option Image
  /-- Times at which it became READY and RESIDENT, the start of its slice. -/
  readyAt : Nat
  residentAt : Nat
  sliceAt : Nat
  /-- The waiting count in ns (21 R378). -/
  waiting : Nat
  rc0 : Nat
  rc1 : Nat
  measurement : List Byte
  /-- How far a LOAD in execution has come: the segments placed, the relocations of the next one applied, the measurement (23 R407). -/
  loadAt : Option (Nat × Nat × List Byte)
  /-- Handles served while the image is saved: group place and action (14 R260). -/
  resumes : List (Nat × Nat)
  /-- Records in the deferred-free queue, oldest first. -/
  dfSeen : List DfSeen
  /-- Posting has stopped at a record that could not be written (22 R394). -/
  postStopped : Bool
  /-- The partition that a RESTORE command names (23 R403). -/
  restorePart : Option Nat
  /-- A save is under way, `true` by a budget event (14 R268, 21 R378). -/
  save : Option Bool
  /-- A save is deferred until the shadow storage has room (21 R372). -/
  saveDue : Bool
  /-- The snapshot of the budget event under way has been taken (21 R378). -/
  snapped : Bool
  /-- Stores of the scheduler that wait for another package, oldest first: virtual address and bytes (21 R369, R378, R380). -/
  posts : List (Nat × List Byte)
  /-- A removal has been asked for: whether its effects have begun (21 R384). -/
  removing : Option Bool
  /-- A management command that waits to be answered: queue pair and tag (23 R403). -/
  answer : Option (Nat × Nat)
deriving DecidableEq, Repr

def Ctx.reset : Ctx :=
  { desc := .none, st := .idle, hw := none, ridx := 0, widx := 0, overflow := false, regs := .reset, grids := [], pending := none,
    nodes := [], image := none, readyAt := 0, residentAt := 0, sliceAt := 0, waiting := 0, rc0 := 0, rc1 := 0,
    measurement := List.replicate 48 0, loadAt := none, resumes := [], dfSeen := [], postStopped := false, restorePart := none, save := none, saveDue := false, snapped := false, posts := [], removing := none,
    answer := none }

/-- A partition (21 R381). -/
structure Part where
  halves : BitVec 8
  slot0 : Nat
  nslot : Nat
  en : Bool
deriving DecidableEq, Repr

def Part.reset : Part := ⟨0, 0, 0, false⟩

/-- The package scheduler (21 R381, R385). -/
structure Sched where
  qdtBase : Nat
  qdtEn : Bool
  age : Nat
  parts : Tbl Part
  partEn : Bool
  partErr : Bool
  nextGrid : Nat
deriving DecidableEq, Repr

/-- A grace domain's local engine (22 R388, R396). `old` is the tag the running period waits for; `waiting` holds the
requests not yet served; `reports` the packages a wider period still waits for; `remote` the requests of other packages. -/
structure Grace where
  ph : Bool
  busy : Bool
  old : Bool
  request : Bool
  gcp : Nat
  gcc : Nat
  gcd : Nat
  /-- Wider periods originated here: packages that have not reported, and whether the local part is still to begin or end. -/
  cell : Option (List Nat × Nat)
  dom : Option (List Nat × Nat)
  cellReq : Bool
  domReq : Bool
  /-- Requests of other packages: package, scope, the local count at which they are reported. -/
  remote : List (Nat × Scope × Nat)
deriving DecidableEq, Repr

def Grace.reset : Grace := ⟨false, false, false, false, 0, 0, 0, none, none, false, false, []⟩

/-- A host window (23 R401). -/
structure Window where
  base : Nat
  len : Nat
  key : Nat
  rd : Bool
  wr : Bool
  part : Nat
deriving DecidableEq, Repr

/-- What leaves the package (the model's own record; log entry 1). -/
inductive Msg where
  /-- An answer or a message on a queue pair: tag or 0x87, status, words (23 R403, R405). -/
  | answer (qp tag status : Nat) (words : List Word64)
  | mailbox (qp : Nat) (words : List Word64)
  /-- An RDMA completion: whether it was a remote access error, and the bytes read (23 R401, R402). -/
  | rdma (qp : Nat) (error : Bool) (data : List Byte)
  /-- A request to another package: kind (0 RS, 1 RX, 2 AT, 3 CB, 4 to 6 a .ms load, store or atomic), its number, domain address,
  bytes, sequence number, whether it is a retry, and what it does. -/
  | request (kind req pa size seq : Nat) (retry : Bool) (op : Option AccOp)
  /-- A response of this home to a package: cause (0 none, 0xFF busy), bytes or old value, load level. -/
  | response (pkg lpa cause level : Nat) (data : List Byte)
  /-- This home invalidates or recalls a granule at a package. -/
  | recall (pkg lpa : Nat) (share : Bool)
  /-- A copy goes home, or a recall is answered (24 R418): its number, granule address, whether the copy is kept, its bytes and its sectors'
  poison codes; no bytes where this package holds nothing newer. -/
  | writeBack (id pa : Nat) (keep : Bool) (data : List Byte)
  | upgrade (pa : Nat)
  | death (cell : Nat)
  | heartbeat
  | graceRequest (dom : Nat) (scope : Scope)
  | graceReport (dom pkg : Nat) (scope : Scope)
  /-- An announcement of an instance (25 R443). -/
  | announce (gid n rank : Nat) (sig : BitVec 32) (nstr pkg : Nat)
  /-- A stream of a member has ended (25 R443). -/
  | streamEnd (gid n rank pkg : Nat)
  | abort (gid n cause : Nat) (pkg : Nat)
  /-- A route packet passed on to another package (25 R442). -/
  | packet (p : RoutePacket) (pkg : Nat)
deriving DecidableEq, Repr

/-- An access of the host that has yet to be performed (23 R402): its queue pair, whether it writes, its key and local address, the bytes of a write
and the length of a read. -/
structure RdmaPacket where
  qp : Nat
  wr : Bool
  key : Nat
  lpa : Nat
  data : List Byte
  len : Nat
deriving DecidableEq, Repr

/-- The package controller (23 R401, R405, R411, R413). -/
structure Ctl where
  windows : Tbl Window
  /-- Accesses of the host in their order of arrival, until they are performed (23 R402). -/
  packets : List RdmaPacket
  /-- ATTEST commands in execution, by queue pair (23 R403). -/
  attesting : List (Nat × List Word64)
  /-- The public key of the last ATTEST of a queue pair (23 R410; log entry 10). -/
  tenants : Tbl (List Byte)
  mbIn : List Word64
  mbOut : List Word64
  inFull : Bool
  send : Bool
  mbQp : Nat
  step : Nat
  fenced : BitVec 12
  fails : Nat
  /-- Failed checks of a stack in step 2, the stacks that have passed the check of the step in progress, and the temperature of a stack's last
  training in step 3. -/
  retries : Tbl Nat
  passed : BitVec 12
  trainedAt : Tbl (BitVec 8)
  /-- The winding has failed and waits to start again. -/
  rewait : Bool
  held : Bool
  derated : Bool
deriving DecidableEq, Repr

/-- A package of the domain (24 R415). -/
structure DomEnt where
  valid : Bool
  cell : Nat
  cidx : Nat
  dead : Bool
deriving DecidableEq, Repr

def DomEnt.reset : DomEnt := ⟨false, 0, 0, false⟩

/-- Directory states (24 R417). -/
inductive DirSt where
  | s | e | m | o | c | x
deriving DecidableEq, Repr

/-- A directory entry (24 R417), by granule; `used` orders replacement. -/
structure DirEnt where
  st : DirSt
  cop : Nat
  owner : Nat
  pmask : BitVec 8
  cvec : BitVec 64
  used : Nat
deriving DecidableEq, Repr

/-- A request of this package to a remote home (24 R427, R428), by its number: kind (as in `Msg.request`), the name of the access
that made it (0 for a request of a granule), domain address, bytes, sequence number, context, what it does, when it was made, its timer in ns,
whether it has been sent and sent again, and the response: a cause (0 none, 0xFF busy) and bytes. -/
structure Req where
  id : Nat
  kind : Nat
  tag : Nat
  pa : Nat
  size : Nat
  seq : Nat
  queue : Option Nat
  op : Option AccOp
  at_ : Nat
  timer : Nat
  sent : Bool
  retried : Bool
  resp : Option (Nat × List Byte)
deriving DecidableEq, Repr

/-- A write-back or an answer to a recall that its home has not answered (24 R428), as in `Msg.writeBack`. -/
structure Back where
  id : Nat
  pa : Nat
  keep : Bool
  data : List Byte
deriving DecidableEq, Repr

/-- A replay-table entry (24 R429). -/
structure Replay where
  pkg : Nat
  seq : Nat
  old : Nat
  at_ : Nat
deriving DecidableEq, Repr

/-- An extent (24 R434): state code, cell, ACK. -/
structure Extent where
  st : Nat
  cell : Nat
  ack : Bool
deriving DecidableEq, Repr

def Extent.reset : Extent := ⟨0, 0, false⟩

/-- The fabric side of the package (24 R415 to R436). -/
structure Fabric where
  en : Bool
  self : Nat
  tdead : Nat
  dom : Tbl DomEnt
  dir : Tbl DirEnt
  dirqAddr : Nat
  dirqDone : Bool
  /-- A lookup has been started and has no result yet. -/
  dirqGo : Bool
  dirqW0 : Word64
  dirqW1 : Word64
  /-- RMASK and WMASK of a 2 MiB block, where they are not the home cell's bit alone. -/
  masks : Tbl (BitVec 64 × BitVec 64)
  fwRm : Word64
  fwWm : Word64
  fwBlock : Nat
  /-- The block of the change in progress (24 R426). -/
  fwChanging : Nat
  fwBusy : Bool
  rate : Tbl Nat
  bucket : Tbl Nat
  window : Tbl Nat
  reqs : List Req
  nextReq : Nat
  nextSeq : Nat
  replay : List Replay
  ports : Tbl Bool
  /-- Time at which a cell was last heard or reachable. -/
  heard : Tbl Nat
  recCell : Nat
  recActive : Bool
  recLost : Nat
  deadMask : Word64
  extents : Tbl Extent
  /-- Granules whose sweep is still to come, for the recovery in progress. -/
  sweep : List Nat
  /-- Write-backs and answers to recalls that their homes have not answered (24 R428). -/
  backs : List Back
  /-- Recalls of this home not yet answered (24 R420): local granule, package, whether the copy may stay shared. -/
  recalled : List (Nat × Nat × Bool)
  /-- Bytes that an owner has supplied for a request of the granule (24 R420). -/
  supplied : Tbl (List Byte)
deriving DecidableEq, Repr

/-- What a package knows of a collective instance (25 R443, R444): its number, the ranks announced with their signatures and numbers of
streams, the streams ended by rank, the packets ended by rank × 16 + stream, an abort's cause, and what its hops here have begun to write to
RECV (R447), as rank, first byte and number of bytes. -/
structure Inst where
  gid : Nat
  n : Nat
  ranks : List (Nat × BitVec 32 × Nat)
  ended : Tbl Nat
  packetsEnded : Tbl Nat
  abort : Option Nat
  wrote : List (Nat × Nat × Nat)
deriving DecidableEq, Repr

/-- Collectives of the package. -/
structure Coll where
  insts : List Inst
  packets : List RoutePacket
deriving DecidableEq, Repr

/-- The kind of a tracked access (13 R233, R234, R242). -/
inductive TrackKind where
  | read | write | relaxed | release | fold
deriving DecidableEq, Repr

/-- A tracked access (13 R233): the party, the space (0 cached, 1 memory-side, else the team's key plus 2), the word, its kind, whether it was
in a read section, and the tick. -/
structure Track where
  party : Nat
  space : Nat
  word : Nat
  kind : TrackKind
  inSection : Bool
  tick : Nat
deriving DecidableEq, Repr

/-- A boundary of a party (13 R230): its scope as a distance, 0 .grp to 5 .dom, and its place in the order. -/
structure Bound where
  party : Nat
  level : Nat
  tick : Nat
deriving DecidableEq, Repr

/-- A range of a command as a party of 13 R244: the issuing party, path and flag, space (as in `Track`), its bytes as pieces of an
address and a length, whether they are written, and the places in the order of its issue, its completion and its
observation by the group (20 R361). A `red` only folds (13 R234); a `cstart` belongs to the handle of its group (25 R445). -/
structure CmdTrack where
  cmd : Nat
  party : Nat
  path : Path
  flag : Option Nat
  fold : Bool
  handle : Option Nat
  space : Nat
  segs : List (Nat × Nat)
  write : Bool
  start : Nat
  stop : Option Nat
  seen : Option Nat
deriving DecidableEq, Repr

/-- Where a party is or was (13 R235, R239). -/
structure Party where
  core : Nat
  slot : Nat
  /-- Identifiers that a scope compares: team, cluster, package and cell are compared through these keys. -/
  team : Nat
  cluster : Nat
  resident : Bool
  /-- The place in the order at which its first region begins. -/
  born : Nat
  /-- Parties and places before which this party's regions are not concurrent with theirs (21 R377). -/
  after : List (Nat × Nat)
deriving DecidableEq, Repr

/-- A tracked access of a party of another package to a word of the domain (13 R232, R235): its package, how far apart the packages are as the
least scope level that includes both (4 one cell, 5 the domain), the word of the cached space, its kind, whether it was in a read section, its
place in the order, and the place at which its region ended toward this package. -/
structure FarTrack where
  pkg : Nat
  level : Nat
  word : Nat
  kind : TrackKind
  inSection : Bool
  tick : Nat
  stop : Option Nat
deriving DecidableEq, Repr

/-- The tracking of accesses (13 R229 to R237). -/
structure Tracking where
  acc : List Track
  bounds : List Bound
  cmds : List CmdTrack
  parties : Tbl Party
  /-- Accesses of other packages' parties, as their requests and the surroundings bring them (log entry 6). -/
  far : List FarTrack
  /-- The place in the order at which the regions of a package's parties last began toward this package. -/
  farStart : Tbl Nat
  /-- Release values (13 R242): space and word of the words last written by a releasing atomic. -/
  releases : List (Nat × Nat)
  /-- The next place in the order of accesses and boundaries. -/
  now : Nat
deriving DecidableEq, Repr

/-- What the current word belongs to (the model's own; log entry 1): the core, the group slot, the split-table entry, the flag
attached to its slot, and the clause's header. -/
structure Cur where
  core : Nat
  slot : Nat
  entry : Nat
  flag : Option Nat
  len : Nat
  region : Bool
deriving DecidableEq, Repr

/-- The state of one package. -/
structure State where
  /-- The model's own: what happens next, how many steps have been made, free values used, next names (log entries 1, 4). -/
  turn : Turn
  tick : Nat
  free : Nat
  nextId : Nat
  cur : Cur
  /-- TIME in ns (02 R33), and clock cycles since reset. -/
  time : Nat
  cycle : Nat
  /-- Groups by core × 64 + group slot. -/
  groups : Tbl Group
  /-- Teams by core × 8 + team slot. -/
  teams : Tbl Team
  /-- Clusters by a name of the model's own. -/
  clusters : Tbl Cluster
  cores : Tbl CoreSt
  /-- MXARB.AGE by bench (15 R297). -/
  mxAge : Tbl Nat
  dies : Tbl Die
  hbm : Tbl Stack
  cmds : List Cmd
  memsys : MemSys
  ctxs : Tbl Ctx
  sched : Sched
  grace : Tbl Grace
  ctl : Ctl
  fabric : Fabric
  coll : Coll
  track : Tracking
  out : List Msg
deriving DecidableEq, Repr

def Cur.none : Cur := ⟨0, 0, 0, Option.none, 0, false⟩

/-- The machine right after reset (01 R11: every Reset column; log entries 1 to 4 and 9 for the rest): no group, no context, the
winding at its first step. -/
def State.reset : State where
  turn := .event .packageReset
  tick := 0
  free := 0
  nextId := 0
  cur := .none
  time := 0
  cycle := 0
  groups := []
  teams := []
  clusters := []
  cores := []
  mxAge := []
  dies := []
  hbm := []
  cmds := []
  memsys := { mem := { bytes := [], loose := [], poison := [], keyIds := [], syms := [], seals := [] }, l2 := [], lines := [], dram := [], uses := 0, param := [], shapes := [],
              shapeBusy := false, shapeErr := false, shapeErrRec := 0, shapeRanges := [], memKeys := [] }
  ctxs := []
  sched := { qdtBase := 0, qdtEn := false, age := 0x3E8, parts := [], partEn := false, partErr := false, nextGrid := 0 }
  grace := []
  ctl := { windows := [], packets := [], attesting := [], tenants := [], mbIn := List.replicate 6 0, mbOut := List.replicate 6 0, inFull := false, send := false, mbQp := 0,
           step := 1, fenced := 0, fails := 0, retries := [], passed := 0, trainedAt := [], rewait := false, held := false, derated := false }
  fabric := { en := false, self := 0, tdead := 1000, dom := [], dir := [], dirqAddr := 0, dirqDone := false, dirqGo := false, dirqW0 := 0,
              dirqW1 := 0, masks := [], fwRm := 0, fwWm := 0, fwBlock := 0, fwChanging := 0, fwBusy := false, rate := [], bucket := [],
              window := [], reqs := [], nextReq := 0, nextSeq := 0, replay := [], ports := [], heard := [], recCell := 0,
              recActive := false, recLost := 0, deadMask := 0, extents := [], sweep := [], backs := [], recalled := [], supplied := [] }
  coll := ⟨[], []⟩
  track := ⟨[], [], [], [], [], [], [], 0⟩
  out := []

end Sys2Proof.Machine
end

