-- ==== Sys2Proof/Machine/Ops.lean ====
section
/-! DEFINITION. The named operations over groups, registers, split tables and positions, and taking a fault, restarting and
resuming (01 R8, R10; 02; 03 R39 to R53; 07 R116 to R123; 14 R250 to R257). -/

namespace Sys2Proof.Machine

/-- `SignExt(x, n)` (01 R9). -/
def signExt (x n : Nat) : Int := if 2 * (x % 2 ^ n) < 2 ^ n then (x % 2 ^ n : Int) else (x % 2 ^ n : Int) - 2 ^ n

/-- `Bits(x, n)` (01 R9). -/
def bitsInt (x : Int) (n : Nat) : Nat := (x % 2 ^ n).toNat

/-! ### Groups -/

/-- The place of a group among the package's groups. -/
def gkey (core slot : Nat) : Nat := core * 64 + slot

/-- The place of a team among the package's teams. -/
def tkey (core tslot : Nat) : Nat := core * 8 + tslot

def State.group? (s : State) (core slot : Nat) : Option Group := Tbl.find? s.groups (gkey core slot)

def State.setGroup (s : State) (core slot : Nat) (g : Group) : State := { s with groups := Tbl.put s.groups (gkey core slot) g }

/-- The state with a group changed, if the slot holds one. -/
def State.updGroup (s : State) (core slot : Nat) (f : Group → Group) : State :=
  match s.group? core slot with
  | some g => s.setGroup core slot (f g)
  | none => s

def State.coreSt (s : State) (core : Nat) : CoreSt := Tbl.getD s.cores core .reset
def State.setCore (s : State) (core : Nat) (c : CoreSt) : State := { s with cores := Tbl.setD s.cores core c .reset }
def State.die (s : State) (d : Nat) : Die := Tbl.getD s.dies d .reset
def State.setDie (s : State) (d : Nat) (x : Die) : State := { s with dies := Tbl.setD s.dies d x .reset }
def State.stack (s : State) (k : Nat) : Stack := Tbl.getD s.hbm k .reset
def State.setStack (s : State) (k : Nat) (x : Stack) : State := { s with hbm := Tbl.setD s.hbm k x .reset }
def State.ctx (s : State) (q : Nat) : Ctx := Tbl.getD s.ctxs q .reset
def State.setCtx (s : State) (q : Nat) (c : Ctx) : State := { s with ctxs := Tbl.setD s.ctxs q c .reset }
def State.team? (s : State) (core tslot : Nat) : Option Team := Tbl.find? s.teams (tkey core tslot)
def State.setTeam (s : State) (core tslot : Nat) (t : Team) : State := { s with teams := Tbl.put s.teams (tkey core tslot) t }
def State.emit (s : State) (m : Msg) : State := { s with out := s.out ++ [m] }

/-- The next free value's number, and the state that has used it (log entry 4). -/
def State.fresh (s : State) : State := { s with free := s.free + 1 }

/-- A group as a launch leaves it before its argument registers are written (02 R23, R35): one fragment of every lane at the entry
address, FMT at its reset value, everything else at its launch value. -/
def Group.start (ids : Ids) (nlanes nvr entryPos : Nat) (mon : Bool) (lease : Nat) (measured : Bool) (act : Act) : Group :=
  { ids := ids
    regs := { nlanes := nlanes, nvr := nvr, v := [], p := [], s := [], q := [], orig := [], badV := [], badS := [] }
    mon := mon, inflight := [], statuses := [], holds := [], batches := []
    ents := Tbl.setD [] 0 { Entry.freed with st := .running, pos := ⟨entryPos, 0⟩, mask := BitVec.ofNat 32 (2 ^ nlanes - 1),
                                             fmt := 0x133, saved := 0x133 } .freed
    fpstat := 0, lease := lease, measured := measured, rdepth := 0, rtag := false, region := ⟨entryPos, 0⟩, regcnt := 0, block := .none,
    blockPos := ⟨0, 0⟩,
    act := act, dbg := .launch, stops := ⟨[], [], []⟩, toksets := [], leader := none, shadow := none, trace := [], again := false,
    restarts := 0, loadQueue := [], readQueue := [], binds := [], resv := none, lateTimeout := none, meet := none, records := none }

/-! ### Registers (02 R19, R21) -/

/-- A vector register of a lane. -/
def Group.rdV (g : Group) (lane n : Nat) : Word32 := Tbl.getD g.regs.v (lane * 256 + n) 0

/-- A write of a vector register; a whole write clears an uncorrectable error (18 R340). -/
def Group.wrV (g : Group) (lane n : Nat) (x : Word32) : Group :=
  { g with regs := { g.regs with v := Tbl.setD g.regs.v (lane * 256 + n) x 0
                                 badV := g.regs.badV.filter (· != lane * 256 + n) } }

def Group.rdS (g : Group) (n : Nat) : Word32 := Tbl.getD g.regs.s n 0

def Group.wrS (g : Group) (n : Nat) (x : Word32) : Group :=
  { g with regs := { g.regs with s := Tbl.setD g.regs.s n x 0, badS := g.regs.badS.filter (· != n) } }

/-- A predicate of a lane; p15 reads as true (02 R19). -/
def Group.rdP (g : Group) (lane n : Nat) : Bool := n == 15 || Tbl.getD g.regs.p (lane * 16 + n) false

/-- A write of a predicate; a write of p15 has no effect (02 R19). -/
def Group.wrP (g : Group) (lane n : Nat) (x : Bool) : Group :=
  if n = 15 then g else { g with regs := { g.regs with p := Tbl.setD g.regs.p (lane * 16 + n) x false } }

/-- A uniform predicate; q7 reads as true (02 R21). -/
def Group.rdQ (g : Group) (n : Nat) : Bool := n == 7 || Tbl.getD g.regs.q n false

/-- A write of a uniform predicate; a write of q7 has no effect (02 R21). -/
def Group.wrQ (g : Group) (n : Nat) (x : Bool) : Group :=
  if n = 7 then g else { g with regs := { g.regs with q := Tbl.setD g.regs.q n x false } }

/-- The value of `k` consecutive registers from `n` on, the first the least significant (01 R7). -/
def rdRegs (f : Nat → Word32) (n : Nat) : Nat → Nat
  | 0 => 0
  | k + 1 => (f n).toNat + 2 ^ 32 * rdRegs f (n + 1) k

/-- `k` consecutive vector registers of a lane written with a value, the first the least significant. -/
def Group.wrVs (g : Group) (lane n : Nat) : Nat → Nat → Group
  | 0, _ => g
  | k + 1, x => (g.wrV lane n (BitVec.ofNat 32 x)).wrVs lane (n + 1) k (x / 2 ^ 32)

/-- `k` consecutive scalar registers written with a value. -/
def Group.wrSs (g : Group) (n : Nat) : Nat → Nat → Group
  | 0, _ => g
  | k + 1, x => (g.wrS n (BitVec.ofNat 32 x)).wrSs (n + 1) k (x / 2 ^ 32)

/-- The vector registers of a lane as a value. -/
def Group.rdVs (g : Group) (lane n k : Nat) : Nat := rdRegs (g.rdV lane) n k

/-- The scalar registers as a value. -/
def Group.rdSs (g : Group) (n k : Nat) : Nat := rdRegs g.rdS n k

/-- A register write that waited for its completion. -/
def Group.applyWrite (g : Group) : RegWrite → Group
  | .vec l n x => g.wrV l n x
  | .sca n x => g.wrS n x

/-- The register writes of a value of `k` registers: to lane `lane`, or to scalar registers for lane 255. -/
def regWrites (lane n : Nat) : Nat → Nat → List RegWrite
  | 0, _ => []
  | k + 1, x =>
    (if lane = 255 then RegWrite.sca n (BitVec.ofNat 32 x) else RegWrite.vec lane n (BitVec.ofNat 32 x)) ::
      regWrites lane (n + 1) k (x / 2 ^ 32)

/-- A status written to a vector register in some lanes (07 R138). -/
def Group.regroupStatus (g : Group) (d : Nat) (lanes : BitVec 32) (st : Nat) : Group :=
  ((List.range 32).filter fun l => lanes.getLsbD l).foldl (fun acc l => acc.wrV l d (BitVec.ofNat 32 st)) g

/-! ### The split table (07 R116 to R123) -/

def Group.ent (g : Group) (k : Nat) : Entry := Tbl.getD g.ents k .freed

/-- An entry written; a FREE entry has every field at its reset value. -/
def Group.setEnt (g : Group) (k : Nat) (e : Entry) : Group :=
  { g with ents := Tbl.setD g.ents k (if e.st = .free then .freed else e) .freed }

/-- The numbers of the entries that are not FREE, ascending. -/
def Group.live (g : Group) : List Nat := (List.range 32).filter fun k => (g.ent k).st != .free

/-- The split table holds a single entry other than FREE. -/
def Group.single (g : Group) : Bool := g.live.length == 1

/-- The lowest FREE entry. -/
def Group.lowestFree (g : Group) : Nat := ((List.range 32).find? fun k => (g.ent k).st == .free).getD 31

/-- The union of every entry's MASK. -/
def Group.allMask (g : Group) : BitVec 32 := g.live.foldl (fun m k => m ||| (g.ent k).mask) 0

/-- The address of a word at a position (03 R36): slot 0 is the header. -/
def Pos.addr (p : Pos) : Nat := p.caddr + 8 * p.slot

/-- The fall-through address of a clause of `len` words (07 R118). -/
def fallthrough (caddr len : Nat) : Nat := caddr + 8 * (len + 1)

/-- The position after a word of a clause of `len` words. -/
def Pos.next (p : Pos) (len : Nat) : Pos := if p.slot < len then ⟨p.caddr, p.slot + 1⟩ else ⟨fallthrough p.caddr len, 0⟩

/-- `divert` of 07 R118: the lanes `t` of entry `k` go to `target`, the rest to `fall`. -/
def Group.divert (g : Group) (k : Nat) (t : BitVec 32) (target fall join : Nat) : Group :=
  let e := g.ent k
  let rest := e.mask &&& ~~~t
  if t = 0 then g.setEnt k { e with pos := ⟨fall, 0⟩ }
  else if rest = 0 then g.setEnt k { e with pos := ⟨target, 0⟩ }
  else
    let n : Entry := { st := .running, pos := ⟨target, 0⟩, mask := t, keeper := k, level := e.depth + 1, depth := 0, join := true,
                       reconv := join, outer := e.reconv, fmt := e.fmt, saved := e.fmt, former := .free }
    (g.setEnt g.lowestFree n).setEnt k
      { e with mask := rest, pos := ⟨fall, 0⟩, reconv := join, depth := e.depth + 1 }

/-- The pair of a join (07 R119): the new entry and its keeper, both ARRIVED, the new entry's LEVEL the keeper's DEPTH, its own
DEPTH 0. -/
def Group.joinable (g : Group) : Option (Nat × Nat) :=
  (g.live.find? fun t =>
    let e := g.ent t
    e.join && e.st == .arrived && (g.ent e.keeper).st == .arrived && e.level == (g.ent e.keeper).depth && e.depth == 0).map
    fun t => ((g.ent t).keeper, t)

/-- One join (07 R119). -/
def Group.joinOne (g : Group) (k t : Nat) : Group :=
  let ek := g.ent k
  let et := g.ent t
  let k' : Entry := { ek with mask := ek.mask ||| et.mask, reconv := et.outer, fmt := et.saved, depth := ek.depth - 1 }
  let k'' : Entry :=
    if k'.mask = 0 then k'
    else { k' with pos := ⟨et.reconv, 0⟩, st := if k'.reconv = et.reconv then .arrived else .running }
  (g.setEnt t .freed).setEnt k k''

/-- Joins one after another until none applies (07 R119); each frees an entry, so 32 suffice. -/
def Group.joins : Nat → Group → Group
  | 0, g => g
  | n + 1, g =>
    match g.joinable with
    | some (k, t) => Group.joins n (g.joinOne k t)
    | none => g

/-- The collapse of `regang` (07 R127), when every entry other than FREE waits at one target or is empty. -/
def Group.collapse (g : Group) : Group :=
  let waits := g.live.filter fun k => (g.ent k).st == .regang && (g.ent k).mask != 0
  match waits with
  | [] => g
  | w :: _ =>
    let target := (g.ent w).pos.caddr
    if g.live.all (fun k => (g.ent k).mask == 0 || ((g.ent k).st == .regang && (g.ent k).pos.caddr == target)) then
      let fmt := match g.live.find? fun k => (g.ent k).join && (g.ent k).keeper == 0 && (g.ent k).level == 1 with
        | some t => (g.ent t).saved
        | none => (g.ent 0).fmt
      let root : Entry := { g.ent 0 with st := .running, pos := ⟨target, 0⟩, mask := g.allMask, reconv := 0, depth := 0, fmt := fmt }
      { g with ents := Tbl.setD [] 0 root .freed }
    else g

/-- Lanes leave an entry (07 R120): an entry with an empty MASK becomes ARRIVED and joins as R119 allows. -/
def Group.removeLanes (g : Group) (k : Nat) (lanes : BitVec 32) : Group :=
  let e := g.ent k
  let m := e.mask &&& ~~~lanes
  ((g.setEnt k { e with mask := m, st := if m = 0 then .arrived else e.st }).joins 32).collapse

/-- Every MASK is 0: the group has ended and only drains (07 R120). -/
def Group.over (g : Group) : Bool := g.allMask == 0

/-- A region entry at a position (03 R43, 07 R123, 14 R250): the position is recorded, the count rises and the root's SAVED
takes its FMT. -/
def Group.takeRegion (g : Group) (p : Pos) : Group :=
  let root := g.ent 0
  { (g.setEnt 0 { root with saved := root.fmt }) with region := p, regcnt := g.regcnt + 1, restarts := 0 }

/-- The split table after a restart at the region entry (07 R123, 14 R252). -/
def Group.restartTable (g : Group) : Group :=
  let root := g.ent 0
  let e : Entry := { root with st := .running, pos := g.region, mask := g.allMask, reconv := 0, depth := 0, fmt := root.saved,
                               former := .free }
  { g with ents := Tbl.setD [] 0 e .freed, again := true, block := .none }

/-! ### Flags and counters (02 R24, R26) -/

/-- The commands of a group. -/
def State.cmdsOf (s : State) (core slot : Nat) : List Cmd := s.cmds.filter fun c => c.core == core && c.slot == slot

/-- A hold of an instruction of fixed latency, from the cycle after its issue on, for one cycle (03 R41). -/
def State.held (s : State) (h : Nat × Nat) : Bool := h.2 < s.cycle && s.cycle ≤ h.2 + 1

/-- A flag is set while an attached instruction has not completed (02 R24, 03 R41). -/
def State.flagSet (s : State) (core slot : Nat) (g : Group) (f : Nat) : Bool :=
  g.inflight.any (fun o => o.flag == some f) || (s.cmdsOf core slot).any (fun c => c.flag == some f && !c.done) ||
    g.statuses.any (fun o => o.flag == some f) || g.holds.any fun h => h.1 == f && s.held h

/-- An in-flight counter (02 R26). -/
def Group.ctr (g : Group) (p : Path) : Nat :=
  (g.inflight.filter fun o => o.path == p).length + (g.batches.filter fun b => b.path == p).length

/-- A field at its place in a word. -/
def fieldAt (x lo n : Nat) : Nat := x % 2 ^ n * 2 ^ lo

/-- Every counter is zero and every flag is clear. -/
def State.drained (s : State) (core slot : Nat) (g : Group) : Bool :=
  g.inflight.isEmpty && g.batches.isEmpty && g.statuses.isEmpty && !(g.holds.any s.held) &&
    (s.cmdsOf core slot).all fun c => c.done || c.flag.isNone

/-- A status that waits is written (03 R42, 02 R25). -/
def Group.writeStatus (g : Group) : Group :=
  match g.statuses with
  | [] => g
  | o :: rest => { g.wrS o.reg o.value with statuses := rest }

/-! ### Lanes (03 R46) -/

/-- Whether a guard is true in a lane (03 R46). -/
def Group.guardLane (g : Group) (gd : Guard) (lane : Nat) : Bool := g.rdP lane gd.reg.toNat != gd.neg

/-- Whether a uniform guard is true (03 R46). -/
def Group.guardUni (g : Group) (gd : Guard) : Bool := g.rdQ gd.reg.toNat != gd.neg

/-- The active lanes of an entry under a guard, in ascending LANEID (01 R8, 03 R46). -/
def Group.active (g : Group) (e : Entry) (gd : Guard) : List Nat :=
  (List.range 32).filter fun l => e.mask.getLsbD l && g.guardLane gd l

/-- Lanes as a mask. -/
def maskOf (lanes : List Nat) : BitVec 32 := lanes.foldl (fun m l => m ||| BitVec.ofNat 32 (2 ^ l)) 0

/-! ### Taking a fault (01 R10, 14 R250 to R257) -/

/-- A fault that names no lane. -/
def FaultInfo.word (cause : Nat) : FaultInfo := ⟨cause, 255, 0, 0, 0⟩

/-- A fault with an address operand that names a lane. -/
def FaultInfo.at (cause lane addr : Nat) : FaultInfo := ⟨cause, lane, 0, addr, 0⟩

/-- Records of the group's own instructions that wait (14 R255). -/
def Group.ownRecord (g : Group) : Bool := (g.stops.unwritten ++ g.stops.unserved).any fun r => !r.resumable

/-- The group stops with a record to write (14 R255, R257). -/
def Group.stopWith (g : Group) (run : Run) (r : Rec) : Group :=
  { g with dbg := { g.dbg with run := run, cause := r.info.cause, stepping := none }
           stops := { g.stops with unwritten := g.stops.unwritten ++ [r], unserved := g.stops.unserved ++ [r] } }

/-- An entry held by the debug monitor (07 R117, 14 R266). -/
def Group.holdEntry (g : Group) (k : Nat) : Group :=
  let e := g.ent k
  if e.st = .free ∨ e.st = .stopped then g else g.setEnt k { e with st := .stopped, former := e.st }

/-- A fragment is stopped at an instruction while a record of the group's own instructions waits (14 R255): it is set back to it. In a
single step the entry is held again and the debug state names the cause (14 R267). -/
def Group.stopAgain (g : Group) (entry : Nat) (pos : Pos) (cause : Nat) : Group :=
  let g1 := g.setEnt entry { g.ent entry with pos := pos }
  if g.dbg.stepping.any fun s => s.1 == entry then
    { g1.holdEntry entry with dbg := { g.dbg with stepping := none, cause := cause } }
  else { g1 with dbg := { g.dbg with run := .faulted } }

/-- The position after a word where its clause has `len` words; a header's is its first word. -/
def Pos.after (p : Pos) (len : Nat) : Pos := if p.slot = 0 then ⟨p.caddr, 1⟩ else p.next len

/-- THE FAULT OF AN INSTRUCTION (14 R253 class F): the group stops as a whole, the instruction has no effect (01 R10), and a
record waits to be written with FAULTPOS the instruction and RESTART the region entry. While a record of the group's own
instructions waits, no second one is made: the fragment is set back to the instruction (14 R255). A shadow's fault is its leader's
(14 R271). -/
def State.takeFault (s : State) (core slot entry : Nat) (pos : Pos) (f : FaultInfo) : State :=
  s.updGroup core (((s.group? core slot).bind fun g => g.leader).getD slot) fun g =>
    if g.ownRecord then g.stopAgain entry pos f.cause
    else
      { g with trace := if ((s.group? core slot).bind fun h => h.leader).isSome then [] else g.trace }.stopWith .faulted
        { info := f, resumable := false, regcnt := g.regcnt, faultPos := pos, restart := g.region, after := pos.after s.cur.len,
          stop := false, late := false, mask := (g.ent entry).mask, entry := entry, progress := 0, cmd := none, tick := s.tick }

/-- A STOP OF CLASS S at an instruction (14 R253, R259): the entry stands at `after`, where RESTART continues. -/
def State.takeStop (s : State) (core slot entry : Nat) (pos after : Pos) (run : Run) (f : FaultInfo) : State :=
  s.updGroup core slot fun g =>
    if g.ownRecord then g.stopAgain entry pos f.cause
    else
      (g.setEnt entry { g.ent entry with pos := after }).stopWith run
        { info := f, resumable := false, regcnt := g.regcnt, faultPos := pos, restart := after, after := after, stop := true, late := false,
          mask := (g.ent entry).mask, entry := entry, progress := 0, cmd := none, tick := s.tick }

/-- Every entry other than FREE becomes STOPPED: all-stop mode, `halt`, a debug stop (14 R263, R266). -/
def Group.holdAll (g : Group) : Group := (List.range 32).foldl Group.holdEntry g

/-- Every STOPPED entry returns to its former state (14 R260); entries that meanwhile wait for one another join. -/
def Group.releaseAll (g : Group) : Group :=
  (((List.range 32).foldl (fun g k =>
    let e := g.ent k
    if e.st = .stopped then g.setEnt k { e with st := e.former, former := .free } else g) g).joins 32).collapse

/-- The group runs on: it is not stopped, it is in a single step, or it has fragments that a breakpoint in non-stop mode leaves running
(14 R257, R266, R267). -/
def Group.runs (g : Group) : Bool := g.dbg.run == .running || g.dbg.stepping.isSome || (g.dbg.nonstop && g.dbg.run == .debugger)

/-- A debug stop would stop something of the group (14 R263). -/
def Group.haltable (g : Group) : Bool :=
  g.dbg.run == .running || (g.dbg.nonstop && g.dbg.run == .debugger && g.live.any fun k => (g.ent k).st == .running)

/-- A debug stop without a record (14 R263). -/
def Group.halt (g : Group) : Group := if g.haltable then { g.holdAll with dbg := { g.dbg with run := .halted } } else g

/-- The restart of 14 R252 at the region entry: operations in flight complete first. -/
def Group.restart (g : Group) : Group := { g.restartTable with dbg := { g.dbg with run := .running } }

/-! ### Issuing a word (03 R41, R52) -/

/-- What the meaning of a word answers. -/
inductive Res where
  /-- It has issued; its fragment goes on at the next position. -/
  | done (s : State)
  /-- It has issued and has set the positions itself. -/
  | control (s : State)
  /-- It cannot issue now: the state of the try, and what it waits for (21 R379). -/
  | stall (s : State) (kind obj : Nat)
  /-- It faults at issue. -/
  | fault (f : FaultInfo)

/-- The checks of 03 R52 on a word, in order: privilege, zero fields, listed values and registers, last slot. -/
def checkWord (i : Instr) (mon : Bool) (nvr slot len : Nat) : Option Nat :=
  if !mon && i.needsMon then some 0x03
  else if !i.reservedOk then some 0x02
  else if !i.legalOk || !i.operands.all (Opnd.withinDecl nvr) || (i.endsClause && slot != len) then some 0x01
  else none

/-- 2^57: the end of the virtual space (03 R49, R50). -/
def vaEnd : Nat := 2 ^ 57

/-- The target of a branch offset in words from the word at `here` (03 R50). -/
def branchTarget (here : Nat) (off : BitVec 32) : Int := here + 8 * signExt off.toNat 32

/-- The join address of a `bdiv` (07 R126). -/
def joinTarget (here : Nat) (join : BitVec 16) : Int := here + 8 * signExt join.toNat 16

/-- An address outside the virtual space. -/
def outside (a : Int) : Bool := a < 0 || vaEnd ≤ a

/-- A fault that names an address and no lane. -/
def FaultInfo.addr (cause : Nat) (a : Int) : FaultInfo := ⟨cause, 255, 0, bitsInt a 64, 0⟩

/-- The checks of a branch word's target and join address, made after those of R52, whether or not a lane is active (03 R50). -/
def targetFault (i : Instr) (here : Nat) : Option FaultInfo :=
  let check (a : Int) : Option FaultInfo := if outside a then some (.addr 0x11 a) else none
  match i with
  | .bra _ off | .brq _ _ _ off | .regang _ off | .loop _ _ _ off | .call _ _ off => check (branchTarget here off)
  | .bdiv _ join off => (check (branchTarget here off)).orElse fun _ => check (joinTarget here join)
  | _ => none

/-- An uncorrectable register error that a word's sources meet (18 R340): the lowest lane, or 255 for a scalar. -/
def Group.badRead (g : Group) (i : Instr) (lanes : List Nat) : Option Nat :=
  if g.regs.badV.isEmpty && g.regs.badS.isEmpty then none
  else
    let srcs := i.operands.filter (·.reads)
    let hit (l : Nat) : Bool := srcs.any fun o => o.cls == .vec &&
      (List.range o.width).any fun k => g.regs.badV.contains (l * 256 + o.num + k)
    if srcs.any (fun o => o.cls == .sca && (List.range o.width).any fun k => g.regs.badS.contains (o.num + k)) then some 255
    else lanes.find? hit

/-- The lanes that read a word's vector sources: the active lanes of a lane word, none of a uniform one whose guard is false. -/
def Group.readers (g : Group) (e : Entry) (i : Instr) : Option (List Nat) :=
  match i.guard? with
  | some (gd, true) => if g.guardUni gd then some [] else none
  | some (gd, false) => let ls := g.active e gd; if ls.isEmpty then none else some ls
  | none => none

/-- The distance that a scope reaches: 0 .grp to 5 .dom (13 R239). -/
def scopeLevel : Scope → Nat
  | .grp => 0
  | .team => 1
  | .clu => 2
  | .pkg => 3
  | .cell => 4
  | .dom => 5

/-- The scope of a word that is a boundary of 13 R230, its guard apart; `exit` counts for the last lane alone. -/
def boundaryLevel : Instr → Option Nat
  | .atom _ x _ _ _ _ _ | .atomu _ x _ _ _ _ _ | .atoms _ x _ _ _ _ => if x.order = .relaxed then none else some (scopeLevel x.scope)
  | .fence _ sc _ | .gwait _ sc => some (scopeLevel sc)
  | .bar _ l => some (match l with
      | .team => 1
      | .clu => 2
      | .grid => 3)
  | .wait .. | .cwait .. | .rdenter _ | .rdexit _ | .regroup .. | .exit _ => some 5
  | _ => none

/-- The word is a boundary that the fragment meets with a true guard. -/
def Group.meetsBoundary (g : Group) (e : Entry) (i : Instr) : Bool :=
  (boundaryLevel i).isSome &&
    match i.guard? with
    | some (gd, true) => g.guardUni gd
    | some (gd, false) =>
      let m := maskOf (g.active e gd)
      match i with
      | .exit _ => m != 0 && g.allMask &&& ~~~m == 0
      | _ => m != 0
    | none => false

/-- Whether a word issued now opens the region of its clause (03 R43): the first word of a REGION clause, a single entry, and no
restart that has set the group back to it. -/
def State.opensRegion (s : State) (g : Group) (i : Instr) : Bool :=
  let e := g.ent s.cur.entry
  s.cur.region && e.pos.slot == 1 && g.single && !(g.again && g.region == ⟨e.pos.caddr, 0⟩) &&
    (checkWord i g.mon g.regs.nvr e.pos.slot s.cur.len).isNone

/-- The region entry of a clause taken as its first word issues (03 R43). -/
def State.enterRegion (s : State) (i : Instr) : State :=
  s.updGroup s.cur.core s.cur.slot fun g =>
    let g1 := if s.opensRegion g i then g.takeRegion ⟨(g.ent s.cur.entry).pos.caddr, 0⟩ else g
    { g1 with again := false }

/-- A word that could not issue has opened no region. -/
def State.undoRegion (s old : State) : State :=
  match old.group? s.cur.core s.cur.slot with
  | none => s
  | some o => s.updGroup s.cur.core s.cur.slot fun g =>
      match g.block with
      | .stall _ _ =>
        { (g.setEnt 0 { g.ent 0 with saved := (o.ent 0).saved }) with
          region := o.region, regcnt := o.regcnt, restarts := o.restarts, again := o.again }
      | _ => g

/-- A word issues for the group and entry of `cur`: the checks of R52, then a branch's target (03 R50), then an uncorrectable source
(18 R340), then the timeout of an
earlier posted store at a boundary (12 R228), then its meaning; a fault stops the group at the word. -/
def State.issueWith (s : State) (i : Instr) (body : Group → Entry → Res) : State :=
  match s.group? s.cur.core s.cur.slot with
  | none => s
  | some g =>
    let e := g.ent s.cur.entry
    match checkWord i g.mon g.regs.nvr e.pos.slot s.cur.len with
    | some c => s.takeFault s.cur.core s.cur.slot s.cur.entry e.pos (.word c)
    | none =>
      match targetFault i e.pos.addr with
      | some f => s.takeFault s.cur.core s.cur.slot s.cur.entry e.pos f
      | none =>
      match (g.readers e i).bind (g.badRead i) with
      | some l => s.takeFault s.cur.core s.cur.slot s.cur.entry e.pos ⟨0x31, l, 1, 0, 0⟩
      | none =>
        match g.lateTimeout.filter (fun _ => g.meetsBoundary e i) with
        | some f =>
          (s.takeFault s.cur.core s.cur.slot s.cur.entry e.pos f).updGroup s.cur.core s.cur.slot fun g => { g with lateTimeout := none }
        | none =>
        match body g e with
        | .fault f => s.takeFault s.cur.core s.cur.slot s.cur.entry e.pos f
        | .stall s' k o => s'.updGroup s.cur.core s.cur.slot fun g => { g with block := .stall k o }
        | .control s' => s'.updGroup s.cur.core s.cur.slot fun g =>
            { g with block := match g.block with
                | .stall _ _ => .none
                | b => b }
        | .done s' => s'.updGroup s.cur.core s.cur.slot fun g =>
            { (g.setEnt s.cur.entry { g.ent s.cur.entry with pos := e.pos.next s.cur.len }) with
              block := match g.block with
                | .stall _ _ => .none
                | b => b
              blockPos := e.pos }

/-- The outcome of a word: always a next state. -/
def issue (i : Instr) (s : State) (body : Group → Entry → Res) : Host.Outcome State Fault Refusal := .next (s.issueWith i body)

/-- The issuing group after a change. -/
def State.setCurGroup (s : State) (g : Group) : State := s.setGroup s.cur.core s.cur.slot g

/-- The word changes nothing but its group. -/
def Res.group (s : State) (g : Group) : Res := .done (s.setCurGroup g)

/-- A uniform word takes effect once, when its guard is true (03 R46). -/
def uniform (i : Instr) (gd : Guard) (s : State) (body : Group → Entry → Res) : Host.Outcome State Fault Refusal :=
  issue i s fun g e => if g.guardUni gd then body g e else .done s

/-- A lane word over its active lanes. -/
def lanewise (i : Instr) (gd : Guard) (s : State) (body : Group → Entry → List Nat → Res) : Host.Outcome State Fault Refusal :=
  issue i s fun g e => body g e (g.active e gd)

/-- A lane word that writes a value of `w` vector registers in every active lane: every lane reads before any writes
(01 R8). -/
def laneWrite (i : Instr) (gd : Guard) (d : Reg) (w : Nat) (s : State) (f : Group → Entry → Nat → Nat) :
    Host.Outcome State Fault Refusal :=
  lanewise i gd s fun g e ls => .group s (ls.foldl (fun acc l => acc.wrVs l d.toNat w (f g e l)) g)

/-- A lane word that writes a predicate in every active lane. -/
def lanePred (i : Instr) (gd : Guard) (d : Reg) (s : State) (f : Group → Nat → Bool) : Host.Outcome State Fault Refusal :=
  lanewise i gd s fun g _ ls => .group s (ls.foldl (fun acc l => acc.wrP l d.toNat (f g l)) g)

/-- A uniform word that writes a value of `w` scalar registers. -/
def uniWrite (i : Instr) (gd : Guard) (d : Reg) (w : Nat) (s : State) (f : Group → Nat) : Host.Outcome State Fault Refusal :=
  uniform i gd s fun g _ => .group s (g.wrSs d.toNat w (f g))

/-- A step of the hardware that changes the state when it is enabled and nothing otherwise. -/
def event (s : State) (s' : Option State) : Host.Outcome State Fault Refusal := .next (s'.getD s)

end Sys2Proof.Machine
end

