-- ==== Sys2Proof/Machine/Flags.lean ====
section
/-! DEFINITION. Number formats, exact values, rounding and the exception flags (08 R140 to R157; 02 R29, R30). -/

namespace Sys2Proof.Machine

/-- A set of FPSTAT flags (02 R30). -/
abbrev Flags := BitVec 5
def NV : Flags := 1
def DZ : Flags := 2
def OF : Flags := 4
def UF : Flags := 8
def NX : Flags := 16

/-- A floating-point format (08 R140): fraction bits, exponent bits, and whether it is one of the 8-bit formats. -/
structure Fmt where
  frac : Nat
  exp : Nat
  narrow : Bool
deriving DecidableEq, Repr

def fmtOf : FTy → Fmt
  | .f64 => ⟨52, 11, false⟩
  | .f32 => ⟨23, 8, false⟩
  | .f16 => ⟨10, 5, false⟩
  | .bf16 => ⟨7, 8, false⟩
  | .f8a => ⟨3, 4, true⟩
  | .f8b => ⟨2, 5, true⟩

def Fmt.bias (f : Fmt) : Int := 2 ^ (f.exp - 1) - 1
/-- Precision, the leading bit counted (08 R140). -/
def Fmt.p (f : Fmt) : Nat := f.frac + 1
def Fmt.emin (f : Fmt) : Int := 1 - f.bias
/-- The width of an encoding. -/
def Fmt.bits (f : Fmt) : Nat := 1 + f.exp + f.frac
/-- The exponent of the spacing of the subnormals. -/
def Fmt.qmin (f : Fmt) : Int := f.emin - f.frac

/-- F8A has an ordinary top exponent (08 R142). -/
def Fmt.isF8a (f : Fmt) : Bool := f.narrow && f.exp == 4

/-- The encoding of the largest finite value (08 R140), without its sign. -/
def Fmt.maxEnc (f : Fmt) : Nat := if f.isF8a then 0x7E else (2 ^ f.exp - 1) * 2 ^ f.frac - 1

/-- The infinity code of a format that has one, without its sign. -/
def Fmt.infEnc (f : Fmt) : Nat := (2 ^ f.exp - 1) * 2 ^ f.frac

/-- The canonical NaN (08 R141 to R143). -/
def Fmt.canon (f : Fmt) : Nat :=
  if f.isF8a then 0x7F else if f.narrow then 0x7E else f.infEnc + 2 ^ (f.frac - 1)

/-- The sign bit of a format. -/
def Fmt.signBit (f : Fmt) : Nat := 2 ^ (f.exp + f.frac)

/-- A decoded value (08 R146): a NaN with its sign, its quiet mark and the fraction bits below the quiet bit with their count; an infinity;
or the exact value (−1)^neg × m × 2^e, a zero with its sign. -/
inductive FVal where
  | nan (neg quiet : Bool) (payload bits : Nat)
  | inf (neg : Bool)
  | fin (neg : Bool) (m : Nat) (e : Int)
deriving DecidableEq, Repr

def FVal.isNan : FVal → Bool
  | .nan .. => true
  | _ => false

def FVal.isSnan : FVal → Bool
  | .nan _ q _ _ => !q
  | _ => false

def FVal.isInf : FVal → Bool
  | .inf _ => true
  | _ => false

def FVal.isZero : FVal → Bool
  | .fin _ 0 _ => true
  | _ => false

def FVal.neg : FVal → Bool
  | .nan n _ _ _ => n
  | .inf n => n
  | .fin n _ _ => n

/-- The value with its sign changed (09 R165: −xb). -/
def FVal.negate : FVal → FVal
  | .nan n q p b => .nan n q p b
  | .inf n => .inf (!n)
  | .fin n m e => .fin (!n) m e

/-- `Decode` (08 R146). Bits of `x` above the format are ignored (09 R161). -/
def Fmt.decode (f : Fmt) (x : Nat) : FVal :=
  let neg := bitOf x (f.exp + f.frac)
  let ex := bitsOf x f.frac f.exp
  let fr := bitsOf x 0 f.frac
  if ex = 2 ^ f.exp - 1 ∧ (!f.isF8a ∨ fr = 7) then
    if f.isF8a then .nan neg true 0 0
    else if fr = 0 then (if f.narrow then .fin neg (2 ^ (f.frac + 1) - 1) (f.emin + 2 ^ f.exp - 3 - f.frac) else .inf neg)
    else if f.narrow then .nan neg true 0 0
    else .nan neg (bitOf fr (f.frac - 1)) (bitsOf fr 0 (f.frac - 1)) (f.frac - 1)
  else if ex = 0 then .fin neg fr f.qmin
  else .fin neg (2 ^ f.frac + fr) (f.qmin + ex - 1)

/-- The sign of an encoding set. -/
def Fmt.signed (f : Fmt) (neg : Bool) (enc : Nat) : Nat := if neg then f.signBit + enc else enc

/-- A rounding mode and the saturation in effect (02 R29, 09 R162). -/
structure RM where
  mode : Rnd
  sat : Bool
deriving DecidableEq, Repr

/-- Nearest-even without saturation. -/
def RM.nearest : RM := ⟨.rn, false⟩

/-- Whether a magnitude rounds up: the last kept bit is odd, the rest against a half as an ordering, whether the rest is zero. -/
def roundsUp (mode : Rnd) (neg odd : Bool) (rest : Ordering) (exact : Bool) : Bool :=
  match mode with
  | .rz => false
  | .rp => !exact && !neg
  | .rm => !exact && neg
  | _ => rest == .gt || (rest == .eq && odd)

/-- The comparison of naturals as an ordering. -/
def natOrd (a b : Nat) : Ordering := if a < b then .lt else if a = b then .eq else .gt

/-- An encoding and the flags that forming it raised. -/
abbrev FRes := Nat × Flags

/-- `RoundTo` of a nonzero real (08 R147, R148). The real is m × 2^e when `sticky` is false, and lies strictly between m × 2^e and
(m + 1) × 2^e when it is true; the caller then gives m with at least two bits more than the precision. -/
def Fmt.roundReal (f : Fmt) (r : RM) (neg : Bool) (m : Nat) (e : Int) (sticky : Bool) : FRes :=
  let lead : Int := e + m.log2
  let q : Int := (if lead < f.emin then f.emin else lead) - f.frac
  let sh := (q - e).toNat
  let keep := if e < q then m / 2 ^ sh else m * 2 ^ (e - q).toNat
  let rest := if e < q then m % 2 ^ sh else 0
  let exact := rest == 0 && !sticky
  let ord := if e < q then (match natOrd (2 * rest) (2 ^ sh) with
      | .eq => if sticky then .gt else .eq
      | o => o) else .lt
  let up := roundsUp r.mode neg (keep % 2 == 1) ord exact
  let k := if up then keep + 1 else keep
  let enc := k + (q - f.qmin).toNat * 2 ^ f.frac
  if f.maxEnc < enc then
    let away := match r.mode with
      | .rz => false
      | .rp => !neg
      | .rm => neg
      | _ => true
    if !f.narrow && away && !r.sat then (f.signed neg f.infEnc, OF ||| NX) else (f.signed neg f.maxEnc, OF ||| NX)
  else
    (f.signed neg enc, if exact then 0 else if k < 2 ^ f.frac then UF ||| NX else NX)

/-- `RoundTo` of a NaN (08 R148, R149). -/
def Fmt.roundNan (f : Fmt) (neg quiet : Bool) (payload bits : Nat) : FRes :=
  let fl := if quiet then 0 else NV
  if f.narrow then (f.signed neg f.canon, fl)
  else
    let w := f.frac - 1
    let pay := if bits ≤ w then payload * 2 ^ (w - bits) else payload / 2 ^ (bits - w)
    (f.signed neg (f.canon + pay), fl)

/-- `RoundTo` (08 R147 to R149). -/
def Fmt.roundTo (f : Fmt) (r : RM) : FVal → FRes
  | .nan n q p b => f.roundNan n q p b
  | .inf n => if f.narrow then (f.signed n f.maxEnc, OF ||| NX) else (f.signed n f.infEnc, 0)
  | .fin n m e => if m = 0 then (f.signed n 0, 0) else f.roundReal r n m e false

/-- The canonical NaN with NV. -/
def Fmt.invalid (f : Fmt) : FRes := (f.canon, NV)

/-! ### Exact arithmetic -/

/-- A finite value as an integer multiple of 2^e, for e at or below its own exponent. -/
def FVal.scaled (x : FVal) (e : Int) : Int :=
  match x with
  | .fin n m ex => (if n then -1 else 1) * ((m : Int) * 2 ^ (ex - e).toNat)
  | _ => 0

/-- The exponent of a finite value. -/
def FVal.exp : FVal → Int
  | .fin _ _ e => e
  | _ => 0

/-- An exact nonzero integer multiple of 2^e as a value. -/
def FVal.ofScaled (x e : Int) : FVal := .fin (x < 0) x.natAbs e

/-- The signed zero that the zero rule gives for terms whose sum is zero (08 R153). -/
def zeroSign (mode : Rnd) (terms : List FVal) : Bool :=
  let allNeg := terms.all fun t => t.isZero && t.neg
  let allPos := terms.all fun t => t.isZero && !t.neg
  if allNeg then true else if allPos || mode != .rm then false else true

/-- The lowest exponent of the terms. -/
def lowExp (ts : List FVal) : Int := ts.foldl (fun m t => if t.exp < m then t.exp else m) (ts.headD (.fin false 0 0)).exp

/-- The exact sum of finite terms; a zero sum takes the sign of the zero rule. -/
def exactSum (mode : Rnd) (ts : List FVal) : FVal :=
  let e := lowExp ts
  let s := ts.foldl (fun a t => a + t.scaled e) (0 : Int)
  if s = 0 then .fin (zeroSign mode ts) 0 e else .ofScaled s e

/-- The exact product of two values neither of which is a NaN, nor a zero times an infinity. -/
def exactMul (x y : FVal) : FVal :=
  match x, y with
  | .fin a m e, .fin b n k => .fin (a != b) (m * n) (e + k)
  | _, _ => .inf (x.neg != y.neg)

/-- Zero times an infinity. -/
def zeroInf (x y : FVal) : Bool := (x.isZero && y.isInf) || (x.isInf && y.isZero)

/-- The sum of terms none of which is a NaN: opposite infinities are invalid, an infinity wins, and the exact sum is rounded once
(08 R153, 09 R165). -/
def Fmt.sum (f : Fmt) (r : RM) (ts : List FVal) : FRes :=
  let pos := ts.any fun t => t.isInf && !t.neg
  let neg := ts.any fun t => t.isInf && t.neg
  if pos && neg then f.invalid
  else if pos || neg then f.roundTo r (.inf neg)
  else f.roundTo r (exactSum r.mode ts)

/-- The first NaN of the operands written by R149, and NV for any signalling one (09 R163). -/
def Fmt.nanRule (f : Fmt) (xs : List FVal) (k : FRes) : FRes :=
  match xs.find? FVal.isNan with
  | some x => ((f.roundTo .nearest x).1, if xs.any FVal.isSnan then NV else 0)
  | none => k

/-- `fadd` (09 R165). -/
def Fmt.add (f : Fmt) (r : RM) (x y : FVal) : FRes := f.nanRule [x, y] (f.sum r [x, y])

/-- `fmul` (09 R165). -/
def Fmt.mul (f : Fmt) (r : RM) (x y : FVal) : FRes :=
  f.nanRule [x, y] (if zeroInf x y then f.invalid else f.roundTo r (exactMul x y))

/-- `ffma` (09 R165): a product of zero and infinity raises NV whatever c holds. -/
def Fmt.fma (f : Fmt) (r : RM) (x y z : FVal) : FRes :=
  if zeroInf x y then
    let k := f.nanRule [x, y, z] f.invalid
    (k.1, k.2 ||| NV)
  else f.nanRule [x, y, z] (f.sum r [exactMul x y, z])

/-- One dot group (08 R153) over already scaled operands. -/
def Fmt.dot (f : Fmt) (r : RM) (acc : FVal) (ps : List (FVal × FVal)) : FRes :=
  let ops := acc :: ps.flatMap fun p => [p.1, p.2]
  if ops.any FVal.isNan then (f.canon, if ops.any FVal.isSnan then NV else 0)
  else if ps.any fun p => zeroInf p.1 p.2 then f.invalid
  else f.sum r (acc :: ps.map fun p => exactMul p.1 p.2)

/-- A quotient of nonzero finite magnitudes with enough bits and its sticky mark: m × 2^e ≤ a / b. -/
def quotient (am : Nat) (ae : Int) (bm : Nat) (be : Int) (prec : Nat) : Nat × Int × Bool :=
  let sh := prec + 3 + bm.log2 + 1
  let n := am * 2 ^ sh
  (n / bm, ae - be - sh, n % bm != 0)

/-- `fdiv` (09 R166). -/
def Fmt.div (f : Fmt) (r : RM) (x y : FVal) : FRes :=
  f.nanRule [x, y] <|
    match x, y with
    | .fin a m e, .fin b n k =>
      if m = 0 ∧ n = 0 then f.invalid
      else if n = 0 then (f.signed (a != b) f.infEnc, DZ)
      else if m = 0 then (f.signed (a != b) 0, 0)
      else
        let (qm, qe, st) := quotient m e n k f.p
        f.roundReal r (a != b) qm qe st
    | .inf _, .inf _ => f.invalid
    | .inf a, .fin b _ _ => (f.signed (a != b) f.infEnc, 0)
    | .fin a _ _, .inf b => (f.signed (a != b) 0, 0)
    | _, _ => (f.canon, 0)

/-- The square root of m × 2^e with enough bits and its sticky mark. -/
def rootBits (m : Nat) (e : Int) (prec : Nat) : Nat × Int × Bool :=
  let sh := 2 * (prec + 3) + (if (e - 2 * (prec + 3)) % 2 = 0 then 0 else 1)
  let n := m * 2 ^ sh
  (n.sqrt, (e - sh) / 2, n.sqrt * n.sqrt != n)

/-- `fsqrt` (09 R166). -/
def Fmt.sqrt (f : Fmt) (r : RM) (x : FVal) : FRes :=
  f.nanRule [x] <|
    match x with
    | .fin n 0 _ => (f.signed n 0, 0)
    | .inf false => (f.infEnc, 0)
    | .fin false m e =>
      let (qm, qe, st) := rootBits m e f.p
      f.roundReal r false qm qe st
    | _ => f.invalid

/-- The order of two values neither of which is a NaN; −0 equals +0. -/
def FVal.cmp (x y : FVal) : Ordering :=
  match x, y with
  | .inf a, .inf b => if a = b then .eq else if a then .lt else .gt
  | .inf a, _ => if a then .lt else .gt
  | _, .inf b => if b then .gt else .lt
  | x, y =>
    let e := lowExp [x, y]
    if x.scaled e < y.scaled e then .lt else if x.scaled e = y.scaled e then .eq else .gt

/-- The order in which −0 lies below +0 (09 R167). -/
def FVal.below (x y : FVal) : Bool := x.cmp y == .lt || (x.isZero && y.isZero && x.neg && !y.neg)

/-- `fmin` and `fmax` choose an operand's encoding (09 R167). -/
def Fmt.minMax (f : Fmt) (isMin : Bool) (a b : Nat) : FRes :=
  let x := f.decode a
  let y := f.decode b
  let fl := if x.isSnan || y.isSnan then NV else 0
  let pick :=
    if x.isNan && y.isNan then f.canon
    else if x.isNan then b
    else if y.isNan then a
    else if (if isMin then y.below x else x.below y) then b else a
  (pick % 2 ^ f.bits, fl)

/-- A value rounded to an integer in a mode (08 R151, 09 R171): the integer and whether it is exact. -/
def roundInt (mode : Rnd) (neg : Bool) (m : Nat) (e : Int) : Int × Bool :=
  if 0 ≤ e then ((if neg then -1 else 1) * ((m : Int) * 2 ^ e.toNat), true)
  else
    let sh := (-e).toNat
    let keep := m / 2 ^ sh
    let rest := m % 2 ^ sh
    let up := roundsUp mode neg (keep % 2 == 1) (natOrd (2 * rest) (2 ^ sh)) (rest == 0)
    let k : Int := if up then (keep : Int) + 1 else keep
    (if neg then -k else k, rest == 0)

/-- A conversion to an integer of range lo to hi (08 R151), as an integer, and its flags. -/
def toInteger (mode : Rnd) (lo hi : Int) (x : FVal) : Int × Flags :=
  match x with
  | .nan .. => (0, NV)
  | .inf n => (if n then lo else hi, NV)
  | .fin neg m e =>
    let (n, exact) := roundInt mode neg m e
    if n < lo then (lo, NV) else if hi < n then (hi, NV) else (n, if exact then 0 else NX)

/-- An integer as an exact value (08 R152). -/
def FVal.ofInt (x : Int) : FVal := .fin (x < 0) x.natAbs 0

/-- The codes of FMT's format fields (02 R27). -/
def fmtOfCode (c : Nat) : Option FTy :=
  match c with
  | 0 => some .f64
  | 1 => some .f32
  | 2 => some .f16
  | 3 => some .bf16
  | 4 => some .f8a
  | 5 => some .f8b
  | _ => none

/-- FMT.RM (02 R27). -/
def fmtRm (fmt : Word64) : Rnd :=
  match bitsOf fmt.toNat 12 2 with
  | 0 => .rn
  | 1 => .rz
  | 2 => .rp
  | _ => .rm

/-- FMT.SAT (02 R27). -/
def fmtSat (fmt : Word64) : Bool := fmt.getLsbD 14

/-- The rounding of a word (09 R162): its modifier or FMT.RM, its SAT bit or FMT.SAT. -/
def roundOf (fmt : Word64) (r : Rnd) (sat : Bool) : RM :=
  ⟨match r with
    | .dyn => fmtRm fmt
    | m => m, sat || fmtSat fmt⟩

/-- Flags raised in FPSTAT (02 R30). -/
def Group.raise (g : Group) (f : Flags) : Group := { g with fpstat := g.fpstat ||| f }

end Sys2Proof.Machine
end

