-- ==== Sys2Proof/Machine/Operands.lean ====
section
/-! DEFINITION. Operand forms (03 R47, R49; 06 R87): sources of lane and uniform words, typed readings, addresses. -/

namespace Sys2Proof.Machine

/-- Bits of a type (06 R87). -/
def tyW : IntTy → Nat
  | .b32 | .s32 | .n32 => 32
  | .b64 | .s64 | .n64 => 64

/-- The type reads two's complement (06 R87). -/
def tySigned : IntTy → Bool
  | .s32 | .s64 => true
  | _ => false

/-- The lowest value of a type (06 R87). -/
def tyLo (t : IntTy) : Int := if tySigned t then -(2 ^ (tyW t - 1)) else 0
/-- The highest value of a type (06 R87). -/
def tyHi (t : IntTy) : Int := if tySigned t then 2 ^ (tyW t - 1) - 1 else 2 ^ tyW t - 1

/-- A value read as the type reads it (06 R87). -/
def tyRead (t : IntTy) (x : Nat) : Int := if tySigned t then signExt x (tyW t) else (x % 2 ^ tyW t : Nat)

/-- A lane source of `w` registers (03 R47): a scalar source gives every lane the same value. -/
def Group.src (g : Group) (x : Src) (w lane : Nat) : Nat :=
  match x with
  | .vec n => g.rdVs lane n.toNat w
  | .sca n => g.rdSs n.toNat w

/-- The bits of a value below a format's width (09 R161). -/
def Group.fsrc (g : Group) (x : Src) (t : FTy) (lane : Nat) : FVal := (fmtOf t).decode (g.src x t.width lane % 2 ^ (fmtOf t).bits)

/-- The raw encoding of a floating-point source. -/
def Group.fbits (g : Group) (x : Src) (t : FTy) (lane : Nat) : Nat := g.src x t.width lane % 2 ^ (fmtOf t).bits

/-- The address of a lane's access (03 R49), as an integer: `bw` is 2 for a 64-bit base and 1 for a scratchpad base. -/
def Group.addrOf (g : Group) (m : MAddr) (bw size lane : Nat) : Int :=
  let base := if m.baseUniform then g.rdSs m.base.toNat bw else g.rdVs lane m.base.toNat bw
  let index : Int :=
    if m.indexUniform then (if m.index = 0xFF then 0 else signExt (g.rdS m.index.toNat).toNat 32)
    else signExt (g.rdV lane m.index.toNat).toNat 32
  base + index * (if m.scale then size else 1) + signExt m.offset.toNat 16

/-- The address of a uniform access (12 R218). -/
def Group.addrOfU (g : Group) (m : MAddr) (size : Nat) : Int :=
  let index : Int := if m.index = 0xFF then 0 else signExt (g.rdS m.index.toNat).toNat 32
  g.rdSs m.base.toNat 2 + index * (if m.scale then size else 1) + signExt m.offset.toNat 16

/-! ### Integer results (06 R90 to R105) -/

/-- One wrap or saturation at the end (06 R90). -/
def finish (t : IntTy) (sat : Bool) (x : Int) : Nat := bitsInt (if sat then satInt x (tyLo t) (tyHi t) else x) (tyW t)

/-- `mulh` (06 R91). -/
def mulHigh (t : IntTy) (a b : Nat) : Nat := bitsInt (tyRead t a * tyRead t b / 2 ^ tyW t) (tyW t)

/-- `min` and `max` (06 R93). -/
def pickMinMax (t : IntTy) (isMin : Bool) (a b : Nat) : Nat :=
  if (isMin ∧ tyRead t b < tyRead t a) ∨ (¬ isMin ∧ tyRead t a < tyRead t b) then b else a

/-- The shifts (06 R99). -/
inductive ShiftOp where
  | shl | shr | sar | rot
deriving DecidableEq, Repr

def shift (op : ShiftOp) (w a n : Nat) : Nat :=
  let s := a % 2 ^ w
  match op with
  | .shl => if w ≤ n then 0 else s * 2 ^ n % 2 ^ w
  | .shr => if w ≤ n then 0 else s / 2 ^ n
  | .sar => bitsInt (signExt s w / 2 ^ (if w ≤ n then w - 1 else n)) w
  | .rot => s * 2 ^ (n % w) % 2 ^ w + s / 2 ^ (w - n % w)

/-- The field of `bfe` and `bfi` clamped to the width (06 R100): position and length. -/
def field (w pos len : Nat) : Nat × Nat :=
  let p := Nat.min pos w
  (p, Nat.min len (w - p))

/-- `bfe` (06 R100). -/
def extractField (t : IntTy) (a pos len : Nat) : Nat :=
  let (p, n) := field (tyW t) pos len
  if n = 0 then 0
  else
    let x := bitsOf (a % 2 ^ tyW t) p n
    if tySigned t then bitsInt (signExt x n) (tyW t) else x

/-- `bfi` (06 R101). -/
def insertField (w old a pos len : Nat) : Nat :=
  let (p, n) := field w pos len
  old % 2 ^ p + (a % 2 ^ n) * 2 ^ p + old / 2 ^ (p + n) * 2 ^ (p + n)

/-- `popc` (06 R102). -/
def popCount (w x : Nat) : Nat := ((List.range w).filter fun i => bitOf x i).length

/-- `clz` (06 R102). -/
def countLeading (w x : Nat) : Nat := if x % 2 ^ w = 0 then w else w - 1 - (x % 2 ^ w).log2

/-- `brev` (06 R102). -/
def bitReverse (w x : Nat) : Nat := (List.range w).foldl (fun acc i => if bitOf x i then acc + 2 ^ (w - 1 - i) else acc) 0

/-- `lop3` (06 R98). -/
def lop3Value (tt : BitVec 8) (a b c : Nat) : Nat :=
  (List.range 32).foldl (fun x i =>
    let k := (bitOf a i).toNat + (bitOf b i).toNat * 2 + (bitOf c i).toNat * 4
    if tt.getLsbD k then x + 2 ^ i else x) 0

/-- `prmt` (06 R103). -/
def permute (a b c : Nat) : Nat :=
  let s := a % 2 ^ 32 + b % 2 ^ 32 * 2 ^ 32
  (List.range 4).foldl (fun x i =>
    let sl := bitsOf c (8 * i) 8
    let e := bitsOf s (8 * (sl % 8)) 8
    let r := match sl / 8 % 4 with
      | 0 => e
      | 1 => 0
      | 2 => if 128 ≤ e then 255 else 0
      | _ => 255
    x + r * 2 ^ (8 * i)) 0

/-- `sext` (06 R104). -/
def signExtend (w a n : Nat) : Nat := if n = 0 then 0 else if w ≤ n then a % 2 ^ w else bitsInt (signExt a n) w

/-- `dp4` (06 R96). -/
def dotBytes (t : IntTy) (t2 : ByteTy) (sat : Bool) (a b c : Nat) : Nat :=
  let el (x i : Nat) : Int := match t2 with
    | .s8 => signExt (bitsOf x (8 * i) 8) 8
    | .n8 => bitsOf x (8 * i) 8
  finish t sat ((List.range 4).foldl (fun acc i => acc + el a i * el b i) (tyRead t c))

/-- `sad` (06 R95). -/
def absDiffAdd (t : IntTy) (a b c : Nat) : Nat :=
  bitsInt (((tyRead t a - tyRead t b).natAbs : Int) + (c % 2 ^ 32 : Nat)) 32

/-- The integer comparisons (06 R105). The codes `.num` and `.nan` are refused before (05 R78). -/
def compareInt (cc : Cc) (a b : Int) : Bool :=
  match cc with
  | .eq => a == b
  | .ne => a != b
  | .lt => a < b
  | .le => a ≤ b
  | .gt => b < a
  | .ge => b ≤ a
  | .num | .nan => false

/-! ### Reductions and atomics (07 R136, 12 R222, 13 R248) -/

/-- The integer reading of a reduction type. -/
def redSigned : RedTy → Bool
  | .s32 | .s64 => true
  | _ => false

def redW : RedTy → Nat
  | .b32 | .s32 | .n32 | .f32 => 32
  | .b64 | .s64 | .n64 | .f64 => 64

/-- The floating-point format of a reduction type. -/
def redFmt : RedTy → Option FTy
  | .f32 => some .f32
  | .f64 => some .f64
  | _ => none

def redRead (t : RedTy) (x : Nat) : Int := if redSigned t then signExt x (redW t) else (x % 2 ^ redW t : Nat)

/-- The result of an atomic (12 R222, R223): `old`, the operand and the compare value as bits. A `red` at .f32 chooses as `fmin` and `fmax`
do (25 R448). -/
def atomicNew (op : AtomOp) (t : RedTy) (old b c : Nat) : Nat :=
  let w := redW t
  match op with
  | .add => match redFmt t with
    | some f => ((fmtOf f).add .nearest ((fmtOf f).decode old) ((fmtOf f).decode b)).1
    | none => (old + b) % 2 ^ w
  | .min => match redFmt t with
    | some f => ((fmtOf f).minMax true old b).1
    | none => if redRead t b < redRead t old then b % 2 ^ w else old % 2 ^ w
  | .max => match redFmt t with
    | some f => ((fmtOf f).minMax false old b).1
    | none => if redRead t old < redRead t b then b % 2 ^ w else old % 2 ^ w
  | .and => (old &&& b) % 2 ^ w
  | .or => (old ||| b) % 2 ^ w
  | .xor => (old ^^^ b) % 2 ^ w
  | .exch => b % 2 ^ w
  | .cas => if old % 2 ^ w = c % 2 ^ w then b % 2 ^ w else old % 2 ^ w

/-- One step of a `red` or of a merge (13 R248, 25 R448). -/
def foldNew (op : RedOp) (t : RedTy) (old x : Nat) : Nat :=
  match op with
  | .add => atomicNew .add t old x 0
  | .min => atomicNew .min t old x 0
  | .max => atomicNew .max t old x 0
  | .and => atomicNew .and t old x 0
  | .or => atomicNew .or t old x 0
  | .xor => atomicNew .xor t old x 0

/-- The value that changes nothing under an operation (log entry 12). -/
def foldIdentity (op : RedOp) (t : RedTy) : Nat :=
  match redFmt t, op with
  | some f, .add => (fmtOf f).signBit
  | some f, .min => (fmtOf f).infEnc
  | some f, .max => (fmtOf f).signed true (fmtOf f).infEnc
  | none, .min => if redSigned t then 2 ^ (redW t - 1) - 1 else 2 ^ redW t - 1
  | none, .max => if redSigned t then 2 ^ (redW t - 1) else 0
  | _, .and => 2 ^ redW t - 1
  | _, _ => 0

end Sys2Proof.Machine
end

