-- ==== Sys2Proof/Machine/Stack.lean ====
section
/-! DEFINITION. The stacks and the L2: where a local address lies (18 R331, R332), bytes, poison and keys (18 R341 to R344),
L2 sectors (18 R330), write-backs. -/

namespace Sys2Proof.Machine

/-! ### Addresses -/

/-- The home package of a domain address (24 R415). -/
def homeOf (pa : Nat) : Nat := pa / 2 ^ 51 % 512
/-- The local address of a domain address (24 R415). -/
def lpaOf (pa : Nat) : Nat := pa % 2 ^ 51
/-- The domain address of a local address of a package. -/
def domAddr (pkg lpa : Nat) : Nat := pkg * 2 ^ 51 + lpa

/-- 720 GiB (18 R331). -/
def dataEnd : Nat := 0xB400000000
/-- The start of the directory region (24 R416). -/
def dirBase : Nat := 0xAE60000000
/-- 12 MiB: a row unit (18 R331). -/
def rowUnit : Nat := 0xC00000

/-- The place of a local address in the stacks (18 R331). -/
structure Place where
  chan : Nat
  row : Nat
  bg : Nat
  bank : Nat
  col : Nat
  /-- It lies in a bank-linear record: its 1 KiB block is a DRAM row (19 R351). -/
  linear : Bool
deriving DecidableEq, Repr

/-- `map(pa)` of 18 R331. -/
def mapDefault (pa : Nat) : Place :=
  let g := pa / 256
  let q := g / 384
  let r := g % 384
  let h := (q % 512) ^^^ (q / 512 % 512) ^^^ (q / 262144 % 512)
  let row := q / 128
  { chan := (r + h) % 384, row := row, bg := (q / 4 % 8) ^^^ (row % 8), bank := (q / 32 % 4) ^^^ (row / 8 % 4),
    col := (q % 4) * 256 + pa % 256, linear := false }

/-- The place of a bank-linear address (18 R332). -/
def mapLinear (sh : Shape) (pa : Nat) : Place :=
  let o := pa - rowUnit * sh.base
  let m := o / (rowUnit * sh.param)
  let w := o % (rowUnit * sh.param) / 1024
  { chan := w % 384, bg := w / 384 % 8, bank := w / 3072 % 4, row := sh.base + m * sh.param + w / 12288, col := o % 1024,
    linear := true }

/-- The record that covers a local address. -/
def MemSys.shapeOf (ms : MemSys) (pa : Nat) : Option Shape :=
  (Tbl.vals ms.shapes).find? fun sh => sh.kind != 0 && rowUnit * sh.base ≤ pa && pa < rowUnit * (sh.base + sh.units)

/-- The place of a local address under the shape records (18 R331, R332). -/
def MemSys.place (ms : MemSys) (pa : Nat) : Place :=
  match ms.shapeOf pa with
  | some sh =>
    if sh.kind = 2 then mapLinear sh pa
    else
      let p := mapDefault pa
      { p with bg := p.bg ^^^ ((pa - rowUnit * sh.base) / (256 * sh.param) % 8) }
  | none => mapDefault pa

/-- The stack of a local address. -/
def MemSys.stackOf (ms : MemSys) (pa : Nat) : Nat := (ms.place pa).chan / 32

/-! ### Bytes of the stacks -/

/-- What an unlisted byte reads as: 0 (log entry 2), or, where a change has left the contents unspecified, a free value (18 R334). -/
def Mem.unlisted (m : Mem) (a : Nat) : Byte :=
  match m.loose.find? fun r => r.1 ≤ a && a < r.1 + r.2.1 with
  | some r => Config.freeByte r.2.2 a
  | none => 0

def Mem.byte (m : Mem) (a : Nat) : Byte := Tbl.getD m.bytes a (m.unlisted a)

def Mem.setByte (m : Mem) (a : Nat) (x : Byte) : Mem := { m with bytes := Tbl.setD m.bytes a x (m.unlisted a) }

/-- The canonical form of memory. -/
def Mem.wf (m : Mem) : Bool := Tbl.rising m.bytes && m.bytes.all fun c => c.2 != m.unlisted c.1

/-- The contents of a range become unspecified (18 R334). -/
def Mem.loosen (m : Mem) (a n name : Nat) : Mem :=
  { m with loose := (a, n, name) :: m.loose, bytes := m.bytes.filter fun c => !(a ≤ c.1 && c.1 < a + n) }

/-- `n` bytes from `a` on, the first the least significant (01 R7). -/
def Mem.rd (m : Mem) (a : Nat) : Nat → Nat
  | 0 => 0
  | n + 1 => (m.byte a).toNat + 256 * m.rd (a + 1) n

/-- `n` bytes of a value written from `a` on. -/
def Mem.wr (m : Mem) (a : Nat) : Nat → Nat → Mem
  | 0, _ => m
  | n + 1, x => (m.setByte a (BitVec.ofNat 8 x)).wr (a + 1) n (x / 256)

/-- The value of a byte list, the first the least significant. -/
def leValue : List Byte → Nat
  | [] => 0
  | b :: t => b.toNat + 256 * leValue t

/-- The `n` bytes of a value. -/
def leBytes : Nat → Nat → List Byte
  | 0, _ => []
  | n + 1, x => BitVec.ofNat 8 x :: leBytes n (x / 256)

def State.mem (s : State) : Mem := s.memsys.mem
def State.setMem (s : State) (m : Mem) : State := { s with memsys := { s.memsys with mem := m } }
def State.setL2 (s : State) (t : Tbl L2Sec) : State := { s with memsys := { s.memsys with l2 := t } }

/-- The poison of a sector of the stacks: 0 none, 1 media, 2 integrity, 3 lost (18 R342, 24 R423). -/
def Mem.poisonOf (m : Mem) (sec : Nat) : Nat := Tbl.getD m.poison sec 0

/-- The symbols in error of a sector's codeword (18 R342). -/
def Mem.symsOf (m : Mem) (sec : Nat) : Nat := Tbl.getD m.syms sec 0

/-- The key id of a local address (18 R341). -/
def Mem.keyId (m : Mem) (lpa : Nat) : Nat := Tbl.getD m.keyIds (lpa / 0x200000) 0

/-- The sectors of a granule: `gran` is the local address div 128. -/
def secsOf (gran : Nat) : List Nat := [4 * gran, 4 * gran + 1, 4 * gran + 2, 4 * gran + 3]

/-! ### The DRAM cache layer (18 R335, R336) -/

/-- The set of a place in its channel's cache, the sector in its block, and the block's tag (18 R335). -/
def Place.dramSet (p : Place) : Nat := 128 * (4 * p.bg + p.bank) + p.row / 2 % 128
def Place.dramSec (p : Place) : Nat := 4 * (p.row % 2) + p.col / 256
def Place.dramTag (p : Place) : Nat := p.row / 256

/-- The place of a block in the table of the layer. -/
def dramKey (chan set way : Nat) : Nat := (chan * 4096 + set) * 4 + way

/-- The ways of a set that cache data: with partitioning, way 3 of sets 0 to 1023 holds context shadow storage (18 R336). -/
def State.dramWays (s : State) (set : Nat) : List Nat := if s.sched.partEn && set < 1024 then [0, 1, 2] else [0, 1, 2, 3]

/-- The way of a set that holds a block. -/
def State.dramHit (s : State) (p : Place) : Option Nat :=
  (s.dramWays p.dramSet).find? fun w => ((Tbl.find? s.memsys.dram (dramKey p.chan p.dramSet w)).map fun b => b.tag == p.dramTag).getD false

/-- The way that a new block of a set takes: a free one, else that of the least recently used block, whose dirty sectors are written back
(18 R335). -/
def State.dramVictim (s : State) (p : Place) : Nat :=
  let use (w : Nat) : Nat := ((Tbl.find? s.memsys.dram (dramKey p.chan p.dramSet w)).map fun b => b.used + 1).getD 0
  (s.dramWays p.dramSet).foldl (fun m w => if use w < use m then w else m) 0

/-- An access to a stack looks up the cache layer (18 R335): a hit is the block's latest use, a miss allocates the sector of 256 bytes, and a
write leaves it dirty. `Mem.bytes` holds what the two layers hold together, so a write-back moves no byte of it. -/
def State.dramAccess (s : State) (lpa : Nat) (write : Bool) : State :=
  let m := s.memsys
  let p := m.place lpa
  let bit := BitVec.ofNat 8 (2 ^ p.dramSec)
  let way := (s.dramHit p).getD (s.dramVictim p)
  let b := match s.dramHit p with
    | some w => (Tbl.find? m.dram (dramKey p.chan p.dramSet w)).getD ⟨p.dramTag, 0, 0, 0⟩
    | none => ⟨p.dramTag, 0, 0, 0⟩
  { s with memsys := { m with uses := m.uses + 1
                              dram := Tbl.put m.dram (dramKey p.chan p.dramSet way)
                                { b with valid := b.valid ||| bit, dirty := if write then b.dirty ||| bit else b.dirty, used := m.uses } } }

/-- The sectors of a block that a mask names leave the layer, or, kept, are written back to the data layer. -/
def DramBlock.release (b : DramBlock) (m : BitVec 8) (drop : Bool) : DramBlock :=
  { b with valid := if drop then b.valid &&& ~~~m else b.valid, dirty := b.dirty &&& ~~~m }

/-- The blocks that hold nothing are gone. -/
def sweepBlocks (t : Tbl DramBlock) : Tbl DramBlock := t.filter fun p => p.2.valid != 0

/-- The table of the layer changed; blocks that hold nothing are gone. -/
def State.setDram (s : State) (t : Tbl DramBlock) : State := { s with memsys := { s.memsys with dram := sweepBlocks t } }

/-- The cache sectors of `n` pieces of 256 bytes written back to the data layer, and dropped if asked for (18 R336). -/
def State.dramRelease (s : State) (lpa : Nat) (drop : Bool) : Nat → State
  | 0 => s
  | n + 1 =>
    let p := s.memsys.place lpa
    let s1 := match s.dramHit p with
      | some w => s.setDram (Tbl.upd s.memsys.dram (dramKey p.chan p.dramSet w) fun b => b.release (BitVec.ofNat 8 (2 ^ p.dramSec)) drop)
      | none => s
    s1.dramRelease (lpa + 256) drop n

/-- The row of a block's sectors 0 to 3; its sectors 4 to 7 lie in the next one (18 R335). -/
def dramRowOf (key : Nat) (b : DramBlock) : Nat := b.tag * 256 + 2 * (key / 4 % 128)

/-- Every cache sector of the rows from one on leaves the layer, the dirty ones written back (18 R334). -/
def State.dramDropRows (s : State) (row n : Nat) : State :=
  let inside (r : Nat) : Bool := row ≤ r && r < row + n
  s.setDram (s.memsys.dram.map fun p =>
    let r := dramRowOf p.1 p.2
    let b := if inside r then p.2.release 0x0F true else p.2
    (p.1, if inside (r + 1) then b.release 0xF0 true else b))

/-- Partitioning is enabled: the blocks of the ways that become shadow storage are written back and dropped (18 R336). -/
def State.dramShadow (s : State) : State :=
  s.setDram (List.filter (fun p : Nat × DramBlock => !(p.1 % 4 == 3 && p.1 / 4 % 4096 < 1024)) s.memsys.dram)

/-! ### Errors, keys and tags of the stacks (18 R341 to R344) -/

/-- A sector poisoned with a class; the stack's MERR records it (18 R343, R344). -/
def State.poisonSector (s : State) (sec cls : Nat) : State :=
  let s1 := s.setMem { s.mem with poison := Tbl.setD s.mem.poison sec cls 0 }
  let k := s.memsys.stackOf (sec * 32)
  let st := s.stack k
  s1.setStack k { st with lpa := sec * 32, cls := cls, valid := true, count := if st.count < 1023 then st.count + 1 else 1023 }

/-- A stack counts a corrected error of a channel, with those of the last millisecond (18 R343, R345). -/
def State.countCorrected (s : State) (lpa : Nat) : State :=
  let c := (s.memsys.place lpa).chan
  let k := s.stack (c / 32)
  s.setStack (c / 32) { k with ceTimes := (k.ceTimes.filter fun e => s.time < e.2 + 1000000) ++ [(c % 32, s.time)] }

/-- The mark of a codeword that has failed to decode. -/
def undecodable : Nat := 41

/-- The ECC of a sector decoded (18 R342, R343 step 1): up to 3 symbols are corrected; more may fail to decode, or decode to another
word (log entry 4). -/
def State.decodeSector (s : State) (sec : Nat) : State :=
  let n := s.mem.symsOf sec
  if n = 0 ∨ n = undecodable then s
  else if n ≤ 3 then s.countCorrected (sec * 32)
  else if Config.freeBool s.free then s.fresh.setMem { s.mem with syms := Tbl.setD s.mem.syms sec undecodable 0 }
  else s.fresh.setMem { (s.mem.loosen (sec * 32) 32 s.free) with syms := Tbl.del s.mem.syms sec, seals := Tbl.del s.mem.seals (sec / 4) }

/-- The keys of a local address, where its key id has some (18 R341, 23 R410). -/
def State.keysAt (s : State) (lpa : Nat) : Option (List Byte) := Tbl.find? s.memsys.memKeys (s.mem.keyId lpa)

/-- The tag of a granule is that of its sectors under the key id's present keys (18 R341): it was formed under the same keys. -/
def State.tagOk (s : State) (gran : Nat) : Bool :=
  s.mem.keyId (gran * 128) == 0 || ((s.keysAt (gran * 128)).isSome && Tbl.find? s.mem.seals gran == s.keysAt (gran * 128))

/-- A read of a granule from the stack makes its checks (18 R343): `gran` is the local address div 128. -/
def State.checkGranule (s0 : State) (gran : Nat) : State :=
  let s := (secsOf gran).foldl State.decodeSector s0
  let mark (s : State) (k cls : Nat) : State := if s.mem.poisonOf k = 0 then s.poisonSector k cls else s
  if (secsOf gran).any fun k => s.mem.symsOf k == undecodable then
    (secsOf gran).foldl (fun s' k => if s.mem.symsOf k = undecodable ∨ s.mem.keyId (gran * 128) ≠ 0 then mark s' k 1 else s') s
  else if !s.tagOk gran then (secsOf gran).foldl (fun s' k => mark s' k 2) s
  else s

/-- A granule read from its stack (18 R335, R343). -/
def State.stackRead (s : State) (gran : Nat) : State := (s.dramAccess (gran * 128) false).checkGranule gran

/-- A whole sector written as a part of a granule that is written whole (18 R344): its poison becomes `cls`. -/
def State.sectorWrite (s : State) (lpa x cls : Nat) : State :=
  s.setMem { (s.mem.wr lpa 32 x) with poison := Tbl.setD s.mem.poison (lpa / 32) cls 0, syms := Tbl.setD s.mem.syms (lpa / 32) 0 0 }

/-- A granule written has fresh check bytes and a fresh tag (18 R344). -/
def State.recode (s : State) (gran : Nat) : State :=
  s.setMem { s.mem with syms := (secsOf gran).foldl Tbl.del s.mem.syms
                        seals := match s.keysAt (gran * 128) with
                          | some k => if s.mem.keyId (gran * 128) = 0 then Tbl.del s.mem.seals gran else Tbl.put s.mem.seals gran k
                          | none => Tbl.del s.mem.seals gran }

/-- A write of `n` bytes inside one sector of the stacks (18 R344): the granule is read with its checks first; a write of the whole sector
clears its poison and carries `cls`; another keeps it. -/
def State.memWrite (s : State) (lpa n x cls : Nat) : State :=
  let s1 := ((s.stackRead (lpa / 128)).recode (lpa / 128)).dramAccess lpa true
  if lpa % 32 = 0 ∧ n = 32 then s1.sectorWrite lpa x cls else s1.setMem (s1.mem.wr lpa n x)

/-- A write of a granule's four sectors, each with its poison: nothing of it is read first (18 R344). -/
def State.memWriteGran (s : State) (gran : Nat) (xs : List (Nat × Nat)) : State :=
  (secsOf gran).zip xs |>.foldl (fun st p => st.sectorWrite (p.1 * 32) p.2.1 p.2.2) ((s.recode gran).dramAccess (gran * 128) true)

/-- The channel of a local address is in its retraining window: every access to it waits (18 R346). -/
def State.inWindow (s : State) (lpa : Nat) : Bool :=
  let c := (s.memsys.place lpa).chan
  (s.stack (c / 32)).active && (s.stack (c / 32)).chan == c % 32

/-! ### The L1 copies (12 R204) -/

/-- A core's L1 copy of a sector goes. -/
def CoreSt.dropSec (c : CoreSt) (sec : Nat) : CoreSt :=
  { c with lines := c.lines.filterMap fun l =>
      if l.line = sec / 2 then
        let m := l.secs &&& ~~~(BitVec.ofNat 2 (2 ^ (sec % 2)))
        if m = 0 then none else some { l with secs := m }
      else some l }

/-- Every L1 copy of a sector goes, but the core's that writes it (12 R204). -/
def State.l1Drop (s : State) (sec : Nat) (but : Option Nat) : State :=
  { s with cores := s.cores.map fun c => if some c.1 = but then c else (c.1, c.2.dropSec sec) }

/-! ### The L2 (18 R330) -/

/-- The L2's sector of a domain address div 32. -/
def State.l2? (s : State) (sec : Nat) : Option L2Sec := Tbl.find? s.memsys.l2 sec

/-- `n` bytes of a sector's data, from byte `off` on. -/
def secRd (data off n : Nat) : Nat := data / 256 ^ off % 256 ^ n

/-- A sector's data with `n` bytes from byte `off` on replaced. -/
def secWr (data off n x : Nat) : Nat :=
  data % 256 ^ off + 256 ^ off * (x % 256 ^ n) + 256 ^ (off + n) * (data / 256 ^ (off + n))

/-- The four sectors of a granule as bytes, from the L2 where it holds them, else from memory. -/
def State.granuleBytes (s : State) (pg : Nat) : List Byte :=
  [0, 1, 2, 3].flatMap fun i =>
    match s.l2? (4 * pg + i) with
    | some x => leBytes 32 x.data
    | none => leBytes 32 (s.mem.rd (lpaOf ((4 * pg + i) * 32)) 32)

/-- The poison codes of a granule's sectors, as `granuleBytes` would take them. -/
def State.granuleCodes (s : State) (pg : Nat) : List Nat :=
  [0, 1, 2, 3].map fun i => match s.l2? (4 * pg + i) with
    | some x => x.poison
    | none => s.mem.poisonOf (lpaOf ((4 * pg + i) * 32) / 32)

/-- A granule as it travels: its bytes, then the poison codes of its sectors (18 R343). -/
def State.granuleData (s : State) (pg : Nat) : List Byte := s.granuleBytes pg ++ (s.granuleCodes pg).map fun c => BitVec.ofNat 8 c

/-- A write-back, or an answer to a recall, sent to a granule's home, which has yet to answer it (24 R428). -/
def State.sendBack (s : State) (pa : Nat) (keep : Bool) (data : List Byte) : State :=
  let f := s.fabric
  { (s.emit (.writeBack f.nextReq pa keep data)) with
    fabric := { f with nextReq := f.nextReq + 1, backs := f.backs ++ [⟨f.nextReq, pa, keep, data⟩] } }

/-- The slice that holds a line, by its domain address div 256 (18 R330). -/
def sliceOf (line : Nat) : Nat := (mapDefault (lpaOf (line * 256))).chan / 3

/-- Two lines lie in one set of one slice (18 R330; the index of a set is not given: log entry 87). -/
def sameSet (a b : Nat) : Bool := sliceOf a == sliceOf b && Config.l2Set a % 768 == Config.l2Set b % 768

/-- A use of a line (18 R330); a line that the L2 does not hold yet is allocated. -/
def State.useLine (s : State) (line : Nat) : State :=
  let m := s.memsys
  { s with memsys := { m with uses := m.uses + 1
                              lines := Tbl.put m.lines line ⟨m.uses, ((Tbl.find? m.lines line).map fun l => l.keep).getD false⟩ } }

/-- The sectors of a line. -/
def lineSecs (line : Nat) : List Nat := (List.range 8).map fun k => 8 * line + k

/-- The L2 drops a sector, writing nothing; the L1 copies of it go too (12 R204), and a line without a sector is free. -/
def State.l2Drop (s : State) (sec : Nat) : State :=
  let t := Tbl.del s.memsys.l2 sec
  let s1 := s.l1Drop sec none
  { s1 with memsys := { s1.memsys with l2 := t
                                       lines := if (lineSecs (sec / 8)).any fun k => (Tbl.find? t k).isSome then s1.memsys.lines
                                         else Tbl.del s1.memsys.lines (sec / 8) } }

/-- A write of bytes inside one sector that the L2 holds. -/
def State.l2Write (s : State) (pa n x : Nat) : State :=
  match s.l2? (pa / 32) with
  | none => s
  | some y =>
    s.setL2 (Tbl.put s.memsys.l2 (pa / 32)
      { y with data := secWr y.data (pa % 32) n x, dirty := true, poison := if n = 32 then 0 else y.poison })

/-- The value of `n` bytes inside one sector as the L2, or else memory, holds them; used where no allocation is meant. -/
def State.peek (s : State) (pa n : Nat) : Nat :=
  match s.l2? (pa / 32) with
  | some x => secRd x.data (pa % 32) n
  | none => s.mem.rd (lpaOf pa) n

/-- Bytes of the package's own memory as the L2 or memory holds them. -/
def State.peekBytes (s : State) (pa : Nat) : Nat → List Byte
  | 0 => []
  | n + 1 => BitVec.ofNat 8 (s.peek pa 1) :: s.peekBytes (pa + 1) n

end Sys2Proof.Machine
end

