-- ==== Sys2Proof/Machine/Home.lean ====
section
/-! DEFINITION. The home of a granule and the requests to another home (24 R415 to R423, R427, R428), and reads, writes and atomics of
both apertures on physical addresses. -/

namespace Sys2Proof.Machine

/-- The outcome of an attempt on memory: done with a value, waiting for another package, or a cause with its syndrome and, where it is not
the access's own, the address it names. -/
inductive Try (α : Type) where
  | ok (s : State) (a : α)
  | wait (s : State)
  | bad (s : State) (cause synd : Nat) (addr : Option Nat := none)

/-- An attempt after another. -/
def Try.bind {α β : Type} (t : Try α) (f : State → α → Try β) : Try β :=
  match t with
  | .ok s a => f s a
  | .wait s => .wait s
  | .bad s c y a => .bad s c y a

/-- The state that an attempt leaves. -/
def Try.state {α : Type} : Try α → State
  | .ok s _ => s
  | .wait s => s
  | .bad s _ _ _ => s

/-! ### The domain (24 R415) -/

def State.domEnt (s : State) (p : Nat) : DomEnt := Tbl.getD s.fabric.dom p .reset
def State.cellOf (s : State) (p : Nat) : Nat := (s.domEnt p).cell
def State.ownCell (s : State) : Nat := s.cellOf s.fabric.self
/-- The packages of a cell. -/
def State.packagesOf (s : State) (k : Nat) : List Nat := (s.fabric.dom.filter fun p => p.2.valid && p.2.cell == k).map (·.1)
/-- The address is homed in another package. -/
def State.remote (s : State) (pa : Nat) : Bool := homeOf pa != s.fabric.self

/-! ### Directory entries (24 R417) -/

def State.dirEnt (s : State) (lg : Nat) : Option DirEnt := Tbl.find? s.fabric.dir lg
def State.setDir (s : State) (lg : Nat) (e : DirEnt) : State := { s with fabric := { s.fabric with dir := Tbl.put s.fabric.dir lg e } }
def State.delDir (s : State) (lg : Nat) : State := { s with fabric := { s.fabric with dir := Tbl.del s.fabric.dir lg } }
def State.setSupplied (s : State) (lg : Nat) (d : Option (List Byte)) : State :=
  { s with fabric := { s.fabric with supplied := match d with
    | some x => Tbl.put s.fabric.supplied lg x
    | none => Tbl.del s.fabric.supplied lg } }

/-- One bit set or cleared. -/
def withBit {n : Nat} (m : BitVec n) (i : Nat) (b : Bool) : BitVec n :=
  if b then m ||| BitVec.ofNat n (2 ^ i) else m &&& ~~~(BitVec.ofNat n (2 ^ i))

/-- The entry with a package's bit set or cleared (24 R417: PMASK in the home's cell, CVEC elsewhere). -/
def State.markHolder (s : State) (e : DirEnt) (p : Nat) (b : Bool) : DirEnt :=
  if s.cellOf p = s.ownCell then { e with pmask := withBit e.pmask (s.domEnt p).cidx b }
  else { e with cvec := withBit e.cvec (s.cellOf p) b }

/-- An entry with one holder. -/
def State.soleEntry (s : State) (st : DirSt) (cop p : Nat) : DirEnt :=
  s.markHolder { st := st, cop := cop, owner := if st = .c then 0 else p, pmask := 0, cvec := 0, used := s.tick } p true

/-- The packages that an entry's bits name. -/
def State.holders (s : State) (e : DirEnt) : List Nat :=
  (s.fabric.dom.filter fun d => d.2.valid &&
    (if d.2.cell = s.ownCell then e.pmask.getLsbD d.2.cidx else e.cvec.getLsbD d.2.cell)).map (·.1)

/-- No package holds the granule. -/
def DirEnt.empty (e : DirEnt) : Bool := e.pmask == 0 && e.cvec == 0

/-- An entry written; one that names no holder is freed, unless X (24 R420). -/
def State.putDir (s : State) (lg : Nat) (e : DirEnt) : State := if e.empty && e.st != .x then s.delDir lg else s.setDir lg e

/-- Recalls sent to packages that have none outstanding; the request waits (24 R418, R420). -/
def State.askHolders {α : Type} (s : State) (lg : Nat) (ps : List Nat) (share : Bool) : Try α :=
  let fresh := ps.filter fun p => !s.fabric.recalled.any fun r => r.1 == lg && r.2.1 == p
  .wait { s with
    out := s.out ++ fresh.map fun p => Msg.recall p (lg * 128) share
    fabric := { s.fabric with recalled := s.fabric.recalled ++ fresh.map fun p => (lg, p, share) } }

/-! ### Values at the home -/

/-- The domain granule of a local granule of this package. -/
def State.pgOf (s : State) (lg : Nat) : Nat := domAddr s.fabric.self (lg * 128) / 128

/-- A lost granule becomes fresh: zero bytes, no poison (24 R422, R423). -/
def State.freshen (s : State) (lg : Nat) : State :=
  ([0, 1, 2, 3].foldl (fun st i => st.l2Drop (4 * s.pgOf lg + i)) s).memWriteGran lg (List.replicate 4 (0, 0))

/-- The granule is marked lost in memory (24 R423). -/
def State.lostInMemory (s : State) (lg : Nat) : Bool := [0, 1, 2, 3].any fun i => s.mem.poisonOf (4 * lg + i) == 3

/-- The combining operation of a COP field (24 R417: OP in [2:0], TY in [7:3]). -/
def copOf (c : Nat) : RedOp × RedTy :=
  ((RedOp.ofCode3 (BitVec.ofNat 3 c)).getD .add, (RedTy.ofCode (BitVec.ofNat 5 (c / 8))).getD .b32)

/-- The COP field of an operation and a type. -/
def copCode (op : RedOp) (t : RedTy) : Nat := op.code.toNat + 8 * t.code.toNat

/-- One merge step per word of `w` bytes (13 R248): the partial's value combined into the line's. -/
def mergeWords (op : RedOp) (t : RedTy) (w : Nat) (base part : List Byte) : Nat → List Byte
  | 0 => []
  | n + 1 =>
    leBytes w (foldNew op t (leValue (base.take w)) (leValue (part.take w))) ++ mergeWords op t w (base.drop w) (part.drop w) n

/-- A partial combined into memory (13 R248, 24 R418); after its 128 bytes come the poison codes of its sectors, which memory takes (18
R340). -/
def State.mergePartial (s : State) (lg cop : Nat) (part : List Byte) : State :=
  let (op, t) := copOf cop
  let w := redW t / 8
  let s1 := (s.stackRead lg).recode lg
  let base := leBytes 128 (s1.mem.rd (lg * 128) 128)
  let s2 := (s1.setMem (s1.mem.wr (lg * 128) 128 (leValue (mergeWords op t w base part (128 / w))))).dramAccess (lg * 128) true
  ((secsOf lg).zip (part.drop 128)).foldl (fun st p =>
    if st.mem.poisonOf p.1 = 0 ∧ p.2 ≠ 0 then st.setMem { st.mem with poison := Tbl.setD st.mem.poison p.1 p.2.toNat 0 } else st) s2

/-- The partial of a granule held in C, with the value that changes nothing where nothing was folded (log entry 12). -/
def State.partialBytes (s : State) (pg : Nat) : List Byte :=
  [0, 1, 2, 3].flatMap fun i =>
    match s.l2? (4 * pg + i) with
    | some x =>
      let (op, t) := copOf x.cop
      let w := redW t / 8
      (List.range (32 / w)).flatMap fun k =>
        leBytes w (if bitOf x.valid (k * w) then secRd x.data (k * w) w else foldIdentity op t)
    | none => List.replicate 32 0

/-- A partial as it travels: its bytes, then the poison codes of its sectors (18 R340). -/
def State.partialData (s : State) (pg : Nat) : List Byte := s.partialBytes pg ++ (s.granuleCodes pg).map fun c => BitVec.ofNat 8 c

/-- The home's own partial, merged. -/
def State.mergeOwn (s : State) (lg cop : Nat) : State :=
  let pg := s.pgOf lg
  match s.l2? (4 * pg) with
  | some x =>
    if x.holder = .c then
      [0, 1, 2, 3].foldl (fun st i => st.l2Drop (4 * pg + i)) (s.mergePartial lg cop (s.partialData pg))
    else s
  | none => s

/-! ### Copies that leave the L2 (18 R330, 24 R418) -/

/-- A remote copy goes home (24 R418): dirty or owned copies are written back, partials sent, others dropped silently. The granule
leaves the L2 unless `keep`. -/
def State.returnGranule (s : State) (pg : Nat) (keep : Bool) : State :=
  match s.l2? (4 * pg) with
  | none => s
  | some x =>
    let s1 := if x.holder == .c then s.sendBack (pg * 128) false (s.partialData pg)
      else if x.holder == .m || x.holder == .o then s.sendBack (pg * 128) keep (s.granuleData pg)
      else s
    if keep && x.holder != .c then
      [0, 1, 2, 3].foldl (fun st i => match st.l2? (4 * pg + i) with
        | some y => st.setL2 (Tbl.put st.memsys.l2 (4 * pg + i) { y with dirty := false, holder := match y.holder with
            | .m => .e
            | .o => .s
            | h => h })
        | none => st) s1
    else [0, 1, 2, 3].foldl (fun st i => st.l2Drop (4 * pg + i)) s1

/-- The home's own partial of a granule is merged and dropped: the home holds it no longer (24 R418). -/
def State.dropOwnPartial (s : State) (lg : Nat) : State :=
  match s.dirEnt lg with
  | some e => (s.mergeOwn lg e.cop).putDir lg (s.markHolder e s.fabric.self false)
  | none => [0, 1, 2, 3].foldl (fun st i => st.l2Drop (4 * s.pgOf lg + i)) s

/-- A sector of the L2 marked clean. -/
def State.l2Wash (s : State) (sec : Nat) : State :=
  match s.l2? sec with
  | some x => s.setL2 (Tbl.put s.memsys.l2 sec { x with dirty := false })
  | none => s

/-- The dirty sectors of a local granule written back and kept clean (19 R349: whole sectors; 18 R340: with their poison); four of them are one
write of the whole granule (18 R344). -/
def State.homeClean (s : State) (sec : Nat) : State :=
  let pg := sec / 4
  let dirty := (secsOf pg).filter fun k => ((s.l2? k).map fun x => x.dirty && x.holder == .home).getD false
  let val (k : Nat) : Nat × Nat := ((s.l2? k).map fun x => (x.data, x.poison)).getD (0, 0)
  let s1 := if dirty = secsOf pg then s.memWriteGran (lpaOf (pg * 128) / 128) ((secsOf pg).map val)
    else dirty.foldl (fun st k => st.memWrite (lpaOf (k * 32)) 32 (val k).1 (val k).2) s
  dirty.foldl State.l2Wash s1

/-- The dirty sectors of a sector's granule are written back and kept clean, or its copy goes home. -/
def State.l2Clean (s : State) (sec : Nat) : State :=
  match s.l2? sec with
  | none => s
  | some x =>
    if x.holder == .home then (if x.dirty then s.homeClean sec else s)
    else if x.holder == .c && !s.remote (sec * 32) then s.dropOwnPartial (lpaOf (sec * 32) / 128)
    else s.returnGranule (sec / 4) true

/-- A sector leaves the L2: a dirty one is written back first (18 R330). -/
def State.l2Evict (s : State) (sec : Nat) : State :=
  match s.l2? sec with
  | none => s
  | some x =>
    if x.holder == .home then (s.l2Clean sec).l2Drop sec
    else if x.holder == .c && !s.remote (sec * 32) then s.dropOwnPartial (lpaOf (sec * 32) / 128)
    else s.returnGranule (sec / 4) false

/-- The package's own copies of a granule written back and dropped. -/
def State.purge (s : State) (pg : Nat) : State := [0, 1, 2, 3].foldl (fun st i => st.l2Evict (4 * pg + i)) s

/-- After a home granule has left the L2 whole, its home holds no copy (24 R418, R420). -/
def State.settleHome (s : State) (pg : Nat) : State :=
  let lg := lpaOf (pg * 128) / 128
  if s.remote (pg * 128) || [0, 1, 2, 3].any fun i => (s.l2? (4 * pg + i)).isSome then s
  else
    match s.dirEnt lg with
    | none => s
    | some e =>
      if e.st = .x ∨ e.st = .c ∨ !(s.holders e).contains s.fabric.self then s
      else
        let e' := s.markHolder e s.fabric.self false
        s.putDir lg (if e.owner = s.fabric.self ∧ e.st ≠ .s then { e' with st := .s, owner := 0 } else e')

/-! ### Lines of the L2 (18 R330) -/

/-- A line of the L2 is replaced: its sectors leave it, the dirty ones written back (18 R330, 24 R418). -/
def State.evictLine (s : State) (line : Nat) : State :=
  (((lineSecs line).foldl State.l2Evict s).settleHome (2 * line)).settleHome (2 * line + 1)

/-- The line of a full set that is replaced (18 R330, 12 R205): the least recently used of those without `.keep`, else of all. -/
def lineVictim (peers : Tbl L2Line) : Option Nat :=
  let cands := if peers.any (fun p => !p.2.keep) then List.filter (fun p : Nat × L2Line => !p.2.keep) peers else peers
  (cands.foldl (fun m p => match m with
    | none => some p
    | some q => if p.2.used < q.2.used then some p else some q) none).map fun p => p.1

/-- A way for a line: where the L2 does not hold it and its set is full, a line is replaced. -/
def State.l2Room (s : State) (line : Nat) : State :=
  let m := s.memsys
  if (Tbl.find? m.lines line).isSome || m.lines.length < 16 then s
  else
    let peers := List.filter (fun p : Nat × L2Line => sameSet p.1 line) m.lines
    if peers.length < 16 then s
    else match lineVictim peers with
      | some v => s.evictLine v
      | none => s

/-- A local granule fetched into the L2 (18 R330): the sectors not held yet are allocated, with their poison (18 R343). `pg` is the
domain address div 128. -/
def State.l2Fill (s : State) (pg : Nat) : State :=
  if (secsOf pg).all fun k => (s.l2? k).isSome then s
  else
    let lg := lpaOf (pg * 128) / 128
    let s1 := ((s.l2Room (pg / 2)).useLine (pg / 2)).stackRead lg
    [0, 1, 2, 3].foldl (fun st i =>
      if (st.l2? (4 * pg + i)).isSome then st
      else st.setL2 (Tbl.put st.memsys.l2 (4 * pg + i)
        { data := s1.mem.rd ((4 * lg + i) * 32) 32, dirty := false, poison := s1.mem.poisonOf (4 * lg + i),
          holder := .home, cop := 0, valid := 0 })) s1

/-! ### The sweep of an entry (24 R433, 26 R451) -/

/-- An entry becomes X: its holders' copies and partials go, and a granule is counted as lost. -/
def State.loseGranule (s : State) (lg : Nat) (e : DirEnt) (owner : Nat) : State :=
  let s1 := [0, 1, 2, 3].foldl (fun st i => st.l2Drop (4 * s.pgOf lg + i)) (s.setSupplied lg none)
  let ps := (s.holders e).filter fun p => p != s.fabric.self && !(s.domEnt p).dead
  let s2 := s1.setDir lg { st := .x, cop := 0, owner := owner, pmask := 0, cvec := 0, used := s.tick }
  { s2 with out := s2.out ++ ps.map fun p => Msg.recall p (lg * 128) false
            fabric := { s2.fabric with recLost := Nat.min (s.fabric.recLost + 1) (2 ^ 32 - 1) } }

/-- An entry swept for a dead cell (24 R433). -/
def State.sweepEntry (s : State) (lg k : Nat) : State :=
  match s.dirEnt lg with
  | none => s
  | some e =>
    let owned := s.cellOf e.owner == k
    let cleared : State := s.putDir lg { e with cvec := withBit e.cvec k false }
    match e.st with
    | .s => cleared
    | .e => if owned then (s.setSupplied lg none).delDir lg else s
    | .m => if owned then s.loseGranule lg e e.owner else s
    | .o => if owned then s.loseGranule lg e e.owner else cleared
    | .c => if e.cvec.getLsbD k then s.loseGranule lg e 0 else s
    | .x => s

/-- An entry that the sweep has not reached is swept before it is used (24 R433). -/
def State.sweepFirst (s : State) (lg : Nat) : State :=
  if s.fabric.sweep.contains lg then
    let s1 := ((List.range 64).filter fun k => s.fabric.deadMask.getLsbD k).foldl (fun st k => st.sweepEntry lg k) s
    { s1 with fabric := { s1.fabric with sweep := s1.fabric.sweep.filter (· != lg) } }
  else s

/-! ### The firewall (24 R424) -/

/-- RMASK and WMASK of a 2 MiB block. -/
def State.fwMasks (s : State) (block : Nat) : BitVec 64 × BitVec 64 :=
  let own : BitVec 64 := BitVec.ofNat 64 (2 ^ s.ownCell)
  Tbl.getD s.fabric.masks block (own, own)

/-- A block is open to another cell (24 R425). -/
def State.fwShared (s : State) (block : Nat) : Bool :=
  let m := s.fwMasks block
  (m.1 ||| m.2) &&& ~~~(BitVec.ofNat 64 (2 ^ s.ownCell)) != 0

/-! ### Serving a request (24 R420) -/

/-- What a request wants of a granule: RS, RX, AT, or CB under a combining operation. -/
inductive Want where
  | read | write | atomic | fold (cop : Nat)
deriving DecidableEq, Repr

/-- A request for a granule in state I. -/
def State.serveFree (s : State) (p lg : Nat) (w : Want) : Try Unit :=
  if s.lostInMemory lg && w != .write then .bad s 0x30 0
  else
    let s0 := if s.lostInMemory lg then s.freshen lg else s
    let s1 := if p = s.fabric.self then s0 else s0.purge (s.pgOf lg)
    match w with
    | .read => .ok (s1.setDir lg (s.soleEntry .e 0 p)) ()
    | .write => .ok (s1.setDir lg (s.soleEntry .m 0 p)) ()
    | .atomic => .ok s0 ()
    | .fold c => .ok ((s0.purge (s.pgOf lg)).setDir lg (s.soleEntry .c c p)) ()

/-- The entry with a package added, used now. -/
def State.addHolder (s : State) (lg : Nat) (e : DirEnt) (p : Nat) (st : DirSt) : State :=
  s.setDir lg { s.markHolder e p true with st := st, used := s.tick }

/-- The home serves a request from package `p`, of itself included, or waits for the holders' answers (24 R420). -/
def State.serve (s0 : State) (p lg : Nat) (w : Want) : Try Unit :=
  let s := s0.sweepFirst lg
  let self := s.fabric.self
  match s.dirEnt lg with
  | none => s.serveFree p lg w
  | some e =>
    let rem := (s.holders e).filter fun q => q != self
    let others := rem.filter fun q => q != p
    let merge : Try Unit :=
      if rem.isEmpty then ((s.mergeOwn lg e.cop).delDir lg).serveFree p lg w else s.askHolders lg rem false
    match e.st, w with
    | .x, .write => .ok (((s.freshen lg).setDir lg (s.soleEntry .m 0 p))) ()
    | .x, _ => .bad s 0x30 0
    | .c, .fold c => if c = e.cop then .ok (s.addHolder lg e p .c) () else merge
    | .c, _ => merge
    | .s, .read => .ok (s.addHolder lg e p .s) ()
    | st, .read =>
      if e.owner = p then .ok s ()
      else if e.owner = self then .ok (s.addHolder lg e p (if st = .e then .s else .o)) ()
      else if (Tbl.find? s.fabric.supplied lg).isSome then .ok (s.addHolder lg e p .o) ()
      else s.askHolders lg [e.owner] true
    | _, .write =>
      if others.isEmpty then
        let s1 := if p = self then s else s.purge (s.pgOf lg)
        .ok ((s1.setSupplied lg none).setDir lg (s.soleEntry .m 0 p)) ()
      else s.askHolders lg others false
    | _, _ =>
      if rem.isEmpty then ((s.setSupplied lg none).delDir lg).serveFree p lg w else s.askHolders lg rem false

/-- A granule placed in the L2 with a holder state. -/
def State.install (s : State) (pg : Nat) (h : Holder) (cop : Nat) (data : List Byte) (marks : List Nat) : State :=
  [0, 1, 2, 3].foldl (fun st i => (st.l1Drop (4 * pg + i) none).setL2 (Tbl.put st.memsys.l2 (4 * pg + i)
    { data := leValue ((data.drop (32 * i)).take 32), dirty := false, poison := marks.getD i 0, holder := h, cop := cop,
      valid := 0 })) ((s.l2Room (pg / 2)).useLine (pg / 2))

/-! ### Requests to another home (24 R427, R428) -/

/-- The request window toward a home. -/
def State.windowOf (s : State) (home : Nat) : Nat := Tbl.getD s.fabric.window home 64

/-- A request leaves if the window toward its home admits it. -/
def State.trySend (s : State) (id : Nat) : State :=
  match s.fabric.reqs.find? fun r => r.id == id with
  | none => s
  | some r =>
    let busy := (s.fabric.reqs.filter fun q => q.sent && homeOf q.pa == homeOf r.pa).length
    if r.sent ∨ s.windowOf (homeOf r.pa) ≤ busy then s
    else
      { s with
        out := s.out ++ [.request r.kind r.id r.pa r.size r.seq false r.op]
        fabric := { s.fabric with reqs := s.fabric.reqs.map fun q => if q.id = id then { q with sent := true } else q } }

/-- The request is an atomic. -/
def Req.isAtomic (r : Req) : Bool := r.kind == 2 || r.kind == 6

/-- A new request to a remote home, sent if it can be; one to a home of a dead cell ends at once (24 R432). -/
def State.newReq (s : State) (queue : Option Nat) (kind tag pa n : Nat) (op : Option AccOp) : State :=
  let f := s.fabric
  let timer := match queue with
    | some q => let c := (s.ctx q).regs
      1000 * (if c.rtmoLong then 1000000 else c.rtmoUs)
    | none => 0
  let r : Req := { id := f.nextReq, kind := kind, tag := tag, pa := pa, size := n, seq := f.nextSeq % 2 ^ 24, queue := queue, op := op,
                   at_ := s.time, timer := timer, sent := false, retried := false, resp := none }
  if (s.domEnt (homeOf pa)).dead then
    { s with fabric := { f with reqs := f.reqs ++ [{ r with sent := true, resp := some (if r.isAtomic then 0x35 else 0x34, []) }],
                                nextReq := f.nextReq + 1, nextSeq := f.nextSeq + 1 } }
  else State.trySend { s with fabric := { f with reqs := f.reqs ++ [r], nextReq := f.nextReq + 1, nextSeq := f.nextSeq + 1 } } f.nextReq

/-- A request removed. -/
def State.dropReq (s : State) (id : Nat) : State := { s with fabric := { s.fabric with reqs := s.fabric.reqs.filter fun r => r.id != id } }

/-- A request made once and waited for; a response is taken and the request ends. A conflict that the home has found names the other party in
place of a syndrome, and the word in its granule in place of an address (13 R235). Each lane's `.ms` access makes its own request (19 R347; log
entry 106). -/
def State.request (s : State) (queue : Option Nat) (kind tag pa n : Nat) (op : Option AccOp) : Try (List Byte) :=
  match s.fabric.reqs.find? fun r => r.kind == kind && r.tag == tag && r.pa == pa && r.queue == queue with
  | none => .wait (s.newReq queue kind tag pa n op)
  | some r =>
    match r.resp with
    | none | some (0xFF, _) => .wait (s.trySend r.id)
    | some (0, d) => .ok (s.dropReq r.id) d
    | some (0x20, d) => .bad (s.dropReq r.id) 0x20 (leValue (d.take 4)) (some (leValue (d.drop 4)))
    | some (c, _) => .bad (s.dropReq r.id) c (if c = 0x31 then 1 else if c = 0x32 then 2 else 0)

/-- The holder state of a remote granule in the L2. -/
def State.holderOf (s : State) (pg : Nat) : Option Holder := (s.l2? (4 * pg)).map fun x => x.holder

/-- The holder state of a granule changed. -/
def State.setHolder (s : State) (pg : Nat) (h : Holder) : State :=
  [0, 1, 2, 3].foldl (fun st i => match st.l2? (4 * pg + i) with
    | some x => st.setL2 (Tbl.put st.memsys.l2 (4 * pg + i) { x with holder := h })
    | none => st) s

/-- The granule of a remote address made fit for an access (24 R418, R419). -/
def State.acquireRemote (s : State) (queue : Option Nat) (pg : Nat) (w : Want) : Try Unit :=
  let ask (s : State) (kind : Nat) (op : Option AccOp) : Try Unit := (s.request queue kind 0 (pg * 128) 128 op).bind fun s' _ => .wait s'
  match w, s.holderOf pg with
  | .read, some .m | .read, some .o | .read, some .e | .read, some .s => .ok s ()
  | .write, some .m => .ok s ()
  | .write, some .e => .ok ((s.setHolder pg .m).emit (.upgrade (pg * 128))) ()
  | .fold c, some .c =>
    if ((s.l2? (4 * pg)).map fun x => x.cop) = some c then .ok s ()
    else ask (s.returnGranule pg false) 3 (some (.fold (copOf c).1 (copOf c).2 0))
  | .fold c, _ => ask s 3 (some (.fold (copOf c).1 (copOf c).2 0))
  | .read, _ => ask s 0 none
  | _, _ => ask s 1 none

/-- The granule of a local address made fit for an access of this package; one that has to be read from its stack waits for its channel's
retraining window (18 R346). -/
def State.acquireLocal (s : State) (pg : Nat) (w : Want) : Try Unit :=
  let lg := lpaOf (pg * 128) / 128
  let folds : Bool := match w with
    | .fold _ => true
    | _ => false
  if !folds && s.inWindow (lg * 128) && !((secsOf pg).all fun k => (s.l2? k).isSome) then .wait s
  else if !s.fabric.en then
    if s.lostInMemory lg && w == .write then .ok ((s.freshen lg).l2Fill pg) () else .ok (s.l2Fill pg) ()
  else
    let whole := [0, 1, 2, 3].all fun i => (s.l2? (4 * pg + i)).isSome
    match w, s.dirEnt lg, s.holderOf pg with
    | .fold c, some e, some .c => if e.st = .c ∧ e.cop = c then .ok s () else s.serve s.fabric.self lg w
    | .read, some e, _ =>
      if whole && (s.holders e).contains s.fabric.self && e.st != .c && e.st != .x then .ok s ()
      else (s.serve s.fabric.self lg w).bind fun s' _ =>
        match Tbl.find? s'.fabric.supplied lg with
        | some d => .ok ((s'.setSupplied lg none).install pg .home 0 (d.take 128) ((d.drop 128).map fun b => b.toNat)) ()
        | none => .ok (s'.l2Fill pg) ()
    | .fold c, _, _ => (s.serve s.fabric.self lg w).bind fun s' _ => .ok (s'.install pg .c c [] []) ()
    | _, _, _ => (s.serve s.fabric.self lg w).bind fun s' _ => .ok (s'.l2Fill pg) ()

/-- The granule of an address made fit for an access. -/
def State.acquire (s : State) (queue : Option Nat) (pa : Nat) (w : Want) : Try Unit :=
  if s.remote pa then s.acquireRemote queue (pa / 128) w else s.acquireLocal (pa / 128) w

/-! ### Accesses on physical addresses, each inside one sector -/

/-- The cause and the syndrome of a poison class (18 R343, 24 R423). -/
def poisonCause : Nat → Nat × Nat
  | 1 => (0x31, 1)
  | 2 => (0x32, 2)
  | _ => (0x30, 0)

/-- The poison of the L2's sector of an address. -/
def State.l2Poison (s : State) (pa : Nat) : Nat := ((s.l2? (pa / 32)).map fun x => x.poison).getD 0

/-- A cached read of `n` bytes. -/
def State.cachedRead (s : State) (queue : Option Nat) (pa n : Nat) : Try Nat :=
  (s.acquire queue pa .read).bind fun s1 _ =>
    let k := s1.l2Poison pa
    if k ≠ 0 then .bad s1 (poisonCause k).1 (poisonCause k).2 else .ok (s1.useLine (pa / 256)) (s1.peek pa n)

/-- A write to words: they carry no release value any longer (13 R242). -/
def State.unrelease (s : State) (space pa n : Nat) : State :=
  if s.track.releases.isEmpty then s
  else { s with track := { s.track with releases := s.track.releases.filter fun r => !(r.1 == space && pa < 4 * r.2 + 4 && 4 * r.2 < pa + n) } }

/-- Bytes of the package's own memory written through the L2, sector by sector, as a cached store of the hardware. -/
def State.pokeByte (s : State) (pa : Nat) (b : Byte) : State := (((s.l2Fill (pa / 128)).l2Write pa 1 b.toNat).l1Drop (pa / 32) none).unrelease 0 pa 1

def State.poke (s : State) (pa : Nat) : List Byte → State
  | [] => s
  | b :: t => (s.pokeByte pa b).poke (pa + 1) t

/-- A write into a granule of the L2 that this package may write: a lost one becomes fresh (24 R422), every L1 copy of the sector in
other cores goes (12 R204). -/
def State.l2Store (s : State) (core : Option Nat) (pa n x : Nat) : State :=
  let s1 := if s.l2Poison pa = 3 ∧ !s.remote pa then (s.freshen (lpaOf pa / 128)).l2Fill (pa / 128) else s
  (((s1.l2Write pa n x).useLine (pa / 256)).l1Drop (pa / 32) core).unrelease 0 pa n

/-- A cached write of `n` bytes. -/
def State.cachedWrite (s : State) (queue core : Option Nat) (pa n x : Nat) : Try Unit :=
  (s.acquire queue pa .write).bind fun s1 _ => .ok (s1.l2Store core pa n x) ()

/-- A `.ms` read of `n` bytes (19 R347, 24 R421). -/
def State.msRead (s : State) (queue : Option Nat) (tag pa n : Nat) (op : AccOp) : Try Nat :=
  if s.remote pa then (s.request queue 4 tag pa n (some op)).bind fun s1 d => .ok s1 (leValue d % 256 ^ n)
  else
    let lg := lpaOf pa / 128
    if s.inWindow (lpaOf pa) then .wait s
    else if ((s.dirEnt lg).map fun e => e.st) = some .x then .bad s 0x30 0
    else
      let s1 := s.stackRead lg
      let k := s1.mem.poisonOf (lpaOf pa / 32)
      if k ≠ 0 then .bad s1 (poisonCause k).1 (poisonCause k).2 else .ok s1 (s1.mem.rd (lpaOf pa) n)

/-- A granule about to be stored to in memory: a lost one becomes fresh, and its entry is freed (24 R421). -/
def State.reviveGranule (s : State) (lg : Nat) : State :=
  match s.dirEnt lg with
  | some e => if e.st = .x then (s.freshen lg).delDir lg else if s.lostInMemory lg then s.freshen lg else s
  | none => if s.lostInMemory lg then s.freshen lg else s

/-- A `.ms` write of `n` bytes (18 R344, 19 R347, 24 R421). -/
def State.msWrite (s : State) (queue : Option Nat) (tag pa n x : Nat) (op : AccOp) : Try Unit :=
  if s.remote pa then (s.request queue 5 tag pa n (some op)).bind fun s1 _ => .ok s1 ()
  else if s.inWindow (lpaOf pa) then .wait s
  else .ok (((s.reviveGranule (lpaOf pa / 128)).memWrite (lpaOf pa) n x 0).unrelease 0 pa n) ()

/-- A cached atomic of `n` bytes (12 R223): performed in the L2 slice, or at the home. -/
def State.cachedAtomic (s : State) (queue core : Option Nat) (tag pa n : Nat) (op : AccOp) (f : Nat → Nat) : Try Nat :=
  if s.remote pa then (s.request queue 2 tag pa n (some op)).bind fun s1 d => .ok s1 (leValue d % 256 ^ n)
  else
    (s.acquireLocal (pa / 128) .atomic).bind fun s1 _ =>
      let k := s1.l2Poison pa
      if k ≠ 0 then .bad s1 (poisonCause k).1 (poisonCause k).2
      else .ok (s1.l2Store core pa n (f (s1.peek pa n))) (s1.peek pa n)

/-- A `.ms` atomic of `n` bytes (19 R348). -/
def State.msAtomic (s : State) (queue : Option Nat) (tag pa n : Nat) (op : AccOp) (f : Nat → Nat) : Try Nat :=
  if s.remote pa then (s.request queue 6 tag pa n (some op)).bind fun s1 d => .ok s1 (leValue d % 256 ^ n)
  else
    (s.msRead queue tag pa n op).bind fun s1 old => .ok ((s1.memWrite (lpaOf pa) n (f old) 0).unrelease 0 pa n) old

/-- The value folded into the partial of a granule held in C (24 R419, 25 R448). -/
def State.foldPartial (s : State) (pa : Nat) (op : RedOp) (t : RedTy) (x : Nat) : State :=
  let w := redW t / 8
  match s.l2? (pa / 32) with
  | none => s
  | some y =>
    let k := pa % 32
    let v := if bitOf y.valid k then foldNew op t (secRd y.data k w) x else x
    s.setL2 (Tbl.put s.memsys.l2 (pa / 32) { y with data := secWr y.data k w v, dirty := true, valid := y.valid ||| 2 ^ k })

/-- `n` bytes from `pa` on through the cache, piece by piece of at most a sector. -/
def State.readBytes (s : State) (queue : Option Nat) (pa : Nat) : Nat → Nat → Try (List Byte)
  | 0, _ => .ok s []
  | fuel + 1, n =>
    if n = 0 then .ok s []
    else
      let k := Nat.min n (32 - pa % 32)
      (s.cachedRead queue pa k).bind fun s1 x => (s1.readBytes queue (pa + k) fuel (n - k)).bind fun s2 r => .ok s2 (leBytes k x ++ r)

/-- Bytes written from `pa` on through the cache, piece by piece of at most a sector. -/
def State.writeBytes (s : State) (queue core : Option Nat) (pa : Nat) : Nat → List Byte → Try Unit
  | 0, _ => .ok s ()
  | fuel + 1, d =>
    if d.isEmpty then .ok s ()
    else
      let k := Nat.min d.length (32 - pa % 32)
      (s.cachedWrite queue core pa k (leValue (d.take k))).bind fun s1 _ => s1.writeBytes queue core (pa + k) fuel (d.drop k)

end Sys2Proof.Machine
end

