-- ==== Sys2Proof/Machine/Access.lean ====
section
/-! DEFINITION. Accesses of lanes: translation and protection (12 R206 to R209), the scratchpad (12 R213 to R217), the tracking of
accesses (13 R229 to R245), and performing the accesses of a memory operation in order (12 R210, R212). -/

namespace Sys2Proof.Machine

/-! ### Translation (12 R206, R207) -/

/-- The bytes of a page by size code (12 R206); of the reserved code 7, none. -/
def pageBytes (sz : Nat) : Nat :=
  match sz with
  | 0 => 2 ^ 12
  | 1 => 2 ^ 16
  | 2 => 2 ^ 18
  | 3 => 2 ^ 21
  | 4 => 2 ^ 25
  | 5 => 2 ^ 29
  | 6 => 2 ^ 34
  | _ => 0

/-- The level at which a leaf of a size code stands (12 R206). -/
def leafLevel (sz : Nat) : Nat := if sz ≤ 2 then 0 else if sz ≤ 5 then 1 else if sz = 6 then 2 else 5

/-- A table entry is valid and has no reserved bit set (12 R207). -/
def pteOk (e : Nat) : Bool :=
  bitOf e 0 && !bitOf e 11 && bitsOf e 60 4 == 0 && (bitOf e 1 || bitsOf e 2 9 == 0)

/-- The field PA of a table entry as an address. -/
def ptePa (e : Nat) : Nat := bitsOf e 12 48 * 4096

/-- A physical address that exists and is data of the domain (18 R331, 24 R415, R416): no stack fenced off holds it (23 R411). -/
def State.paOk (s : State) (pa : Nat) : Bool :=
  let home := homeOf pa
  let lpa := lpaOf pa
  (if home = s.fabric.self then true else s.fabric.en && (s.domEnt home).valid) &&
    lpa < (if s.fabric.en then dirBase else dataEnd) &&
    (home != s.fabric.self || s.ctl.fenced == 0 || !s.ctl.fenced.getLsbD (s.memsys.stackOf lpa))

/-- The walk from a level down (12 R206, R207): the leaf and its page's bytes. -/
def State.walkFrom (s : State) (q va : Nat) : Nat → Nat → Try (Nat × Nat)
  | 0, table =>
    let ea := table + 8 * (va / 2 ^ 12 % 512)
    if !s.paOk ea then .bad s 0x10 0
    else (s.cachedRead (some q) ea 8).bind fun s1 e =>
      if pteOk e ∧ bitOf e 1 ∧ leafLevel (bitsOf e 8 3) = 0 then .ok s1 (e, pageBytes (bitsOf e 8 3)) else .bad s1 0x10 0
  | l + 1, table =>
    let ea := table + 8 * (va / 2 ^ (12 + 9 * (l + 1)) % 512)
    if !s.paOk ea then .bad s 0x10 0
    else (s.cachedRead (some q) ea 8).bind fun s1 e =>
      if !pteOk e then .bad s1 0x10 0
      else if !bitOf e 1 then s1.walkFrom q va l (ptePa e)
      else if leafLevel (bitsOf e 8 3) = l + 1 then .ok s1 (e, pageBytes (bitsOf e 8 3))
      else .bad s1 0x10 0

/-- The hardware slot of a context; 64 while it has none. -/
def State.hwOf (s : State) (q : Nat) : Nat := (s.ctx q).hw.getD 64

/-- The physical address of a virtual address in a leaf's page (12 R207). -/
def leafPa (leaf size va : Nat) : Nat := ptePa leaf / size * size + va % size

/-- The leaf of a virtual address and its page's bytes, from the core's cached translations or by a walk (12 R206, R209). A leaf whose address
does not exist is as an invalid one: nothing of it is cached (18 R331). Of the replicated entries of one page the walk takes the one that the
address indexes, and the cached copy then serves the whole page (12 R207; log entry 90). -/
def State.leafOf (s : State) (core q va : Nat) : Try (Nat × Nat) :=
  let hw := s.hwOf q
  match (s.coreSt core).tlb.find? fun t => t.ctx == hw && t.base ≤ va && va < t.base + t.size with
  | some t => .ok s (t.leaf.toNat, t.size)
  | none =>
    (s.walkFrom q va 4 ((s.ctx q).desc.root)).bind fun s1 r =>
      let c := s1.coreSt core
      if !s1.paOk (leafPa r.1 r.2 va) then .bad s1 0x10 0
      else if hw = 64 then .ok s1 r
      else .ok (s1.setCore core { c with tlb := c.tlb ++ [⟨hw, va / r.2 * r.2, r.2, BitVec.ofNat 64 r.1⟩] }) r

/-- What an access needs of its page (12 R208); without an aperture it takes the page's own. -/
structure Need where
  rd : Bool
  wr : Bool
  ex : Bool
  ap : Option Aperture
deriving DecidableEq, Repr

/-- The leaf admits the access (12 R208). -/
def leafAllows (leaf : Nat) (mon : Bool) (n : Need) : Bool :=
  (mon || bitOf leaf 5) && (!n.rd || bitOf leaf 2) && (!n.wr || bitOf leaf 3) && (!n.ex || bitOf leaf 4) &&
    (match n.ap with
    | none => true
    | some .cached => !bitOf leaf 6
    | some .ms => bitOf leaf 6)

/-- Checks 3 and 4 of 12 R210 on a virtual address: the physical address and whether the page is a memory-side one. -/
def State.translate (s : State) (core q : Nat) (mon : Bool) (n : Need) (va : Nat) : Try (Nat × Nat) :=
  (s.leafOf core q va).bind fun s1 r =>
    let pa := leafPa r.1 r.2 va
    if !s1.paOk pa then .bad s1 0x10 0
    else if !leafAllows r.1 mon n then .bad s1 0x11 0
    else .ok s1 (pa, r.1)

/-! ### Bytes at virtual addresses, for the hardware's own accesses (12 R215, 14 R255, 21 R368 to R380) -/

/-- `n` bytes from a virtual address on, as cached loads of the context at monitor privilege. -/
def State.vread (s : State) (core q va : Nat) : Nat → Nat → Try (List Byte)
  | 0, _ => .ok s []
  | fuel + 1, n =>
    if n = 0 then .ok s []
    else
      let k := Nat.min n (32 - va % 32)
      (s.translate core q true ⟨true, false, false, some .cached⟩ va).bind fun s1 p =>
        (s1.cachedRead (some q) p.1 k).bind fun s2 x =>
          (s2.vread core q (va + k) fuel (n - k)).bind fun s3 r => .ok s3 (leBytes k x ++ r)

/-- Every page of a range translates for writing. -/
def State.vprobe (s : State) (core q va : Nat) : Nat → Nat → Try Unit
  | 0, _ => .ok s ()
  | fuel + 1, n =>
    if n = 0 then .ok s ()
    else
      let k := Nat.min n (4096 - va % 4096)
      (s.translate core q true ⟨false, true, false, some .cached⟩ va).bind fun s1 _ => s1.vprobe core q (va + k) fuel (n - k)

/-- Bytes written from a virtual address on, as cached stores of the context at monitor privilege. -/
def State.vwrite (s : State) (core q va : Nat) : Nat → List Byte → Try Unit
  | 0, _ => .ok s ()
  | fuel + 1, d =>
    if d.isEmpty then .ok s ()
    else
      let k := Nat.min d.length (32 - va % 32)
      (s.translate core q true ⟨false, true, false, some .cached⟩ va).bind fun s1 p =>
        (s1.cachedWrite (some q) (some core) p.1 k (leValue (d.take k))).bind fun s2 _ => s2.vwrite core q (va + k) fuel (d.drop k)

/-! ### Tracking (13 R229 to R245) -/

/-- The key of a team as a party's place. -/
def teamKeyOf (i : Ids) : Nat := (i.gridid * 2 ^ 32 + i.cluid) * 16 + i.teamid
/-- The key of a cluster as a party's place. -/
def clusterKeyOf (i : Ids) : Nat := i.gridid * 2 ^ 32 + i.cluid

/-- How far apart two parties of the package are, as the least scope level that includes both (13 R239). -/
def Tracking.dist (t : Tracking) (p q : Nat) : Nat :=
  match Tbl.find? t.parties p, Tbl.find? t.parties q with
  | some a, some b => if a.team = b.team then 1 else if a.cluster = b.cluster then 2 else 3
  | _, _ => 3

/-- Where a party's open region toward a distance began (13 R231). -/
def Tracking.startOf (t : Tracking) (p level : Nat) : Nat :=
  t.bounds.foldl (fun m b => if b.party = p ∧ level ≤ b.level then Nat.max m b.tick else m)
    ((Tbl.find? t.parties p).map (·.born) |>.getD 0)

/-- A party's access at `tick` lies in a region that had not ended, toward a distance, by `start` (13 R231). -/
def Tracking.openAt (t : Tracking) (p level tick start : Nat) : Bool :=
  !t.bounds.any fun b => b.party == p && level ≤ b.level && tick < b.tick && b.tick ≤ start

/-- The party's regions up to `tick` come before party `p`'s (21 R377). -/
def Tracking.before (t : Tracking) (p q tick : Nat) : Bool :=
  ((Tbl.find? t.parties p).map fun x => x.after.any fun a => a.1 == q && tick ≤ a.2).getD false

/-- The access is an atomic or a `red` (13 R234). -/
def TrackKind.isAtomic : TrackKind → Bool
  | .relaxed | .release | .fold => true
  | _ => false

/-- Two accesses to one word conflict by their kinds (13 R232, R234, R242). -/
def kindsConflict (k : TrackKind) (sec : Bool) (k' : TrackKind) (sec' : Bool) : Bool :=
  !(k == .read && k' == .read) && !(k.isAtomic && k'.isAtomic) &&
    !(k == .read && sec && k' == .release) && !(k' == .read && sec' && k == .release)

/-- A word lies in the pieces of a command's range. -/
def inSegs (segs : List (Nat × Nat)) (word : Nat) : Bool := segs.any fun g => g.1 / 4 ≤ word && 4 * word < g.1 + g.2

/-- The region of another package's access had not ended, toward a distance, by `start`. -/
def FarTrack.openAt (f : FarTrack) (start : Nat) : Bool := (f.stop.map fun e => decide (start < e)).getD true

/-- The writes, or the reads, of a command are in a region concurrent with one that began at `start` toward a distance: its own region until it
completes; once the group has observed its completion, its writes are those of the group's open region (13 R244, 20 R361). -/
def CmdTrack.concurrent (c : CmdTrack) (t : Tracking) (level start : Nat) : Bool :=
  match c.seen, c.stop with
  | some o, e => if c.write then t.openAt c.party level o start else (e.map fun x => decide (start < x)).getD true
  | none, some e => decide (start < e)
  | none, none => true

/-- A command's words against an access of a kind (13 R234, R244): a `red` counts as the fold that it is. -/
def CmdTrack.against (c : CmdTrack) (k : TrackKind) (sec : Bool) : Bool :=
  if c.fold then kindsConflict k sec .fold false else c.write || k != .read

/-- The other party of a conflict that an access completes (13 R232, R244; 16 R315; 20 R361), if there is one: a party of this package, or the
package of the other. Toward the groups of its own cluster a running command is no party while its locks are held, but a `red`, which holds none,
and where the access names its row by another name: `renamed` lists those commands (16 R315, 19 R359). Of several the first recorded access is named, then the first
command, then another package (log entry 91). -/
def Tracking.conflict (t : Tracking) (p space word : Nat) (k : TrackKind) (sec : Bool) (renamed : List Nat) : Option (Nat ⊕ Nat) :=
  let byAccess := t.acc.find? fun a =>
    a.word == word && a.space == space && a.party != p && kindsConflict k sec a.kind a.inSection &&
      let d := t.dist p a.party
      t.openAt a.party d a.tick (t.startOf p d) && !t.before p a.party a.tick
  match byAccess with
  | some a => some (.inl a.party)
  | none =>
    let byCmd := t.cmds.find? fun c =>
      c.space == space && c.party != p && c.against k sec && inSegs c.segs word &&
        let d := t.dist p c.party
        c.concurrent t d (t.startOf p d) && (c.stop.isSome || decide (3 ≤ d) || c.fold || renamed.contains c.cmd) &&
          !(c.write && (c.seen.map fun o => t.before p c.party o).getD false)
    match byCmd with
    | some c => some (.inl c.party)
    | none =>
      (t.far.find? fun f => f.word == word && space == 0 && kindsConflict k sec f.kind f.inSection && f.openAt (t.startOf p f.level)).map fun f =>
        .inr f.pkg

/-- The conflict that an access of another package's party completes at this home, `level` being the least scope that includes both packages
(13 R232, R235). -/
def Tracking.farConflict (t : Tracking) (pkg level word : Nat) (k : TrackKind) (sec : Bool) : Bool :=
  let start := Tbl.getD t.farStart pkg 0
  t.acc.any (fun a => a.word == word && a.space == 0 && kindsConflict k sec a.kind a.inSection && t.openAt a.party level a.tick start) ||
    t.cmds.any fun c => c.space == 0 && c.against k sec && inSegs c.segs word && c.concurrent t level start

/-- The party identifier of 13 R235. -/
def State.partyId (s : State) : Nat ⊕ Nat → Nat
  | .inl p =>
    match Tbl.find? s.track.parties p with
    | some x => if x.resident then x.slot + x.core * 2 ^ 6 + s.fabric.self * 2 ^ 15 + 2 ^ 30 + 2 ^ 31 else 0
    | none => 0
  | .inr pkg => pkg * 2 ^ 15 + 2 ^ 30

def State.setTrack (s : State) (t : Tracking) : State := { s with track := t }

/-- A boundary of a party performs (13 R231). -/
def State.boundary (s : State) (p level : Nat) : State :=
  s.setTrack { s.track with bounds := s.track.bounds ++ [⟨p, level, s.track.now⟩], now := s.track.now + 1 }

/-- The sectors that a party has touched since its last boundary (13 R237). -/
def Tracking.sectors (t : Tracking) (p : Nat) : List (Nat × Nat) :=
  let start := t.startOf p 0
  ((t.acc.filter fun a => a.party == p && start ≤ a.tick).map fun a => (a.space, a.word / 8)).dedup

/-- The early cut before an access that would need a 513th sector (13 R237). -/
def State.earlyCut (s : State) (p space : Nat) (secs : List Nat) : State :=
  let have_ := s.track.sectors p
  if 512 < have_.length + (secs.filter fun x => !have_.contains (space, x)).length then s.boundary p 5 else s

/-- An access recorded (13 R233); of a party's accesses of one kind to a word the latest stands for all. -/
def Tracking.record (t : Tracking) (a : Track) : Tracking :=
  { t with
    acc := (t.acc.filter fun b =>
      !(b.word == a.word && b.space == a.space && b.party == a.party && b.kind == a.kind && b.inSection == a.inSection)) ++ [a]
    now := t.now + 1 }

/-- What an atomic of an order counts as (13 R234, R242). -/
def atomKind : Order → TrackKind
  | .rel | .ar | .sc => .release
  | _ => .relaxed

/-- What an access counts as (13 R233, R234, R242). -/
def AccOp.kind : AccOp → Option TrackKind
  | .load .. => some .read
  | .store _ => some .write
  | .atomic _ _ o _ _ _ _ _ => some (atomKind o)
  | .fold .. => some .fold
  | .maint clean drop => if drop && !clean then some .write else none

/-- The words of an access, from its physical or scratchpad address (13 R232, R233). -/
def Access.words (a : Access) : List Nat :=
  match a.op with
  | .maint _ _ => (List.range 64).map fun k => a.pa / 256 * 64 + k
  | _ => (List.range ((a.size + 3) / 4)).map fun k => a.pa / 4 + k

/-- The space that an access is tracked in; `.ms` accesses are not tracked. -/
def Group.trackSpace (g : Group) (a : Access) : Option Nat :=
  match a.space with
  | .cached => some 0
  | .scratch => some (teamKeyOf g.ids + 2)
  | .ms => none

/-- The address of the conflicting word as the access names it (13 R235). -/
def Access.wordAddr (a : Access) (w : Nat) : Nat :=
  match a.op with
  | .maint _ _ => a.va / 256 * 256 + (4 * w - a.pa / 256 * 256)
  | _ => a.va / 4 * 4 + (4 * w - a.pa / 4 * 4)

/-- The near-memory commands whose destination or source an access names by an address that their locks do not cover (16 R311, 19 R359). -/
def State.otherNames (s : State) (a : Access) : List Nat :=
  (s.cmds.filter fun c => c.path == .nm && !c.done && !(Tbl.vals s.clusters).any fun x => x.locks.any fun l =>
    l.cmd == c.id && !l.sp && l.lo ≤ a.va && a.va ≤ l.hi).map fun c => c.id

/-- What an access of a kind leaves of the release values of its words (13 R242). -/
def Tracking.release (t : Tracking) (sp : Nat) (ws : List Nat) (k : TrackKind) : Tracking :=
  let rel := t.releases.filter fun r => !(r.1 == sp && ws.contains r.2)
  if k = .read then t else { t with releases := if k = .release then rel ++ ws.map fun w => (sp, w) else rel }

/-- The fault of an access that completes a conflict with a party, for the first of its words that does (13 R232, R235). -/
def State.conflictOf (s : State) (g : Group) (a : Access) (sp : Nat) (k : TrackKind) : Option FaultInfo :=
  a.words.findSome? fun w => (s.track.conflict g.ids.uid sp w k a.section_ (s.otherNames a)).map fun q =>
    ⟨0x20, a.lane, 0, a.wordAddr w, s.partyId q⟩

/-- An access meets the tracking: the early cut, then the conflict check, then its record (13 R232 to R237). -/
def State.meet (s : State) (g : Group) (a : Access) : Except FaultInfo State :=
  match g.trackSpace a, a.op.kind with
  | some sp, some k =>
    let p := g.ids.uid
    let ws := a.words
    let s1 := s.earlyCut p sp (ws.map fun w => w / 8).dedup
    match s1.conflictOf g a sp k with
    | some f => .error f
    | none => .ok (s1.setTrack ((ws.foldl (fun t w => t.record ⟨p, sp, w, k, a.section_, t.now⟩) s1.track).release sp ws k))
  | _, _ => .ok s

/-- A party of another package accesses words of this home (13 R232, R235, R242): refused at the first where it completes a conflict, else
recorded. -/
def State.farMeet (s : State) (pkg : Nat) (k : TrackKind) (sec : Bool) (words : List Nat) : Except Nat State :=
  let level := if s.cellOf pkg = s.ownCell then 4 else 5
  match words.find? fun w => s.track.farConflict pkg level w k sec with
  | some w => .error w
  | none =>
    let t := s.track.release 0 words k
    .ok (s.setTrack { t with far := t.far ++ words.map fun w => ⟨pkg, level, w, k, sec, t.now, none⟩, now := t.now + 1 })

/-- The answer to an access of another package that a conflict refuses: the party identifier of this package, and the word in its granule
(13 R235). -/
def State.conflictData (s : State) (word : Nat) : List Byte := leBytes 4 (s.fabric.self * 2 ^ 15 + 2 ^ 30) ++ leBytes 1 (4 * (word % 32))

/-- A load in a read section returns a release value (13 R242). -/
def State.readsRelease (s : State) (g : Group) (a : Access) : Bool :=
  match g.trackSpace a, a.op with
  | some sp, .load .. => a.section_ && a.words.any fun w => s.track.releases.contains (sp, w)
  | _, _ => false

/-! ### The L1 (11 R196, 12 R204, R205) -/

/-- The lines of a core's L1. -/
def CoreSt.l1Lines (c : CoreSt) : Nat := c.l1sz * 1024

/-- The lines of a core's L1 that are evicted leave victim tags, the oldest tags first to go (11 R196). -/
def CoreSt.tag (c : CoreSt) (gone : List L1Line) : CoreSt :=
  { c with tags := ((c.tags ++ gone.map fun l => (l.line, l.slot)).reverse.take 2048).reverse }

/-- A load's sector in the core's L1: a miss that matches the group's own victim tag raises a measured lease by one and frees the tag; the
sector is allocated unless `.nol1`, its line in place of the least recently used, which leaves a tag. -/
def State.touchL1 (s : State) (core slot : Nat) (pa : Nat) (pol : Policy) : State :=
  let c := s.coreSt core
  let line := pa / 64
  let bit := BitVec.ofNat 2 (2 ^ (pa / 32 % 2))
  let held := c.lines.find? fun l => l.line == line
  let rest := c.lines.filter fun l => l.line != line
  if held.any fun l => l.secs &&& bit != 0 then
    s.setCore core { c with lines := rest ++ (held.map fun l => { l with slot := slot }).toList }
  else
    let tagged := c.tags.contains (line, slot)
    let s1 := if tagged then
        s.updGroup core slot fun g => if g.measured ∧ g.leader.isNone then { g with lease := Nat.min (g.lease + 1) 16383 } else g
      else s
    let measured := ((s.group? core slot).map fun g => g.measured && g.leader.isNone).getD false
    let c1 := { c with tags := if tagged && measured then c.tags.filter fun t => t != (line, slot) else c.tags }
    if pol = .nol1 then s1.setCore core c1
    else
      let new : L1Line := ⟨line, slot, (held.map fun l => l.secs).getD 0 ||| bit⟩
      let lines := if pol = .stream ∧ held.isNone then new :: rest else rest ++ [new]
      if lines.length ≤ c.l1Lines then s1.setCore core { c1 with lines := lines }
      else if pol = .stream then s1.setCore core ({ c1 with lines := lines.take 1 ++ lines.drop 2 }.tag ((lines.drop 1).take 1))
      else s1.setCore core ({ c1 with lines := lines.drop 1 }.tag (lines.take 1))

/-- A store or an atomic updates the sectors that its own core holds and allocates none (12 R204): its group is the line's last to access it
(11 R196). -/
def State.updateL1 (s : State) (core slot : Nat) (pa : Nat) : State :=
  let c := s.coreSt core
  match c.lines.find? fun l => l.line == pa / 64 && l.secs &&& BitVec.ofNat 2 (2 ^ (pa / 32 % 2)) != 0 with
  | some l => s.setCore core { c with lines := (c.lines.filter fun k => k.line != pa / 64) ++ [{ l with slot := slot }] }
  | none => s

/-- The cache policy of an access in the L2 (12 R205): `.stream` allocates its line as the first candidate for eviction; `.keep` ranks it above
lines without, for at most half the ways of its set. `old` is the state before the access. -/
def State.placeL2 (s old : State) (pa : Nat) (pol : Policy) : State :=
  let m := s.memsys
  let line := pa / 256
  match Tbl.find? m.lines line with
  | none => s
  | some l =>
    let put (x : L2Line) : State := { s with memsys := { m with lines := Tbl.put m.lines line x } }
    match pol with
    | .stream => if (Tbl.find? old.memsys.lines line).isNone then put { l with used := 0 } else s
    | .keep =>
      let kept := List.filter (fun p : Nat × L2Line => p.2.keep) m.lines
      if kept.length < 8 || (kept.filter fun p => sameSet p.1 line).length < 8 then put { l with keep := true } else s
    | _ => s

/-! ### The scratchpad (12 R213 to R216) -/

/-- NFRAME at an L1 size (12 R202). -/
def framesAt (l1sz : Nat) : Nat := Nat.min 320 ((768 - 64 * l1sz) / 2)

/-- NFRAME of a core (12 R202): a growing L1 has taken its frames (12 R203). -/
def CoreSt.nframe (c : CoreSt) : Nat := framesAt (Nat.max c.l1sz (c.resize.getD c.l1sz))

/-- The sett holds a frame (12 R214). -/
def SettSt.framed : SettSt → Bool
  | .fill | .res | .dirty | .spill => true
  | _ => false

/-- The setts of a core with their team slots, numbers and contents. -/
def State.settsOf (s : State) (core : Nat) : List (Nat × Nat × Sett) :=
  (List.range 8).flatMap fun ts => match s.team? core ts with
    | some t => t.setts.map fun p => (ts, p.1, p.2)
    | none => []

/-- Frames in use on a core. -/
def State.framesUsed (s : State) (core : Nat) : Nat := ((s.settsOf core).filter fun x => x.2.2.st.framed).length

def State.setSett (s : State) (core ts n : Nat) (x : Sett) : State :=
  match s.team? core ts with
  | some t => s.setTeam core ts { t with setts := Tbl.setD t.setts n x .absent }
  | none => s

def State.sett (s : State) (core ts n : Nat) : Sett :=
  match s.team? core ts with
  | some t => Tbl.getD t.setts n .absent
  | none => .absent

/-- The address of a sett's map entry (12 R215). -/
def Team.mapEntry (t : Team) (n : Nat) : Nat := t.map + 8 * n

/-- The map entry of a sett, read as a cached load of the context; its faults name the entry (12 R215). -/
def State.readMap (s : State) (core : Nat) (t : Team) (n : Nat) : Try Nat :=
  match s.vread core t.queue (t.mapEntry n) 1 8 with
  | .ok s1 d => .ok s1 (leValue d)
  | .wait s1 => .wait s1
  | .bad s1 c y _ => .bad s1 c y (some (t.mapEntry n))

/-- Check 5 of 12 R210 for an address of a team's scratchpad: an UNBACKED sett. -/
def State.settCheck (s : State) (core ts a : Nat) : Try Unit :=
  match s.team? core ts with
  | none => .bad s 0x12 0
  | some t =>
    if (s.sett core ts (a / 2048)).st.framed then .ok s ()
    else (s.readMap core t (a / 2048)).bind fun s1 e => if e % 4 = 1 ∨ e % 4 = 2 then .ok s1 () else .bad s1 0x12 0

/-- The sett to be evicted for a fill (12 R216): least recently used, not in FILL or SPILL, and no spill of it has faulted. -/
def State.victimSett (s : State) (core : Nat) : Option (Nat × Nat × Sett) :=
  let cands := (s.settsOf core).filter fun x => (x.2.2.st == .res || x.2.2.st == .dirty) && x.2.2.spillFault.isNone
  match cands with
  | [] => none
  | c :: cs => some (cs.foldl (fun m x => if x.2.2.used < m.2.2.used then x else m) c)

/-- A spill fault of the team that no access has raised (12 R215, R216). -/
def Team.spillFault (t : Team) : Option (Nat × Sett × FaultInfo) :=
  t.setts.findSome? fun p => if p.2.raised then none else p.2.spillFault.map fun f => (p.1, p.2, f)

/-- A sett made resident for an access of a group, or asked for (12 R214 to R216): a free frame starts the fill; else a sett is evicted, a
dirty one by a spill. A fill that faulted and an unreported spill fault of the team are raised here. -/
def State.settReady (s : State) (core ts slot n : Nat) : Try Unit :=
  match s.team? core ts with
  | none => .wait s
  | some t =>
    match t.spillFault with
    | some (m, x, f) => .bad (s.setSett core ts m { x with raised := true }) f.cause f.synd (some f.addr0)
    | none =>
      let x := s.sett core ts n
      match x.st with
      | .res | .dirty => .ok (s.setSett core ts n { x with used := s.tick }) ()
      | .fill | .spill => .wait s
      | _ =>
        match x.fillFault with
        | some f =>
          if x.filler = slot then .bad (s.setSett core ts n .absent) f.cause f.synd (some f.addr0)
          else if (s.group? core x.filler).isSome then .wait s
          else .wait (s.setSett core ts n .absent)
        | none =>
          let filling := { x with st := .fill, filler := slot, used := s.tick }
          if s.framesUsed core < (s.coreSt core).nframe then .wait (s.setSett core ts n filling)
          -- one eviction is under way for the fill already (log entry 92)
          else if (s.settsOf core).any fun y => y.2.2.st == .spill then .wait s
          else match s.victimSett core with
            | none => .wait s
            | some (ts', m, y) =>
              if y.st = .res then .wait ((s.setSett core ts' m .absent).setSett core ts n filling)
              else .wait (s.setSett core ts' m { y with st := .spill })

/-- Bytes of a resident sett. -/
def Sett.rd (x : Sett) (off : Nat) : Nat → Nat
  | 0 => 0
  | n + 1 => (Tbl.getD x.data off 0).toNat + 256 * x.rd (off + 1) n

def Sett.wr (x : Sett) (off : Nat) : Nat → Nat → Sett
  | 0, _ => x
  | n + 1, v => { x with data := Tbl.setD x.data off (BitVec.ofNat 8 v) 0 }.wr (off + 1) n (v / 256)

/-- A write of `n` bytes of a scratchpad address; a full sector clears its uncorrectable error. -/
def State.scratchWrite (s : State) (core ts a n v : Nat) : State :=
  let x := s.sett core ts (a / 2048)
  let y := x.wr (a % 2048) n v
  s.setSett core ts (a / 2048)
    { y with st := .dirty, poison := if n = 32 then y.poison.filter (· != a % 2048 / 32) else y.poison }

/-- A read of `n` bytes of a scratchpad address in a resident sett: an uncorrectable error is a media error (18 R340). -/
def State.scratchRead (s : State) (core ts a n : Nat) : Try Nat :=
  let x := s.sett core ts (a / 2048)
  if x.poison.contains (a % 2048 / 32) then .bad s 0x31 1 else .ok s (x.rd (a % 2048) n)

end Sys2Proof.Machine
end

