-- ==== Sys2Proof/Machine/Perform.lean ====
section
/-! DEFINITION. A memory operation from its issue to its completion: forming the accesses, checks 1 to 6 (12 R210), performing them in
order (12 R212, 13 R238), and completion (02 R25, R26). -/

namespace Sys2Proof.Machine

/-- The outcome of an attempt on an access: done, waiting, or a fault. -/
inductive Chk (α : Type) where
  | ok (s : State) (a : α)
  | wait (s : State)
  | fault (s : State) (f : FaultInfo)

/-- An attempt on memory as a lane sees it: its fault names the lane and, unless it names an address of its own, the lane's address; a conflict
that another home has found names its word and the other party (13 R235). -/
def Try.lane {α : Type} (t : Try α) (lane va : Nat) : Chk α :=
  match t with
  | .ok s a => .ok s a
  | .wait s => .wait s
  | .bad s c y a => .fault s (if c = 0x20 then ⟨c, lane, 0, va / 128 * 128 + a.getD (va % 128), y⟩ else ⟨c, lane, y, a.getD va, 0⟩)

/-! ### Range locks (16 R314) -/

/-- The cluster that holds a group. -/
def State.clusterOf (s : State) (i : Ids) : Option (Nat × Cluster) :=
  List.find? (fun c => c.2.queue == i.queue && c.2.grid == i.grid && c.2.cluid == i.cluid) s.clusters

/-- An access touches a range lock that forbids it (16 R314): a write into any lock, or anything into a write lock. -/
def Lock.forbids (l : Lock) (team : Nat) (a : Access) : Bool :=
  let writes := match a.op with
    | .load .. => false
    | _ => true
  let lo := match a.op with
    | .maint .. => a.va / 256 * 256
    | _ => a.va
  let n := match a.op with
    | .maint .. => 256
    | _ => a.size
  l.sp == (a.space == .scratch) && (!l.sp || l.teamKey == team) && (l.wr || writes) && lo ≤ l.hi && l.lo < lo + n

/-- Whether a range lock of the group's cluster forbids an access. -/
def State.lockMet (s : State) (g : Group) (a : Access) : Bool :=
  match s.clusterOf g.ids with
  | some (_, c) => c.locks.any fun l => l.forbids (teamKeyOf g.ids) a
  | none => false

/-! ### Checks 3 to 5 -/

/-- What an access needs of its page (12 R208). -/
def Access.need (a : Access) : Need :=
  let ap : Aperture := if a.space = .ms then .ms else .cached
  match a.op with
  | .load .. => ⟨true, false, false, some ap⟩
  | .store _ => ⟨false, true, false, some ap⟩
  | .atomic .. | .fold .. => ⟨true, true, false, some ap⟩
  | .maint _ drop => if drop then ⟨false, true, false, some ap⟩ else ⟨true, false, false, some ap⟩

/-- Checks 3 to 5 of 12 R210 on one access, the lock check of 16 R314 between 4 and 5; it takes its physical address. -/
def State.checkAccess (s : State) (core : Nat) (g : Group) (a : Access) : Try Access :=
  match a.space with
  | .scratch =>
    if a.locked then .bad s 0x21 0 else (s.settCheck core g.ids.teamSlot a.va).bind fun s1 _ => .ok s1 { a with pa := a.va }
  | _ =>
    (s.translate core g.ids.queue g.mon a.need a.va).bind fun s1 p =>
      if a.locked then .bad s1 0x21 0 else .ok s1 { a with pa := p.1 }

/-- Checks 3 to 5 on every access, lanes ascending, before any is performed. -/
def State.checkAll (s : State) (core : Nat) (g : Group) : List Access → Chk (List Access)
  | [] => .ok s []
  | a :: rest =>
    match (s.checkAccess core g a).lane a.lane a.va with
    | .ok s1 a1 =>
      match s1.checkAll core g rest with
      | .ok s2 r => .ok s2 (a1 :: r)
      | .wait s2 => .wait s2
      | .fault s2 f => .fault s2 f
    | .wait s1 => .wait s1
    | .fault s1 f => .fault s1 f

/-! ### Performing -/

/-- The register writes of a load (12 R219). -/
def loadWrites (sz : MemSize) (lane reg x : Nat) : List RegWrite :=
  match sz with
  | .s8 => regWrites lane reg 1 (bitsInt (signExt x 8) 32)
  | .s16 => regWrites lane reg 1 (bitsInt (signExt x 16) 32)
  | _ => regWrites lane reg sz.width x

/-- The register writes of an atomic: none with `.post` (12 R222). -/
def atomWrites (ty : RedTy) (post : Bool) (lane reg old : Nat) : List RegWrite :=
  if post then [] else regWrites lane reg ty.width old

/-- A poisoned sector that its instruction has written whole is clear of poison (18 R344). -/
def State.clearWhole (s : State) (a : Access) : State :=
  if !a.whole then s
  else match a.space with
    | .cached => match s.l2? (a.pa / 32) with
      | some x => s.setL2 (Tbl.put s.memsys.l2 (a.pa / 32) { x with poison := 0 })
      | none => s
    | .ms => if s.remote a.pa then s else s.setMem { s.mem with poison := Tbl.setD s.mem.poison (lpaOf a.pa / 32) 0 0 }
    | .scratch => s

/-- A clean copy of an owned home granule (24 R418). -/
def State.cleanHome (s : State) (pg : Nat) : State :=
  let lg := lpaOf (pg * 128) / 128
  if s.remote (pg * 128) || [0, 1, 2, 3].any fun i => ((s.l2? (4 * pg + i)).map fun x => x.dirty).getD false then s
  else
    match s.dirEnt lg with
    | none => s
    | some e =>
      if e.owner = s.fabric.self ∧ e.st = .m then s.setDir lg { e with st := .e }
      else if e.owner = s.fabric.self ∧ e.st = .o then s.setDir lg { e with st := .s, owner := 0 }
      else s

/-- Maintenance of the 256-byte block of an address (12 R224). -/
def State.maintain (s : State) (pa : Nat) (clean drop : Bool) : State :=
  let secs := (List.range 8).map fun k => pa / 256 * 8 + k
  let s1 := if clean then secs.foldl (fun st k => st.l2Clean k) s else s
  let s2 := if clean then (s1.cleanHome (pa / 256 * 2)).cleanHome (pa / 256 * 2 + 1) else s1
  if drop then
    let s3 := secs.foldl (fun st k => (st.l2Drop k).l1Drop k none) s2
    (s3.settleHome (pa / 256 * 2)).settleHome (pa / 256 * 2 + 1)
  else s2

/-- One access performed: the register writes that its completion makes. -/
def State.performOne (s : State) (core slot : Nat) (g : Group) (a : Access) : Try (List RegWrite) :=
  let q := some g.ids.queue
  let ts := g.ids.teamSlot
  match a.space, a.op with
  | .cached, .load sz lane reg =>
    (s.cachedRead q a.pa a.size).bind fun s1 x =>
      .ok ((s1.touchL1 core slot a.pa a.policy).placeL2 s a.pa a.policy) (loadWrites sz lane reg x)
  | .cached, .store x =>
    (s.cachedWrite q (some core) a.pa a.size x).bind fun s1 _ =>
      .ok (((s1.clearWhole a).updateL1 core slot a.pa).placeL2 s a.pa a.policy) []
  | .cached, .atomic op ty _ b c post lane reg =>
    (s.cachedAtomic q (some core) a.tag a.pa a.size a.op fun old => atomicNew op ty old b c).bind fun s1 old =>
      .ok (s1.updateL1 core slot a.pa) (atomWrites ty post lane reg old)
  | .cached, .fold op ty x =>
    (s.cachedAtomic q (some core) a.tag a.pa a.size a.op fun old => foldNew op ty old x).bind fun s1 _ => .ok (s1.updateL1 core slot a.pa) []
  | .cached, .maint clean drop => .ok (s.maintain a.pa clean drop) []
  | .ms, .load sz lane reg => (s.msRead q a.tag a.pa a.size a.op).bind fun s1 x => .ok s1 (loadWrites sz lane reg x)
  | .ms, .store x => (s.msWrite q a.tag a.pa a.size x a.op).bind fun s1 _ => .ok (s1.clearWhole a) []
  | .ms, .atomic op ty _ b c post lane reg =>
    (s.msAtomic q a.tag a.pa a.size a.op fun old => atomicNew op ty old b c).bind fun s1 old =>
      .ok s1 (atomWrites ty post lane reg old)
  | .scratch, .load sz lane reg =>
    (s.settReady core ts slot (a.va / 2048)).bind fun s1 _ =>
      (s1.scratchRead core ts a.va a.size).bind fun s2 x => .ok s2 (loadWrites sz lane reg x)
  | .scratch, .store x =>
    (s.settReady core ts slot (a.va / 2048)).bind fun s1 _ =>
      let s2 := s1.scratchWrite core ts a.va a.size x
      let y := s2.sett core ts (a.va / 2048)
      .ok (if a.whole then s2.setSett core ts (a.va / 2048) { y with poison := y.poison.filter (· != a.va % 2048 / 32) } else s2) []
  | .scratch, .atomic op ty _ b c post lane reg =>
    (s.settReady core ts slot (a.va / 2048)).bind fun s1 _ =>
      (s1.scratchRead core ts a.va a.size).bind fun s2 old =>
        .ok (s2.scratchWrite core ts a.va a.size (atomicNew op ty old b c)) (atomWrites ty post lane reg old)
  | _, _ => .ok s []

/-- One access against the tracking and performed (13 R235): nothing is performed where it completes a conflict. -/
def State.perform (s : State) (core slot : Nat) (g : Group) (a : Access) : Chk (List RegWrite) :=
  match (s.performOne core slot g a).lane a.lane a.va with
  | .wait s1 => .wait s1
  | .fault s1 f => .fault s1 f
  | .ok s1 ws =>
    match s1.meet g a with
    | .error f => .fault s f
    | .ok s2 => .ok s2 ws

/-- After a fault of check 6, which of the other lanes' accesses are performed is open (12 R210); those that another package has performed
already stand. -/
def State.performSome (s : State) (core slot : Nat) (g : Group) (stands : Access → Bool) : List Access → State
  | [] => s
  | a :: rest =>
    let s1 := s.fresh
    let s2 := if Config.freeBool s.free || stands a then
        match s1.perform core slot g a with
        | .ok t _ => t
        | .wait t => t
        | .fault _ _ => s1
      else s1
    s2.performSome core slot g stands rest

/-- A store, an atomic or maintenance meets a fault of check 6 at one lane (12 R210): of the lanes before it that this attempt has performed,
and of those after it, any may have been performed. `start` is the state before the attempt, `before` those lanes, `s` the state at the
fault. -/
def State.faultSome (start s : State) (core slot : Nat) (g : Group) (before : List Access) (a : Access) (rest : List Access) : State :=
  match (start.performSome core slot g (fun b => start.remote b.pa) before).perform core slot g a with
  | .fault t _ => t.performSome core slot g (fun _ => false) rest
  | _ => s.performSome core slot g (fun _ => false) rest

/-- The accesses of an operation performed, lanes ascending, as far as they can be. A load in a read section that returns a release value is a
boundary directly after itself (13 R242). A remote timeout of a posted store is kept for the
group's next boundary (12 R228). -/
def State.performAll (s : State) (core slot : Nat) (g : Group) (o : PendOp) (start : State) (before : List Access) :
    List Access → List RegWrite → State × PendOp
  | [], ws => (s, { o with todo := [], writes := o.writes ++ ws })
  | a :: rest, ws =>
    match s.perform core slot g a with
    | .ok s1 w => s1.performAll core slot g (if s.readsRelease g a then { o with bound := some 5 } else o) start (before ++ [a]) rest (ws ++ w)
    | .wait s1 => (s1, { o with todo := a :: rest, writes := o.writes ++ ws })
    | .fault s1 f =>
      if f.cause = 0x34 ∧ o.posted then
        let s2 := s1.updGroup core slot fun g => { g with lateTimeout := some (g.lateTimeout.getD f) }
        s2.performAll core slot g o s2 [] rest ws
      else if o.isLoad then (s1, { o with todo := [], writes := [], fault := some f })
      else (start.faultSome s1 core slot g before a rest, { o with todo := [], writes := [], fault := some f })

/-- An operation carried as far as it can be: the checks of every lane, its accesses, its boundary. -/
def State.advance (s : State) (core slot : Nat) (g : Group) (o : PendOp) : State × PendOp :=
  let perform (s : State) (o : PendOp) : State × PendOp :=
    let r := s.performAll core slot g o s [] o.todo []
    if r.2.todo.isEmpty && r.2.fault.isNone then
      match o.bound with
      | some l => (r.1.boundary g.ids.uid l, r.2)
      | none => r
    else r
  if o.checked then perform s o
  else
    match s.checkAll core g o.todo with
    | .wait s1 => (s1, o)
    | .fault s1 f => (s1, { o with todo := [], writes := [], fault := some f })
    | .ok s1 todo => perform s1 { o with todo := todo, checked := true }

/-- The `k`-th operation of a group replaced. -/
def Group.setOp (g : Group) (k : Nat) (o : PendOp) : Group := { g with inflight := g.inflight.set k o }

/-- The operations of a group carried on in issue order, until one waits (12 R212). -/
def State.drain (s : State) (core slot : Nat) : Nat → Nat → State
  | _, 0 => s
  | k, n + 1 =>
    match s.group? core slot with
    | none => s
    | some g =>
      match g.inflight[k]? with
      | none => s
      | some o =>
        if o.todo.isEmpty || o.fault.isSome then s.drain core slot (k + 1) n
        else
          let r := s.advance core slot g o
          let s1 := r.1.updGroup core slot fun g => g.setOp k r.2
          if r.2.todo.isEmpty || r.2.fault.isSome then s1.drain core slot (k + 1) n else s1

/-- The operations of a group carried on. -/
def State.drainGroup (s : State) (core slot : Nat) : State :=
  match s.group? core slot with
  | some g => s.drain core slot 0 g.inflight.length
  | none => s

/-! ### Issue -/

/-- Checks 1 and 2 of 12 R210. -/
def addrFault (limit size lane : Nat) (a : Int) : Option FaultInfo :=
  if a < 0 ∨ limit ≤ a then some ⟨0x11, lane, 0, bitsInt a 64, 0⟩
  else if a % size ≠ 0 then some ⟨0x13, lane, 0, bitsInt a 64, 0⟩
  else none

/-- The end of the scratchpad space (12 R213). -/
def scratchEnd : Nat := 2 ^ 22

/-- The stores of one instruction cover the sector of an access whole. -/
def coversSector (accs : List Access) (a : Access) : Bool :=
  let same := accs.filter fun b => b.va / 32 == a.va / 32
  32 ≤ same.length * a.size && (List.range 32).all fun i => same.any fun b => b.va ≤ a.va / 32 * 32 + i && a.va / 32 * 32 + i < b.va + b.size

/-- The accesses of an instruction named and marked at its issue: their tags, the locks they meet, whole sectors. -/
def State.mark (s : State) (g : Group) (accs : List Access) : List Access :=
  accs.zipIdx.map fun p =>
    { p.1 with tag := s.nextId + p.2 + 1, section_ := 0 < g.rdepth, locked := s.lockMet g p.1
               whole := match p.1.op with
                 | .store _ => coversSector accs p.1
                 | _ => false }

/-- What of an operation is fixed by its instruction. -/
structure OpKind where
  path : Path
  isLoad : Bool
  posted : Bool
  maint : Bool
  bound : Option Nat
deriving DecidableEq, Repr

/-- A memory instruction issues: checks 1 and 2, the counter, checks 3 to 5 where nothing of them waits, then the operation, performed at once
as far as it can be. An instruction with no active lane does nothing (12 R210, 02 R26). -/
def State.issueMem (s : State) (g : Group) (e : Entry) (k : OpKind) (limit align : Nat) (space : Space) (pol : Policy)
    (lanes : List (Nat × Int × Nat × AccOp)) : Res :=
  let accs (xs : List (Nat × Int × Nat × AccOp)) : List Access := xs.map fun x =>
    { space := space, lane := x.1, va := x.2.1.toNat, pa := 0, size := x.2.2.1, op := x.2.2.2, tag := 0, section_ := false,
      locked := false, whole := false, policy := pol }
  let below := lanes.takeWhile fun x => (addrFault limit align x.1 x.2.1).isNone
  match lanes.findSome? fun x => addrFault limit align x.1 x.2.1 with
  | some f =>
    -- a lower lane that fails checks 3 to 5 is reported before it (01 R10)
    match s.checkAll s.cur.core g (s.mark g (accs below)) with
    | .fault _ f' => .fault f'
    | .wait s1 => .stall s1 10 0
    | .ok _ _ => .fault f
  | none =>
    if lanes.isEmpty then .done s
    else if 255 ≤ g.ctr k.path then .stall s 10 (1 + 256 * k.path.code.toNat)
    else
      let o : PendOp :=
        { path := k.path, flag := s.cur.flag, todo := s.mark g (accs lanes), writes := [], pos := e.pos,
          after := e.pos.next s.cur.len, born := s.nextId, entry := s.cur.entry, mask := e.mask,
          isLoad := k.isLoad, posted := k.posted, maint := k.maint, fault := none, checked := false, bound := k.bound, awaits := none,
          fromLeader := false }
      let s1 := { s with nextId := s.nextId + lanes.length }
      let go (s : State) (o : PendOp) : Res := .done ((s.setCurGroup { g with inflight := g.inflight ++ [o] }).drainGroup s.cur.core s.cur.slot)
      match s1.checkAll s.cur.core g o.todo with
      | .fault _ f => .fault f
      | .wait s2 => go s2 o
      | .ok s2 todo => go s2 { o with todo := todo, checked := true }

/-! ### Completion -/

/-- A fault found after issue (12 R210, 14 R255): the group stops with a record, or, while one waits, the fragment is set back; where a join
has freed the fragment's entry meanwhile, nothing is (log entry 93). -/
def State.lateFault (s : State) (core slot : Nat) (pos after : Pos) (entry born : Nat) (mask : BitVec 32) (f : FaultInfo) : State :=
  s.updGroup core slot fun g =>
    if g.ownRecord then
      if (g.ent entry).st = .free ∨ ((Tbl.find? g.stops.back entry).map fun b => decide (b ≤ born)).getD false then g
      else
        { g.stopAgain entry pos f.cause with
          stops := { g.stops with back := Tbl.put g.stops.back entry born }
          block := .none }
    else g.stopWith .faulted
      { info := f, resumable := false, regcnt := g.regcnt, faultPos := pos, restart := g.region, after := after, stop := false, late := true, mask := mask,
        entry := entry, progress := 0, cmd := none, tick := s.tick }

/-- The operation of a path that completes next, with its place: the oldest whose fault has been found, else the oldest. -/
def Group.oldest (g : Group) (path : Path) : Option (Nat × PendOp) :=
  let ops := g.inflight.zipIdx.filter fun p => p.1.path == path
  ((ops.find? fun p => p.1.fault.isSome).orElse fun _ => ops.head?).map fun p => (p.2, p.1)

/-- A leader's completed register writes for its shadow (14 R270); none of an operation that faulted. -/
def Group.queueWrites (g : Group) (o : PendOp) : Group :=
  if g.shadow.isSome ∧ (o.isLoad ∨ !o.posted) ∧ !o.maint then { g with loadQueue := g.loadQueue ++ [(o.path, o.writes)] } else g

/-- The oldest operation of a path completes if it can (02 R25, R26): its registers are written, its flag clears and its counter falls; a
fault found after issue is taken. A shadow's takes the leader's values. -/
def State.completeOp (s : State) (core slot : Nat) (path : Path) : Option State :=
  match s.group? core slot with
  | none => none
  | some g =>
    match g.oldest path with
    | none => none
    | some (k, o) =>
      let gone := { g with inflight := g.inflight.eraseIdx k }
      match o.fault with
      | some f => some ((s.setGroup core slot (gone.queueWrites { o with writes := [] })).lateFault core slot o.pos o.after o.entry o.born o.mask f)
      | none =>
        if o.fromLeader then
          match g.leader with
          | none => some (s.setGroup core slot gone)
          | some l =>
            match (s.group? core l).bind fun h => h.loadQueue.zipIdx.find? fun p => p.1.1 == path with
            | none => none
            | some (w, j) =>
              some ((s.setGroup core slot (w.2.foldl Group.applyWrite gone)).updGroup core l fun h =>
                { h with loadQueue := h.loadQueue.eraseIdx j })
        else if !o.todo.isEmpty then none
        else if (o.awaits.map fun v => s.cores.any fun c => c.2.inval.any fun x => x.1 == v).getD false then none
        else some (s.setGroup core slot ((o.writes.foldl Group.applyWrite gone).queueWrites o))

end Sys2Proof.Machine
end

