-- ==== Sys2Proof/Machine/Die.lean ====
section
/-! DEFINITION. The die memory system's own steps: SRAM modes (18 R338, R339), retraining (18 R345, R346), shape records (18 R333,
R334). -/

namespace Sys2Proof.Machine

/-! ### SRAM modes (18 R337 to R340) -/

/-- The SRAM lines of a die: those of its 32 L2 slices of 3 MiB, and the rest, which the spec does not count (log entry 88). -/
def dieLines : Nat := 32 * 49152 + Config.sramLines

/-- The mode of a line (18 R337). -/
def Die.modeOf (d : Die) (line : Nat) : Bool := d.mode != d.odd.contains line

/-- MIXED (18 R340): some line is in the mode other than the target. -/
def Die.mixed (d : Die) : Bool := if d.mode = d.target then !d.odd.isEmpty else decide (d.odd.length < dieLines)

/-- A line written (18 R338): it is encoded in the target mode, without an error. -/
def Die.encode (d : Die) (line : Nat) : Die :=
  let odd := (d.odd.filter (· != line)) ++ (if d.mode = d.target then [] else [line])
  let flips := d.flips.filter fun p => p.1 / 8 != line
  if d.mode ≠ d.target ∧ dieLines ≤ odd.length then { d with mode := d.target, odd := [], flips := flips }
  else { d with odd := odd, flips := flips }

/-- The lowest junction sensor of the package (23 R411). -/
def State.lowestSensor (s : State) : BitVec 8 :=
  [1, 2, 3].foldl (fun m d => if (s.die d).jlow.toInt < m.toInt then (s.die d).jlow else m) (s.die 0).jlow

/-- The corrected errors of the last millisecond (18 R338). -/
def Die.recentErrors (d : Die) (now : Nat) : Nat := (d.ceTimes.filter fun t => now < t + 1000000).length

/-- A condition for mode 1 holds at a time (18 R338). -/
def Die.hot (d : Die) (now : Nat) : Bool :=
  d.cethr ≤ d.recentErrors now || d.jlow.toInt ≤ d.tlow.toInt || d.thigh.toInt ≤ d.jhigh.toInt || d.force == 2

/-- When a condition for mode 1 last held, as far as it is known (18 R338): the corrected errors hold theirs for a millisecond. -/
def Die.lastHot (d : Die) : Option Nat :=
  let byCe := if d.cethr ≤ d.ceTimes.length then (d.ceTimes.drop (d.ceTimes.length - d.cethr)).head?.map fun t => t + 1000000 else none
  match d.hotAt, byCe with
  | some a, some b => some (Nat.max a b)
  | a, none => a
  | none, b => b

/-- The target rises at once when a condition for mode 1 holds (18 R338); FORCE 1 holds it at 0. -/
def Die.rise (d : Die) (now : Nat) : Die :=
  if d.hot now then { d with target := d.force != 1, hotAt := some now } else d

/-- No condition is known to have held within 100 ms (18 R338). -/
def Die.quiet (d : Die) (now : Nat) : Bool := !(d.lastHot.map fun t => decide (now < t + 100000000)).getD false

/-- The target that the conditions ask for (18 R338): it rises at once and falls 100 ms after the last of them; FORCE 1 holds it at 0. -/
def Die.aim (d : Die) (now : Nat) : Die :=
  if d.hot now then d.rise now
  else if d.force = 1 ∨ d.quiet now then { d with target := false }
  else d

/-- A write of ECC_CFG (18 R338, R340): FORCE takes effect at once. -/
def Die.writeEcc (d : Die) (now v : Nat) : Die :=
  let f := if bitsOf v 32 2 = 3 then 0 else bitsOf v 32 2
  ({ d with cethr := bitsOf v 0 16, tlow := BitVec.ofNat 8 (v / 2 ^ 16), thigh := BitVec.ofNat 8 (v / 2 ^ 24), force := f } : Die).aim now

/-- `ECC_TARGET_CHANGE` (18 R338): the target rises while a condition holds, and falls after 100 ms without one. The event carries what the die sees;
one that carries other figures than the state holds changes nothing. -/
def execEccTargetChange (die ce : Nat) (tmin tmax : Int) (quiet : Bool) (s : State) : Host.Outcome State Fault Refusal :=
  let d := s.die die
  let seen := ce == d.recentErrors s.time && tmin == d.jlow.toInt && tmax == d.jhigh.toInt && quiet == d.quiet s.time
  event s (if die < 4 && seen then some (s.setDie die (d.aim s.time)) else none)

/-- `DRESSER_VISIT` (18 R339): a line that is in the other mode, or that held a corrected error, is written back in the target mode, its value
unchanged; one with an uncorrectable error is left. -/
def execDresserVisit (die line : Nat) (s : State) : Host.Outcome State Fault Refusal :=
  let d := s.die die
  let bad := d.flips.any fun p => p.1 / 8 == line && (if d.modeOf line then 2 else 1) < p.2
  event s (if 4 ≤ die ∨ dieLines ≤ line ∨ bad then none else some (s.setDie die (d.encode line)))

/-! ### Retraining (18 R345, R346) -/

/-- A channel put at the end of its stack's queue, once. -/
def Stack.enqueue (k : Stack) (chan : Nat) : Stack := if k.queue.contains chan then k else { k with queue := k.queue ++ [chan] }

/-- The stack's sensor has moved 8 °C from the temperature of a channel's last training (18 R345). -/
def Stack.drifted (k : Stack) (chan : Nat) : Bool := 8 ≤ (k.temp.toInt - (Tbl.getD k.trained chan 0).toInt).natAbs

/-- The corrected errors of a channel in the last millisecond (18 R345). -/
def Stack.recentErrors (k : Stack) (chan now : Nat) : Nat := (k.ceTimes.filter fun e => e.1 == chan && now < e.2 + 1000000).length

/-- `RETRAIN_QUEUE` (18 R345): on temperature drift or on the channel's corrected errors. The event carries what the stack sees; one that carries other
figures than the state holds changes nothing. -/
def execRetrainQueue (stack chan : Nat) (tempMoved : Bool) (ce : Nat) (s : State) : Host.Outcome State Fault Refusal :=
  let k := s.stack stack
  let seen := tempMoved == k.drifted chan && ce == k.recentErrors chan s.time
  event s (if stack < 12 && chan < 32 && seen && k.en && (tempMoved || k.ethr ≤ ce) then some (s.setStack stack (k.enqueue chan)) else none)

/-- `RETRAINING_WINDOW` (18 R345): the first queued channel's window opens, no sooner than 100 microseconds after the last one, or the open window
ends with its pattern check; a channel that passes is trained at the present temperature. -/
def execRetrainingWindow (stack : Nat) (pass : Bool) (s : State) : Host.Outcome State Fault Refusal :=
  let k := s.stack stack
  event s <|
    if k.active then
      let k1 := { k with active := false, closedAt := some s.time }
      some (s.setStack stack (if pass then { k1 with trained := Tbl.setD k.trained k.chan k.temp 0 }
        else { k1 with fail := true, requeue := k.requeue ++ [(k.chan, s.time)] }))
    else if (k.closedAt.map fun t => decide (s.time < t + 100000)).getD false then none
    else match k.queue with
      | [] => none
      | c :: rest => some (s.setStack stack { k with active := true, chan := c, queue := rest, windows := Nat.min (k.windows + 1) (2 ^ 17 - 1) })

/-- `RETRAIN_REQUEUE` (18 R345): a channel whose pattern check failed is queued again after 1 ms. -/
def execRetrainRequeue (stack chan : Nat) (s : State) : Host.Outcome State Fault Refusal :=
  let k := s.stack stack
  event s <|
    if k.requeue.any (fun r => r.1 == chan && r.2 + 1000000 ≤ s.time) && k.en then
      some (s.setStack stack { k.enqueue chan with requeue := k.requeue.filter fun r => r.1 != chan })
    else none

/-! ### Shape records (18 R332 to R334) -/

/-- The bytes that a record covers: the first and how many. -/
def Shape.range (h : Shape) : Nat × Nat := if h.kind = 0 then (0, 0) else (rowUnit * h.base, rowUnit * h.units)

/-- Two records cover a row unit in common. -/
def Shape.overlaps (a b : Shape) : Bool := a.base < b.base + b.units && b.base < a.base + a.units

/-- The write of a record is refused (18 R334). -/
def MemSys.refusesShape (m : MemSys) (rec : Nat) (h : Shape) : Bool :=
  let valid := h.kind == 1 || h.kind == 2
  let others := List.filter (fun p : Nat × Shape => p.1 != rec && p.2.kind != 0) m.shapes
  m.shapeBusy || h.kind == 3 ||
    (valid && (61440 < h.base + h.units || others.any (fun p => p.2.overlaps h) || h.param == 0 || (h.kind == 2 && h.units % h.param != 0)))

/-- A write of SHAPE word 0 (18 R334). -/
def State.writeShape (s : State) (rec : Nat) (v : Nat) : State :=
  let m := s.memsys
  let h : Shape := ⟨bitsOf v 0 16, bitsOf v 16 16, bitsOf v 32 2, Tbl.getD m.param rec 0⟩
  if m.refusesShape rec h then { s with memsys := { m with shapeErr := true, shapeErrRec := rec } }
  else
    let old := Tbl.getD m.shapes rec .off
    { s with memsys := { m with shapes := Tbl.setD m.shapes rec h .off, shapeBusy := true, shapeRanges := [old.range, h.range] } }

/-- A write of SHAPE word 1: it waits for the next write of word 0 (18 R334). -/
def State.writeShapeParam (s : State) (rec : Nat) (v : Nat) : State :=
  { s with memsys := { s.memsys with param := Tbl.setD s.memsys.param rec (bitsOf v 0 24) 0 } }

/-- The package's L2 copies of a local range written back and dropped (18 R334, 24 R435). -/
def State.evictRange (s : State) (lo n : Nat) : State :=
  let secs := (Tbl.keys s.memsys.l2).filter fun k => homeOf (k * 32) == s.fabric.self && lo ≤ lpaOf (k * 32) && lpaOf (k * 32) < lo + n
  secs.foldl (fun st k => (st.l2Evict k).settleHome (k / 4)) s

/-- The granules of a local range that another package's L2 holds, with those packages (18 R334). -/
def State.heldElsewhere (s : State) (lo n : Nat) : List (Nat × List Nat) :=
  (List.filter (fun p : Nat × DirEnt => p.2.st != .x && decide (lo ≤ p.1 * 128) && decide (p.1 * 128 < lo + n)) s.fabric.dir).filterMap fun p =>
    let ps := (s.holders p.2).filter fun k => k != s.fabric.self
    if ps.isEmpty then none else some (p.1, ps)

/-- A dirty L2 copy of a local range waits for its channel's retraining window (18 R346). -/
def State.rangeWaits (s : State) (lo n : Nat) : Bool :=
  s.memsys.l2.any fun p => homeOf (p.1 * 32) == s.fabric.self && lo ≤ lpaOf (p.1 * 32) && lpaOf (p.1 * 32) < lo + n && p.2.dirty &&
    s.inWindow (lpaOf (p.1 * 32))

/-- A local range's contents become unspecified (18 R334). -/
def State.loosen (s : State) (lo n : Nat) : State := if n = 0 then s else (s.setMem (s.mem.loosen lo n s.free)).fresh

/-- `SHAPE_RECORD_WRITE` (18 R334). -/
def execShapeRecordWrite (rec : Nat) (value : BitVec 64) (s : State) : Host.Outcome State Fault Refusal :=
  event s (if rec < 64 then some (s.writeShape rec value.toNat) else none)

/-- `SHAPE_CHANGE_COMPLETE` (18 R334): the copies of the old and the new units that other packages hold are recalled; once they are home, this package's
L2 and DRAM-cache copies are written back and dropped, and the contents are unspecified. -/
def execShapeChangeComplete (s : State) : Host.Outcome State Fault Refusal :=
  let rs := s.memsys.shapeRanges
  event s <|
    if !s.memsys.shapeBusy then none
    else
      let held := rs.flatMap fun r => s.heldElsewhere r.1 r.2
      if !held.isEmpty then some (held.foldl (fun st h => (st.askHolders (α := Unit) h.1 h.2 false).state) s)
      else if rs.any fun r => s.rangeWaits r.1 r.2 then none
      else
        let s1 := rs.foldl (fun st r => ((st.evictRange r.1 r.2).dramDropRows (r.1 / rowUnit) (r.2 / rowUnit)).loosen r.1 r.2) s
        some { s1 with memsys := { s1.memsys with shapeBusy := false, shapeRanges := [] } }

end Sys2Proof.Machine
end

