-- ==== Sys2Proof/Machine/Crypto.lean ====
section
/-! DEFINITION. The functions of the standards that the spec names by their names (23 R407, R410): SHA-384 (FIPS 180-4), HMAC (RFC 2104), HKDF (RFC
5869), the inverse cipher of AES-256 (FIPS 197) and AES key unwrap (RFC 3394). The spec gives none of their text (log entry 102). -/

namespace Sys2Proof.Machine

/-! ### SHA-384 -/

/-- The 80 round constants of SHA-384, 64 bits each, the first lowest. -/
def shaK : Nat :=
  0x923f82a4af194f9b59f111f1b605d0193956c25bf348b538e9b5dba58189dbbcb5c0fbcfec4d3b2f7137449123ef65cd428a2f98d728ae22 +
  0x80deb1fe3b1696b172be5d74f27b896f550c7dc3d5ffb4e2243185be4ee4b28c12835b0145706fbed807aa98a3030242ab1c5ed5da6d8118 * 2 ^ 448 +
  0x2de92c6f592b0275240ca1cc77ac9c650fc19dc68b8cd5b5efbe4786384f25e3e49b69c19ef14ad2c19bf174cf6926949bdc06a725c71235 * 2 ^ 896 +
  0xbf597fc7beef0ee4b00327c898fb213fa831c66d2db43210983e5152ee66dfab76f988da831153b55cb0a9dcbd41fbd44a7484aa6ea6e483 * 2 ^ 1344 +
  0x4d2c6dfc5ac42aed2e1b21385c26c92627b70a8546d22ffc142929670a0e6e7006ca6351e003826fd5a79147930aa725c6e00bf33da88fc2 * 2 ^ 1792 +
  0xa81a664bbc423001a2bfe8a14cf1036492722c851482353b81c2c92e47edaee6766a0abb3c77b2a8650a73548baf63de53380d139d95b3df * 2 ^ 2240 +
  0x19a4c116b8d2d0c8106aa07032bbd1b8f40e35855771202ad69906245565a910d192e819d6ef5218c76c51a30654be30c24b8b70d0f89791 * 2 ^ 2688 +
  0x682e6ff3d6b2b8a35b9cca4f7763e3734ed8aa4ae3418acb391c0cb3c5c95a6334b0bcb5e19b48a82748774cdf8eeb991e376c085141ab53 * 2 ^ 3136 +
  0xbef9a3f7b2c67915a4506cebde82bde990befffa23631e288cc702081a6439ec84c87814a1f0ab7278a5636f43172f60748f82ee5defb2fc * 2 ^ 3584 +
  0x0a637dc5a2c898a606f067aa72176fbaf57d4f7fee6ed178eada7dd6cde0eb1ed186b8c721c0c207ca273eceea26619cc67178f2e372532b * 2 ^ 4032 +
  0x4cc5d4becb3e42b6431d67c49c100d4c3c9ebe0a15c9bebc32caab7b40c7249328db77f523047d841b710b35131c471b113f9804bef90dae * 2 ^ 4480 +
  0x6c44198c4a4758175fcb6fab3ad6faec597f299cfc657e2a * 2 ^ 4928

/-- The initial hash value of SHA-384, 64 bits each, the first lowest. -/
def shaH : Nat :=
  0xdb0c2e0d64f98fa78eb44a876858151167332667ffc00b31152fecd8f70e59399159015a3070dd17629a292a367cd507cbbb9d5dc1059ed8 +
  0x47b5481dbefa4fa4 * 2 ^ 448

/-- A 64-bit word rotated right. -/
def rotr64 (x n : Nat) : Nat := x / 2 ^ n + x % 2 ^ n * 2 ^ (64 - n)

/-- A big-endian number of bytes. -/
def beValue (d : List Byte) : Nat := d.foldl (fun n b => 256 * n + b.toNat) 0

/-- The `n` bytes of a number, the most significant first. -/
def beBytes (n x : Nat) : List Byte := ((List.range n).map fun i => BitVec.ofNat 8 (x / 256 ^ i)).reverse

/-- The word of the message schedule 16 places after the first of a window. -/
def shaNext (w : List Nat) : Nat :=
  let x := w.getD 1 0
  let y := w.getD 14 0
  (w.getD 0 0 + (rotr64 x 1 ^^^ rotr64 x 8 ^^^ x / 2 ^ 7) + w.getD 9 0 + (rotr64 y 19 ^^^ rotr64 y 61 ^^^ y / 2 ^ 6)) % 2 ^ 64

/-- The rounds that are left, from the constants, the window of the schedule and the working variables on. -/
def shaRounds : Nat → Nat → List Nat → List Nat → List Nat
  | 0, _, _, v => v
  | n + 1, k, w, v =>
    let a := v.getD 0 0
    let e := v.getD 4 0
    let s1 := rotr64 e 14 ^^^ rotr64 e 18 ^^^ rotr64 e 41
    let ch := (e &&& v.getD 5 0) ^^^ ((2 ^ 64 - 1 - e) &&& v.getD 6 0)
    let t1 := v.getD 7 0 + s1 + ch + k % 2 ^ 64 + w.getD 0 0
    let s0 := rotr64 a 28 ^^^ rotr64 a 34 ^^^ rotr64 a 39
    let maj := (a &&& v.getD 1 0) ^^^ (a &&& v.getD 2 0) ^^^ (v.getD 1 0 &&& v.getD 2 0)
    shaRounds n (k / 2 ^ 64) (w.drop 1 ++ [shaNext w])
      [(t1 + s0 + maj) % 2 ^ 64, a, v.getD 1 0, v.getD 2 0, (v.getD 3 0 + t1) % 2 ^ 64, e, v.getD 5 0, v.getD 6 0]

/-- The hash value after a block of 128 bytes. -/
def shaBlock (h : List Nat) (d : List Byte) : List Nat :=
  let w := (List.range 16).map fun i => beValue ((d.drop (8 * i)).take 8)
  (h.zip (shaRounds 80 shaK w h)).map fun p => (p.1 + p.2) % 2 ^ 64

/-- The hash value after the first `n` blocks. -/
def shaBlocks : Nat → List Nat → List Byte → List Nat
  | 0, h, _ => h
  | n + 1, h, d => shaBlocks n (shaBlock h (d.take 128)) (d.drop 128)

/-- SHA-384 of a byte string: 48 bytes. -/
def sha384 (d : List Byte) : List Byte :=
  let p := d ++ [0x80] ++ List.replicate ((111 + 128 - d.length % 128) % 128) 0 ++ beBytes 16 (8 * d.length)
  ((shaBlocks (p.length / 128) ((List.range 8).map fun i => shaH / 2 ^ (64 * i) % 2 ^ 64) p).take 6).flatMap (beBytes 8)

/-! ### HMAC and HKDF over SHA-384 -/

/-- HMAC over SHA-384. -/
def hmac384 (key msg : List Byte) : List Byte :=
  let k0 := if 128 < key.length then sha384 key else key
  let k := k0 ++ List.replicate (128 - k0.length) 0
  sha384 ((k.map fun b => b ^^^ 0x5C) ++ sha384 ((k.map fun b => b ^^^ 0x36) ++ msg))

/-- A key of 32 bytes derived with HKDF. -/
def hkdf384 (salt secret info : List Byte) : List Byte := (hmac384 (hmac384 salt secret) (info ++ [1])).take 32

/-! ### AES-256 -/

/-- The S-box of AES, a byte for each value, the first lowest. -/
def aesBox : Nat :=
  0x9a059618c323c7041531d871f1e5a534ccf73f362693fdb7c072a49cafa2d4adf04759fa7dc982ca76abd7fe2b670130c56f6bf27b777c63 +
  0xa89f3c507f02f94585334d43fbaaefd0cf584c4a39becb6a5bb1fc20ed00d153842fe329b3d63b52a05a6e1b1a2c830975b227ebe2801207 * 2 ^ 448 +
  0x5c2406490a3a32e0db0b5ede14b8ee4688902a22dc4f816073195d643d7ea7c41744975fec130ccdd2f3ff1021dab6bcf5389d928f40a351 * 2 ^ 896 +
  0x9e1dc186b95735610ef6034866b53e708a8bbd4b1f74dde8c6b4a61c2e2578ba08ae7a65eaf4566ca94ed58d6d37c8e779e4959162acd3c2 * 2 ^ 1344 +
  0x16bb54b00f2d99416842e6bf0d89a18cdf2855cee9871e9b948ed9691198f8e1 * 2 ^ 1792

/-- Its inverse. -/
def aesBoxInv : Nat :=
  0xb224d92866a12e084ec3fa420b954cee3d23c2a632947b54cbe9dec444438e3487ff2f9b8239e37cfbd7f3819ea340bf38a53630d56a0952 +
  0x0645b3b80558e4f70ad3bc8c00abd890849d8da75746155edab9edfd5048706c92b6655dcc5ca4d41698688664f6f87225d18b6d49a25b76 * 2 ^ 448 +
  0x89c5291d711af1476edf751ce837f9e28535ade72274ac9673e6b4f0cecff297eadc674f4111913a6b8a130103bdafc1020f3fca8f1e2cd0 * 2 ^ 896 +
  0xef9cc9939f7ae52d0d4ab519a97f51605fec8027591012b131c7078833a8dd1ff45acd78fec0db9a2079d2c64b3e56fc1bbe18aa0e62b76f * 2 ^ 1344 +
  0x7d0c2155631469e126d677ba7e042b17619953833cbbebc8b0f52aae4d3be0a0 * 2 ^ 1792

def aesSub (x : Nat) : Nat := aesBox / 256 ^ x % 256
def aesSubInv (x : Nat) : Nat := aesBoxInv / 256 ^ x % 256

/-- A product by two in the field of AES. -/
def aesTwice (x : Nat) : Nat := if x < 128 then 2 * x else (2 * x - 256) ^^^ 0x1B

/-- Two byte strings added bit by bit. -/
def xorBytes (a b : List Nat) : List Nat := (a.zip b).map fun p => p.1 ^^^ p.2

/-- The key schedule, from `i` words on, `n` more. -/
def aesExpand : Nat → Nat → List (List Nat) → List (List Nat)
  | 0, _, ws => ws
  | n + 1, i, ws =>
    let t := ws.getD (i - 1) []
    let u := if i % 8 = 0 then xorBytes ((t.drop 1 ++ t.take 1).map aesSub) [2 ^ (i / 8 - 1), 0, 0, 0]
      else if i % 8 = 4 then t.map aesSub else t
    aesExpand n (i + 1) (ws ++ [xorBytes (ws.getD (i - 8) []) u])

/-- The 60 words of the key schedule of a key of 32 bytes. -/
def aesSchedule (key : List Nat) : List (List Nat) := aesExpand 52 8 ((List.range 8).map fun i => (key.drop (4 * i)).take 4)

/-- The key of a round. -/
def aesRoundKey (ws : List (List Nat)) (r : Nat) : List Nat := ((ws.drop (4 * r)).take 4).flatten

/-- InvShiftRows and InvSubBytes. -/
def aesUnshift (s : List Nat) : List Nat := (List.range 16).map fun k => aesSubInv (s.getD (k % 4 + 4 * ((k / 4 + 4 - k % 4) % 4)) 0)

/-- InvMixColumns. -/
def aesUnmix (s : List Nat) : List Nat :=
  (List.range 16).map fun k =>
    let at_ (i : Nat) : Nat := s.getD (k / 4 * 4 + (k + i) % 4) 0
    let two (i : Nat) : Nat := aesTwice (at_ i)
    let four (i : Nat) : Nat := aesTwice (two i)
    let eight (i : Nat) : Nat := aesTwice (four i)
    (eight 0 ^^^ four 0 ^^^ two 0) ^^^ (eight 1 ^^^ two 1 ^^^ at_ 1) ^^^ (eight 2 ^^^ four 2 ^^^ at_ 2) ^^^ (eight 3 ^^^ at_ 3)

/-- The rounds of the inverse cipher that are left, `r` of them before the last. -/
def aesRounds (ws : List (List Nat)) : Nat → List Nat → List Nat
  | 0, s => xorBytes (aesUnshift s) (aesRoundKey ws 0)
  | r + 1, s => aesRounds ws r (aesUnmix (xorBytes (aesUnshift s) (aesRoundKey ws (r + 1))))

/-- A block of 16 bytes deciphered. -/
def aesDecrypt (ws : List (List Nat)) (d : List Nat) : List Nat := aesRounds ws 13 (xorBytes d (aesRoundKey ws 14))

/-! ### AES key unwrap -/

/-- The steps of an unwrap that are left: `t` of them, over `n` blocks of 8 bytes. -/
def unwrapSteps (ws : List (List Nat)) (n : Nat) : Nat → List Nat → List (List Nat) → List Nat × List (List Nat)
  | 0, a, rs => (a, rs)
  | t + 1, a, rs =>
    let i := t % n
    let mask := (List.range 8).map fun k => (t + 1) / 256 ^ (7 - k) % 256
    let b := aesDecrypt ws (xorBytes a mask ++ rs.getD i [])
    unwrapSteps ws n t (b.take 8) (rs.set i (b.drop 8))

/-- The 32-byte key that 40 wrapped bytes hold under a key of 32 bytes, if they unwrap. -/
def keyUnwrap (kek wrapped : List Byte) : Option (List Byte) :=
  let d := wrapped.map BitVec.toNat
  let r := unwrapSteps (aesSchedule (kek.map BitVec.toNat)) 4 24 (d.take 8) ((List.range 4).map fun i => (d.drop (8 * i + 8)).take 8)
  if r.1 = List.replicate 8 0xA6 then some (r.2.flatten.map (BitVec.ofNat 8)) else none

end Sys2Proof.Machine
end

