-- ==== Sys2Proof/Machine/Control.lean ====
section
/-! DEFINITION. The control instructions (07 R124 to R131; 03 R50). -/

namespace Sys2Proof.Machine

/-- The frame of a branch word, whose target lies in the virtual space (03 R50): the active lanes and the target. -/
def branch (i : Instr) (gd : Guard) (off : BitVec 32) (s : State) (body : Group → Entry → List Nat → Nat → Res) :
    Host.Outcome State Fault Refusal :=
  issue i s fun g e =>
    body g e (g.active e gd) (branchTarget e.pos.addr off).toNat

/-- The fall-through address of the issuing clause. -/
def State.fall (s : State) (e : Entry) : Nat := fallthrough e.pos.caddr s.cur.len

/-- The issuing fragment divided (07 R118) and nothing else changed. -/
def State.diverted (s : State) (g : Group) (e : Entry) (t : BitVec 32) (target join : Nat) : Res :=
  .control (s.setCurGroup (g.divert s.cur.entry t target (s.fall e) join))

/-- `nop` (07 R131). -/
def execNop (gd : Guard) (s : State) : Host.Outcome State Fault Refusal := issue (.nop gd) s fun _ _ => .done s

/-- `yield` (07 R131): only the issue selection sees it. -/
def execYield (gd : Guard) (s : State) : Host.Outcome State Fault Refusal := issue (.yield gd) s fun _ _ => .done s

/-- `bra` (07 R125). -/
def execBra (gd : Guard) (off : BitVec 32) (s : State) : Host.Outcome State Fault Refusal :=
  branch (.bra gd off) gd off s fun g e ls t => s.diverted g e (maskOf ls) t e.reconv

/-- `brq` (07 R125). -/
def execBrq (gd : Guard) (whenFalse : Bool) (q : Reg) (off : BitVec 32) (s : State) : Host.Outcome State Fault Refusal :=
  branch (.brq gd whenFalse q off) gd off s fun g e ls t =>
    s.diverted g e (if g.rdQ q.toNat != whenFalse then maskOf ls else 0) t e.reconv

/-- `bdiv` (07 R126). -/
def execBdiv (gd : Guard) (join : BitVec 16) (off : BitVec 32) (s : State) : Host.Outcome State Fault Refusal :=
  branch (.bdiv gd join off) gd off s fun g e ls t =>
    s.diverted g e (maskOf ls) t (joinTarget e.pos.addr join).toNat

/-- `regang` (07 R127): passed-over lanes go on at the fall-through address through `divert`; the issuing entry waits with the
rest. -/
def execRegang (gd : Guard) (off : BitVec 32) (s : State) : Host.Outcome State Fault Refusal :=
  branch (.regang gd off) gd off s fun g e ls t =>
    let m := maskOf ls
    if m = 0 then s.diverted g e 0 t e.reconv
    else
      let rest := e.mask &&& ~~~m
      let g1 := if rest = 0 then g else g.divert s.cur.entry rest (s.fall e) t e.reconv
      let k := g1.ent s.cur.entry
      .control (s.setCurGroup (g1.setEnt s.cur.entry { k with pos := ⟨t, 0⟩, st := .regang }).collapse)

/-- `loop` (07 R128). -/
def execLoop (gd : Guard) (vector : Bool) (c : Reg) (off : BitVec 32) (s : State) : Host.Outcome State Fault Refusal :=
  branch (.loop gd vector c off) gd off s fun g e ls t =>
    if vector then
      let g1 := ls.foldl (fun acc l => acc.wrV l c.toNat (g.rdV l c.toNat - 1)) g
      s.diverted g1 e (maskOf (ls.filter fun l => g.rdV l c.toNat - 1 != 0)) t e.reconv
    else if ls.isEmpty then s.diverted g e 0 t e.reconv
    else
      let x := g.rdS c.toNat - 1
      s.diverted (g.wrS c.toNat x) e (if x = 0 then 0 else maskOf ls) t e.reconv

/-- The parts of the active lanes by target, ordered by their lowest LANEID (07 R129). -/
def parts : List (Nat × Nat) → List (Nat × BitVec 32)
  | [] => []
  | (l, t) :: rest =>
    let ps := parts rest
    let own := match ps.find? fun p => p.1 == t with
      | some p => p.2
      | none => 0
    (t, own ||| BitVec.ofNat 32 (2 ^ l)) :: ps.filter fun p => p.1 != t

/-- The lanes of a jump spread over their targets (07 R129): with no lane passed over the first part stays in the entry. -/
def Group.spread (g : Group) (k : Nat) (e : Entry) (fall : Nat) (ts : List (Nat × Nat)) : Group :=
  match parts ts with
  | [] => g.divert k 0 fall fall e.reconv
  | p :: ps =>
    if e.mask &&& ~~~(maskOf (ts.map (·.1))) = 0 then
      let g1 := ps.foldl (fun acc q => acc.divert k q.2 q.1 p.1 e.reconv) g
      g1.setEnt k { g1.ent k with pos := ⟨p.1, 0⟩ }
    else (p :: ps).foldl (fun acc q => acc.divert k q.2 q.1 fall e.reconv) g

/-- The target check of an indirect jump (03 R50, 07 R129): alignment, then the range, for the lowest lane that fails. -/
def jumpFault : List (Nat × Nat) → Option FaultInfo
  | [] => none
  | (l, t) :: rest =>
    if t % 8 ≠ 0 then some (.at 0x13 l t) else if vaEnd ≤ t then some (.at 0x11 l t) else jumpFault rest

/-- The link pair of every active lane written with the fall-through address (07 R129). -/
def Group.writeLinks (g : Group) (link fall : Nat) (ls : List Nat) : Group :=
  ls.foldl (fun acc l => acc.wrVs l link 2 fall) g

/-- The frame of the indirect jumps. -/
def jump (i : Instr) (gd : Guard) (a : Src) (link : Option Reg) (s : State) : Host.Outcome State Fault Refusal :=
  lanewise i gd s fun g e ls =>
    let ts := ls.map fun l => (l, g.src a 2 l)
    match jumpFault ts with
    | some f => .fault f
    | none =>
      let g1 := match link with
        | some d => g.writeLinks d.toNat (s.fall e) ls
        | none => g
      .control (s.setCurGroup (g1.spread s.cur.entry e (s.fall e) ts))

/-- `call` (07 R129). -/
def execCall (gd : Guard) (l : Reg) (off : BitVec 32) (s : State) : Host.Outcome State Fault Refusal :=
  branch (.call gd l off) gd off s fun g e ls t =>
    .control (s.setCurGroup ((g.writeLinks l.toNat (s.fall e) ls).spread s.cur.entry e (s.fall e) (ls.map fun x => (x, t))))

/-- `calli` (07 R129). -/
def execCalli (gd : Guard) (l : Reg) (a : Src) (s : State) : Host.Outcome State Fault Refusal :=
  jump (.calli gd l a) gd a (some l) s

/-- `ret` (07 R129). -/
def execRet (gd : Guard) (a : Src) (s : State) : Host.Outcome State Fault Refusal := jump (.ret gd a) gd a none s

/-- `jmpi` (07 R129). -/
def execJmpi (gd : Guard) (a : Src) (s : State) : Host.Outcome State Fault Refusal := jump (.jmpi gd a) gd a none s

end Sys2Proof.Machine
end

