-- ==== Sys2Proof/Machine/Memory.lean ====
section
/-! DEFINITION. The memory instructions (12 R218 to R227) and the steps that complete them. -/

namespace Sys2Proof.Machine

def loadOp (path : Path) : OpKind := ⟨path, true, false, false, none⟩
def storeOp (path : Path) : OpKind := ⟨path, false, true, false, none⟩
def maintOp : OpKind := ⟨.gs, false, true, true, none⟩

/-- An atomic on its path: an ordered one is a boundary of its scope (13 R230). -/
def atomicOp (path : Path) (x : AtomMod) : OpKind :=
  ⟨path, false, x.post, false, if x.order = .relaxed then none else some (scopeLevel x.scope)⟩

/-- The space of an aperture. -/
def Aperture.space : Aperture → Space
  | .cached => .cached
  | .ms => .ms

/-- `ld` (12 R218, R219). -/
def execLd (gd : Guard) (sz : MemSize) (ap : Aperture) (pol : Policy) (d : Reg) (m : MAddr) (s : State) :
    Host.Outcome State Fault Refusal :=
  lanewise (.ld gd sz ap pol d m) gd s fun g e ls =>
    s.issueMem g e (loadOp .gl) vaEnd sz.bytes (Aperture.space ap) pol
      (ls.map fun l => (l, g.addrOf m 2 sz.bytes l, sz.bytes, .load sz l d.toNat))

/-- `st` (12 R218, R220): the data is read at issue. -/
def execSt (gd : Guard) (sz : MemSize) (ap : Aperture) (pol : Policy) (d : Reg) (m : MAddr) (s : State) :
    Host.Outcome State Fault Refusal :=
  lanewise (.st gd sz ap pol d m) gd s fun g e ls =>
    s.issueMem g e (storeOp .gs) vaEnd sz.bytes (Aperture.space ap) pol
      (ls.map fun l => (l, g.addrOf m 2 sz.bytes l, sz.bytes, .store (g.rdVs l d.toNat sz.width)))

/-- `ldu` (12 R218, R219): once, for scalar registers. -/
def execLdu (gd : Guard) (sz : MemSize) (ap : Aperture) (pol : Policy) (d : Reg) (m : MAddr) (s : State) :
    Host.Outcome State Fault Refusal :=
  uniform (.ldu gd sz ap pol d m) gd s fun g e =>
    s.issueMem g e (loadOp .gl) vaEnd sz.bytes (Aperture.space ap) pol
      [(255, g.addrOfU m sz.bytes, sz.bytes, .load sz 255 d.toNat)]

/-- `stu` (12 R218, R220). -/
def execStu (gd : Guard) (sz : MemSize) (ap : Aperture) (pol : Policy) (d : Reg) (m : MAddr) (s : State) :
    Host.Outcome State Fault Refusal :=
  uniform (.stu gd sz ap pol d m) gd s fun g e =>
    s.issueMem g e (storeOp .gs) vaEnd sz.bytes (Aperture.space ap) pol
      [(255, g.addrOfU m sz.bytes, sz.bytes, .store (g.rdSs d.toNat sz.width))]

/-- `lds` (12 R218, R219). -/
def execLds (gd : Guard) (sz : MemSize) (d : Reg) (m : MAddr) (s : State) : Host.Outcome State Fault Refusal :=
  lanewise (.lds gd sz d m) gd s fun g e ls =>
    s.issueMem g e (loadOp .sp) scratchEnd sz.bytes .scratch .dflt
      (ls.map fun l => (l, g.addrOf m 1 sz.bytes l, sz.bytes, .load sz l d.toNat))

/-- `sts` (12 R218, R220). -/
def execSts (gd : Guard) (sz : MemSize) (d : Reg) (m : MAddr) (s : State) : Host.Outcome State Fault Refusal :=
  lanewise (.sts gd sz d m) gd s fun g e ls =>
    s.issueMem g e (storeOp .sp) scratchEnd sz.bytes .scratch .dflt
      (ls.map fun l => (l, g.addrOf m 1 sz.bytes l, sz.bytes, .store (g.rdVs l d.toNat sz.width)))

/-- The sector of one lane's `prf` requested (12 R221): any failing check drops the lane. -/
def State.prefetch (s : State) (g : Group) (pol : Policy) (a : Int) : State :=
  if a < 0 ∨ vaEnd ≤ a then s
  else
    let acc : Access := { space := .cached, lane := 0, va := a.toNat, pa := 0, size := 1, op := .load .n8 0 0, tag := 0,
                          section_ := false, locked := false, whole := false, policy := pol }
    match s.checkAccess s.cur.core g { acc with locked := s.lockMet g acc } with
    | .ok s1 x => match s1.cachedRead (some g.ids.queue) x.pa 1 with
      | .ok s2 _ => (s2.touchL1 s.cur.core s.cur.slot x.pa pol).placeL2 s1 x.pa pol
      | .wait s2 => s2
      | .bad _ _ _ _ => s
    | .wait s1 => s1
    | .bad _ _ _ _ => s

/-- `prf` (12 R221): no register, no counter, no tracking, no fault. -/
def execPrf (gd : Guard) (pol : Policy) (m : MAddr) (s : State) : Host.Outcome State Fault Refusal :=
  lanewise (.prf gd pol m) gd s fun g _ ls => .done (ls.foldl (fun st l => st.prefetch g pol (g.addrOf m 2 1 l)) s)

/-- `atom` (12 R222, R223). -/
def execAtom (gd : Guard) (x : AtomMod) (ap : Aperture) (d : Reg) (a b c : Src) (s : State) : Host.Outcome State Fault Refusal :=
  lanewise (.atom gd x ap d a b c) gd s fun g e ls =>
    let n := redW x.ty / 8
    let w := x.ty.width
    s.issueMem g e (atomicOp (if x.post then .gs else .gl) x) vaEnd n (Aperture.space ap) .dflt
      (ls.map fun l => (l, (g.src a 2 l : Int), n, .atomic x.op x.ty x.order (g.src b w l) (g.src c w l) x.post l d.toNat))

/-- `atomu` (12 R222, R223): once, with scalar registers. -/
def execAtomu (gd : Guard) (x : AtomMod) (ap : Aperture) (d a b c : Reg) (s : State) : Host.Outcome State Fault Refusal :=
  uniform (.atomu gd x ap d a b c) gd s fun g e =>
    let n := redW x.ty / 8
    let w := x.ty.width
    s.issueMem g e (atomicOp (if x.post then .gs else .gl) x) vaEnd n (Aperture.space ap) .dflt
      [(255, (g.rdSs a.toNat 2 : Int), n, .atomic x.op x.ty x.order (g.rdSs b.toNat w) (g.rdSs c.toNat w) x.post 255 d.toNat)]

/-- `atoms` (12 R222, R223): in the scratchpad. -/
def execAtoms (gd : Guard) (x : AtomMod) (d : Reg) (a b c : Src) (s : State) : Host.Outcome State Fault Refusal :=
  lanewise (.atoms gd x d a b c) gd s fun g e ls =>
    let n := redW x.ty / 8
    let w := x.ty.width
    s.issueMem g e (atomicOp .sp x) scratchEnd n .scratch .dflt
      (ls.map fun l => (l, (g.src a 1 l : Int), n, .atomic x.op x.ty x.order (g.src b w l) (g.src c w l) x.post l d.toNat))

/-- The maintenance instructions (12 R224). -/
def maintenance (i : Instr) (gd : Guard) (m : MAddr) (clean drop : Bool) (s : State) : Host.Outcome State Fault Refusal :=
  lanewise i gd s fun g e ls =>
    s.issueMem g e maintOp vaEnd 1 .cached .dflt (ls.map fun l => (l, g.addrOf m 2 1 l, 256, .maint clean drop))

/-- `cln` (12 R224). -/
def execCln (gd : Guard) (m : MAddr) (s : State) : Host.Outcome State Fault Refusal := maintenance (.cln gd m) gd m true false s

/-- `inv` (12 R224). -/
def execInv (gd : Guard) (m : MAddr) (s : State) : Host.Outcome State Fault Refusal := maintenance (.inv gd m) gd m false true s

/-- `clninv` (12 R224). -/
def execClninv (gd : Guard) (m : MAddr) (s : State) : Host.Outcome State Fault Refusal := maintenance (.clninv gd m) gd m true true s

/-- `fence` (12 R225, 13 R239, R240): it issues when every earlier access has completed, and is a boundary of its scope. -/
def execFence (gd : Guard) (sc : Scope) (o : Order) (s : State) : Host.Outcome State Fault Refusal :=
  uniform (.fence gd sc o) gd s fun g _ =>
    if g.inflight.isEmpty then .done (s.boundary g.ids.uid (scopeLevel sc)) else .stall s 10 0

/-! ### Batches (12 R226, R227) -/

/-- The open batch of a path closed, if there is one. -/
def Group.closeBatch (g : Group) (p : Path) : Group :=
  { g with batches := g.batches.map fun b => if b.path = p then { b with closed := true } else b }

/-- `commit` (12 R226). -/
def execCommit (gd : Guard) (p : Path) (s : State) : Host.Outcome State Fault Refusal :=
  uniform (.commit gd p) gd s fun g _ => .group s (g.closeBatch p)

/-- The group observes completed commands of its own (20 R361). -/
def State.observe (s : State) (g : Group) (which : CmdTrack → Bool) : State :=
  s.setTrack { s.track with
    cmds := s.track.cmds.map fun c =>
      if c.party = g.ids.uid ∧ c.stop.isSome ∧ c.seen.isNone ∧ which c then { c with seen := some s.track.now }
      else c
    now := s.track.now + 1 }

/-- `wait` on a path passes: the region ends, and the commands of its completed batches are observed, so that their writes belong to the region
that begins (13 R230, 20 R361). -/
def State.passWait (s : State) (g : Group) (p : Path) : State :=
  let open_ := g.batches.flatMap fun b => b.cmds
  (s.boundary g.ids.uid 5).observe g fun c => c.path == p && !open_.contains c.cmd

/-- `wait` (12 R227): the open batch is closed; the group goes on when the counter has fallen to the threshold, else it blocks. It ends
the region (13 R230). -/
def execWait (gd : Guard) (p : Path) (a : Reg) (s : State) : Host.Outcome State Fault Refusal :=
  uniform (.wait gd p a) gd s fun g _ =>
    let g1 := g.closeBatch p
    let thr := (g.rdS a.toNat).toNat
    if g1.ctr p ≤ thr then .done ((s.setCurGroup g1).passWait g1 p)
    else .group s { g1 with block := .wait p thr }

/-- `MEMORY_OP_COMPLETION` (02 R25, R26; 12 R210): the operations of the group are carried on, and the oldest of the path completes if it
can. -/
def execMemoryOpCompletion (core slot : Nat) (path : Path) (s : State) : Host.Outcome State Fault Refusal :=
  let s1 := s.drainGroup core slot
  event s1 (s1.completeOp core slot path)

/-- `BATCH_COMPLETE` (12 R226): the oldest batch of the path, closed and with every command complete. -/
def execBatchComplete (core slot : Nat) (path : Path) (s : State) : Host.Outcome State Fault Refusal :=
  event s <| do
    let g ← s.group? core slot
    let b ← g.batches.find? fun b => b.path == path
    if b.closed && b.cmds.all fun c => s.cmds.all fun x => x.id != c || x.done then
      some { (s.setGroup core slot { g with batches := g.batches.erase b }) with
             cmds := s.cmds.filter fun x => !b.cmds.contains x.id }
    else none

end Sys2Proof.Machine
end

