-- ==== Sys2Proof/Machine/Barrier.lean ====
section
/-! DEFINITION. The team, cluster and grid barriers (16 R301 to R305), and the end of a group's lanes (07 R120, R130). -/

namespace Sys2Proof.Machine

/-- The context's groups and commands move: no save and no removal of it is under way (14 R268, 21 R384). -/
def State.ctxMoves (s : State) (q : Nat) : Bool := (s.ctx q).save.isNone && (s.ctx q).removing.isNone

/-- The parties of a cluster, a team or a grid that are resident: groups that are no shadows, by their place. -/
def State.groupsWhere (s : State) (f : Group → Bool) : List (Nat × Group) :=
  List.filter (fun p : Nat × Group => p.2.leader.isNone && f p.2) s.groups

/-- The groups belong to one team. -/
def sameTeam (a b : Ids) : Bool := a.queue == b.queue && a.grid == b.grid && a.cluid == b.cluid && a.teamid == b.teamid
/-- The groups belong to one cluster. -/
def sameCluster (a b : Ids) : Bool := a.queue == b.queue && a.grid == b.grid && a.cluid == b.cluid
/-- The groups belong to one grid. -/
def sameGrid (a b : Ids) : Bool := a.queue == b.queue && a.grid == b.grid

/-- The completion of an instance is a boundary of every member at one moment (16 R303, 13 R231). -/
def State.boundAll (s : State) (f : Group → Bool) (level : Nat) : State :=
  s.setTrack { s.track with
    bounds := s.track.bounds ++ (s.groupsWhere f).map fun p => ⟨p.2.ids.uid, level, s.track.now⟩
    now := s.track.now + 1 }

/-- The grid of a group. -/
def State.gridOf (s : State) (i : Ids) : Option Grid := (s.ctx i.queue).grids[i.grid]?

/-- A grid changed. -/
def State.updGrid (s : State) (q k : Nat) (f : Grid → Grid) : State :=
  let c := s.ctx q
  match c.grids[k]? with
  | some g => s.setCtx q { c with grids := c.grids.set k (f g) }
  | none => s

/-- The team's barrier completes if every member has arrived (16 R301). -/
def State.teamBarrier (s : State) (core ts : Nat) (i : Ids) : State :=
  match s.team? core ts with
  | none => s
  | some t =>
    if t.arr ≠ 0 ∧ t.arr = t.memb then
      (s.boundAll (fun g => sameTeam g.ids i) 1).setTeam core ts { t with arr := 0, gen := (t.gen + 1) % 2 ^ 16 }
    else s

/-- The member groups of a cluster. -/
def State.clusterMembers (s : State) (i : Ids) : List (Nat × Nat) :=
  (Tbl.vals s.teams).flatMap fun t =>
    if t.queue = i.queue ∧ t.grid = i.grid ∧ t.cluster = i.cluid then
      ((List.range 16).filter fun k => t.memb.getLsbD k).map fun k => (t.teamid, k)
    else []

/-- The cluster's barrier completes if every member has arrived. -/
def State.clusterBarrier (s : State) (i : Ids) : State :=
  match s.clusterOf i with
  | none => s
  | some (k, c) =>
    if !c.arr.isEmpty && (s.clusterMembers i).all fun m => c.arr.contains m then
      let s1 := s.boundAll (fun g => sameCluster g.ids i) 2
      { s1 with clusters := Tbl.put s1.clusters k { c with arr := [], gen := (c.gen + 1) % 2 ^ 16 } }
    else s

/-- The grid's barrier completes if every member has arrived; groups not yet placed are members. -/
def State.gridBarrier (s : State) (i : Ids) : State :=
  match s.gridOf i with
  | none => s
  | some d =>
    if d.arr ≠ 0 ∧ d.live ≤ d.arr then
      (s.boundAll (fun g => sameGrid g.ids i) 3).updGrid i.queue i.grid fun d => { d with arr := 0, gen := (d.gen + 1) % 2 ^ 16 }
    else s

/-- The instances completed of a group's barrier. -/
def State.barGen (s : State) (core : Nat) (i : Ids) : BarLevel → Nat
  | .team => ((s.team? core i.teamSlot).map fun t => t.gen).getD 0
  | .clu => ((s.clusterOf i).map fun c => c.2.gen).getD 0
  | .grid => ((s.gridOf i).map fun d => d.gen).getD 0

/-- A group arrives (16 R302). -/
def State.arriveBar (s : State) (core : Nat) (i : Ids) : BarLevel → State
  | .team =>
    match s.team? core i.teamSlot with
    | some t => (s.setTeam core i.teamSlot { t with arr := withBit t.arr i.grpid true }).teamBarrier core i.teamSlot i
    | none => s
  | .clu =>
    match s.clusterOf i with
    | some (k, c) => ({ s with clusters := Tbl.put s.clusters k { c with arr := c.arr ++ [(i.teamid, i.grpid)] } } : State).clusterBarrier i
    | none => s
  | .grid => (s.updGrid i.queue i.grid fun d => { d with arr := d.arr + 1 }).gridBarrier i

/-- A group blocked so has arrived at the current instance of the grid barrier. -/
def State.arrivedGrid (s : State) (i : Ids) (b : Block) : Bool :=
  match b, s.gridOf i with
  | .bar .grid gen, some d => gen == d.gen && d.arr != 0
  | _, _ => false

/-- A group stops being a member of its barriers, an arrival of its own with it, which may complete them (16 R301). `b` is what it was blocked
on. -/
def State.leaveBars (s : State) (core : Nat) (i : Ids) (b : Block) : State :=
  let s1 := match s.team? core i.teamSlot with
    | some t => (s.setTeam core i.teamSlot { t with memb := withBit t.memb i.grpid false, arr := withBit t.arr i.grpid false }).teamBarrier
        core i.teamSlot i
    | none => s
  let s2 := match s1.clusterOf i with
    | some (k, c) =>
      ({ s1 with clusters := Tbl.put s1.clusters k { c with arr := c.arr.filter (· != (i.teamid, i.grpid)) } } : State).clusterBarrier i
    | none => s1
  let gone := if s2.arrivedGrid i b then 1 else 0
  (s2.updGrid i.queue i.grid fun d => { d with live := d.live - 1, arr := d.arr - gone }).gridBarrier i

/-- A party has left its read section: the deferred-free records that were appended while it was inside take its place (22 R394). -/
def State.leftReads (s : State) (uid : Nat) : State :=
  let leave (x : DfSeen) : DfSeen :=
    if x.inside.contains uid then { x with inside := x.inside.filter (· != uid), left_ := x.left_ ++ [(uid, s.track.now)] } else x
  { s with ctxs := Tbl.mapV (fun c : Ctx => { c with dfSeen := c.dfSeen.map leave }) s.ctxs }

/-- A group stops being counted as a reader of its context (22 R386). -/
def State.uncount (s : State) (i : Ids) (tag : Bool) : State :=
  let c := s.ctx i.queue
  (s.setCtx i.queue (if tag then { c with rc1 := c.rc1 - 1 } else { c with rc0 := c.rc0 - 1 })).leftReads i.uid

/-- The group leaves every read section: its context's reader count falls (07 R130, 22 R386). -/
def State.leaveReads (s : State) (core slot : Nat) (g : Group) : State :=
  let s1 := if 0 < g.rdepth ∧ g.leader.isNone then s.uncount g.ids g.rtag else s
  s1.updGroup core slot fun g => { g with rdepth := 0 }

/-- What the end of a group's last lane does (07 R120, R130; 13 R230; 16 R301): it leaves its read sections and its barriers, its region
ends, and from now on it only drains. -/
def State.lastLane (s : State) (core slot : Nat) : State :=
  match s.group? core slot with
  | none => s
  | some g =>
    let s1 := (s.leaveReads core slot g).updGroup core slot fun g => { g with act := { g.act with st := .ending } }
    if g.leader.isSome then s1 else (s1.boundary g.ids.uid 5).leaveBars core g.ids g.block

/-- Every lane of a group ends as by `exit` (14 R260 action END, 21 R384). -/
def State.endGroup (s : State) (core slot : Nat) : State :=
  match s.group? core slot with
  | none => s
  | some g =>
    if g.over then s
    else
      let ents := Tbl.mapV (fun e : Entry => { e with mask := 0, st := .arrived }) g.ents
      ((s.setGroup core slot { g with ents := ents }).lastLane core slot).updGroup core slot fun g => { g with block := .none }

/-- `exit` (07 R120, R130): the active lanes end; passed-over lanes go on at the fall-through address in the same entry. The last lane
waits until every earlier access has been performed (24 R428). -/
def execExit (gd : Guard) (s : State) : Host.Outcome State Fault Refusal :=
  lanewise (.exit gd) gd s fun g e ls =>
    let last := g.allMask &&& ~~~(maskOf ls) == 0
    if last && g.inflight.any fun o => !o.todo.isEmpty && !o.fromLeader then .stall s 10 0
    else
      let g1 := (g.setEnt s.cur.entry { e with pos := ⟨s.fall e, 0⟩ }).removeLanes s.cur.entry (maskOf ls)
      let s1 := s.setCurGroup g1
      .control (if last then s1.lastLane s.cur.core s.cur.slot else s1)

/-- `bar` (16 R302): from an undivided group; it arrives when every earlier access has completed, and blocks until the instance
completes. -/
def execBar (gd : Guard) (level : BarLevel) (s : State) : Host.Outcome State Fault Refusal :=
  uniform (.bar gd level) gd s fun g _ =>
    if !g.single then .fault (.word 0x01)
    else if !g.inflight.isEmpty then .stall s 10 0
    else
      let gen := s.barGen s.cur.core g.ids level
      .done ((s.setCurGroup { g with block := .bar level gen }).arriveBar s.cur.core g.ids level)

/-- `BARRIER_RELEASE` (16 R303): the instance that the group waits for has completed. -/
def execBarrierRelease (core slot : Nat) (s : State) : Host.Outcome State Fault Refusal :=
  event s <| do
    let g ← s.group? core slot
    match g.block with
    | .bar level gen =>
      if s.barGen core g.ids level != gen && g.runs then some (s.setGroup core slot { g with block := .none }) else none
    | _ => none

end Sys2Proof.Machine
end

