-- ==== Sys2Proof/Machine/Pager.lean ====
section
/-! DEFINITION. The pager's fills and spills of setts (12 R213 to R217). -/

namespace Sys2Proof.Machine

/-- The virtual address of a sett's backing block, by its map entry (12 R213). -/
def backOf (e : Nat) : Nat := bitsOf e 11 46 * 2048

/-- A sett's 64 sectors written to its backing block as cached stores of the context: an uncorrectable sector carries its poison
(12 R215, 18 R340). -/
def State.spillSectors (s : State) (core q : Nat) (x : Sett) (va : Nat) : Nat → Nat → Try Unit
  | _, 0 => .ok s ()
  | k, n + 1 =>
    (s.translate core q true ⟨false, true, false, some .cached⟩ (va + 32 * k)).bind fun s1 p =>
      (s1.cachedWrite (some q) (some core) p.1 32 (x.rd (32 * k) 32)).bind fun s2 _ =>
        let bad := if x.poison.contains k then 1 else 0
        let s3 := match s2.l2? (p.1 / 32) with
          | some y => s2.setL2 (Tbl.put s2.memsys.l2 (p.1 / 32) { y with poison := bad })
          | none => s2
        s3.spillSectors core q x va (k + 1) n

/-- A sett written to its backing block, every page tried first, and its map entry set to BACKED (12 R213 to R215). -/
def State.spillSett (s : State) (core : Nat) (t : Team) (n : Nat) (x : Sett) : Try Unit :=
  (s.readMap core t n).bind fun s1 e =>
    let va := backOf e
    let lift {α : Type} (r : Try α) : Try α := match r with
      | .bad s c y none => .bad s c y (some va)
      | r => r
    (lift (s1.vprobe core t.queue va 2 2048)).bind fun s2 _ =>
      (lift (s2.vprobe core t.queue (t.mapEntry n) 2 8)).bind fun s3 _ =>
        (lift (s3.spillSectors core t.queue x va 0 64)).bind fun s4 _ =>
          lift (s4.vwrite core t.queue (t.mapEntry n) 2 (leBytes 8 (e / 4 * 4 + 2)))

/-- A fault of the pager: the cause with the address it names, that of the map entry, or, where the spec names none, the first of the backing block
(log entry 105). -/
def pagerFault (c y : Nat) (a : Option Nat) : FaultInfo := ⟨c, 255, y, a.getD 0, 0⟩

/-- `SETT_FILL` (12 R213 to R215): a sett in FILL becomes RES with zeros, or with the contents of its backing block; a fault leaves it OUT,
and is raised at the access of the group that caused the fill. -/
def execSettFill (core team sett : Nat) (s : State) : Host.Outcome State Fault Refusal :=
  event s <| do
    let t ← s.team? core team
    let x := s.sett core team sett
    if x.st ≠ .fill then none
    else
      let finish (s : State) (d : List Byte) : State :=
        let y : Sett := { x with st := .res, data := d.zipIdx.foldl (fun m p => Tbl.setD m p.2 p.1 0) [], poison := [], fillFault := none }
        let c := (s.setSett core team sett y).coreSt core
        (s.setSett core team sett y).setCore core { c with fills := Nat.min (c.fills + 1) (2 ^ 28 - 1) }
      let fail (s : State) (c y : Nat) (a : Option Nat) : State :=
        s.setSett core team sett { x with st := .out, fillFault := some (pagerFault c y a) }
      match s.readMap core t sett with
      | .wait s1 => some s1
      | .bad s1 c y a => some (fail s1 c y a)
      | .ok s1 e =>
        if e % 4 = 1 then some (finish s1 [])
        else if e % 4 = 2 then
          match s1.vread core t.queue (backOf e) 65 2048 with
          | .ok s2 d => some (finish s2 d)
          | .wait s2 => some s2
          | .bad s2 c y a => some (fail s2 c y (some (a.getD (backOf e))))
        else some (s1.setSett core team sett .absent)

/-- `SETT_SPILL` (12 R214 to R216): a sett in SPILL becomes OUT once its backing block and its map entry are written; a fault returns it to
DIRTY with its contents. -/
def execSettSpill (core team sett : Nat) (s : State) : Host.Outcome State Fault Refusal :=
  event s <| do
    let t ← s.team? core team
    let x := s.sett core team sett
    if x.st ≠ .spill then none
    else match s.spillSett core t sett x with
      | .ok s1 _ => some (s1.setSett core team sett .absent)
      | .wait s1 => some s1
      | .bad s1 c y a => some (s1.setSett core team sett { x with st := .dirty, spillFault := some (pagerFault c y a), raised := false })

end Sys2Proof.Machine
end

