-- ==== Sys2Proof/Machine/Checked.lean ====
section
/-! DEFINITION. Checked launches (14 R270, R271): a shadow issues the positions that its leader has issued, takes the leader's loaded
values, and the leader's stores, atomics and commands wait for the shadow's matching instruction. -/

namespace Sys2Proof.Machine

/-- A position as the position words hold it (07 R116, 14 R256). -/
def Pos.code (p : Pos) : Nat := p.slot + p.caddr / 8 * 16

/-- What a shadow does with a word (14 R270). -/
inductive Role where
  /-- It executes it. -/
  | pure
  /-- It issues it and nothing happens. -/
  | skip
  /-- Its result comes from the leader's load queue, on a path. -/
  | load (path : Path)
  /-- Its result, in a scalar register, is the leader's. -/
  | value (d : Reg)
deriving DecidableEq, Repr

/-- The role of a word in a shadow. -/
def shadowRole : Instr → Role
  | .ld .. | .ldu .. | .csrr .. => .load .gl
  | .lds .. => .load .sp
  | .atom _ x _ _ _ _ _ | .atomu _ x _ _ _ _ _ => if x.post then .skip else .load .gl
  | .atoms _ x _ _ _ _ => if x.post then .skip else .load .sp
  | .srsv .. => .load .mx
  | .cgrp .. => .load .cl
  | .resume _ d _ _ | .dbg _ d _ _ _ | .halt _ d _ => .value d
  | .st .. | .stu .. | .sts .. | .prf .. | .fence .. | .wait .. | .commit .. | .cln .. | .inv .. | .clninv .. | .srel ..
  | .bload .. | .cbt .. | .mma .. | .szero .. | .srd .. | .swr .. | .sst .. | .cpy .. | .gath .. | .scat .. | .fill .. | .tokset ..
  | .pim .. | .rowcp .. | .rowz .. | .cstart .. | .cwait .. | .red .. | .emit .. | .trap .. | .brk .. | .csrw .. | .bar ..
  | .gwait .. | .dfree .. | .sleep .. | .rdenter .. | .rdexit .. | .regroup .. => .skip
  | _ => .pure

/-- The leader's word waits for the shadow's matching instruction (14 R270). -/
def comparedWord : Instr → Bool
  | .st .. | .stu .. | .sts .. | .atom .. | .atomu .. | .atoms .. | .cln .. | .inv .. | .clninv .. | .srsv .. | .srel .. | .bload ..
  | .cbt .. | .mma .. | .szero .. | .srd .. | .swr .. | .sst .. | .cpy .. | .gath .. | .scat .. | .fill .. | .tokset .. | .pim ..
  | .rowcp .. | .rowz .. | .cgrp .. | .cstart .. | .red .. | .emit .. | .csrw .. | .dfree .. | .regroup .. | .rdenter ..
  | .rdexit .. | .resume .. | .dbg .. | .halt .. | .bar .. => true
  | _ => false

/-- The values that a word reads in a group, lanes ascending (14 R270: address, size, operation and data). -/
def Group.readValues (g : Group) (k : Nat) (i : Instr) : List Nat :=
  let lanes := match i.guard? with
    | some (gd, false) => g.active (g.ent k) gd
    | _ => []
  let uni := match i.guard? with
    | some (gd, true) => (g.guardUni gd).toNat
    | _ => 0
  uni :: lanes ++ (i.operands.filter (·.reads)).flatMap fun o => match o.cls with
    | .vec => lanes.map fun l => g.rdVs l o.num o.width
    | .sca => [g.rdSs o.num o.width]
    | .pred => lanes.map fun l => (g.rdP l o.num).toNat
    | .upred => [(g.rdQ o.num).toNat]

/-- A group and its shadow restart at the group's region entry (14 R252, R271). -/
def State.rewindPair (s : State) (core slot : Nat) (g : Group) : State :=
  let clean (x : Group) : Group := { x with trace := [], loadQueue := [], readQueue := [] }
  let s1 := s.updGroup core slot fun x => clean x.restartTable
  match g.shadow with
  | some h => s1.updGroup core h fun x => clean { x.setEnt 0 { x.ent 0 with saved := (g.ent 0).saved } with region := g.region }.restartTable
  | none => s1

/-- Both groups restart at the leader's restart point; the eighth restart of one region stops the pair (14 R271). -/
def State.restartPair (s : State) (core slot : Nat) (g : Group) : State :=
  let s1 := (s.rewindPair core slot g).updGroup core slot fun x => { x with restarts := x.restarts + 1 }
  if 8 ≤ g.restarts + 1 then s1.takeFault core slot 0 g.region (.word 0x51) else s1

/-- What the pairing says of a leader's or a lone group's word at issue. -/
inductive Gate where
  | go | hold | mismatch
deriving DecidableEq, Repr

/-- A fragment of a group stands at a position, or at the clause start that leads to it. -/
def Group.canReach (g : Group) (p : Pos) : Bool :=
  g.live.any fun j =>
    let e := g.ent j
    (e.st == .running || e.st == .stopped) && (e.pos == p || e.pos == ⟨p.caddr, 0⟩)

/-- A mismatch of a pair is acted on when nothing of it is in flight (log entry 36). -/
def misses (l h : Group) : Gate := if l.inflight.isEmpty && h.inflight.isEmpty then .mismatch else .hold

/-- The gate of a word of a group that may lead a shadow (14 R270, R271): a compared word and a region entry wait for the shadow, which must
come to the same position. -/
def State.leaderGate (s : State) (g : Group) (k : Nat) (i : Instr) : Gate :=
  match g.shadow.bind fun h => s.group? s.cur.core h with
  | none => .go
  | some h =>
    let p := (g.ent k).pos
    if !(comparedWord i || s.opensRegion g i) then .go
    else if !h.canReach (g.trace.headD p) then misses g h
    else if !g.trace.isEmpty then .hold
    else match h.live.find? fun j => (h.ent j).st == .running && (h.ent j).pos == p with
      | none => .hold
      | some j => if comparedWord i && g.readValues k i != h.readValues j i then misses g h else .go

/-- The gate of a shadow (14 R270): it issues only the leader's next position; a position that none of its fragments can come to is a
mismatch. -/
def State.shadowGate (s : State) (g : Group) (k : Nat) : Gate :=
  match g.leader.bind fun l => s.group? s.cur.core l with
  | none => .go
  | some l =>
    match l.trace with
    | [] => .hold
    | p :: _ => if (g.ent k).pos = p then .go else if g.canReach p then .hold else misses l g

/-- The leader's trace after a word that has issued; a `regroup` that waits for its partner moves the shadow itself (07 R139). -/
def Group.traced (g : Group) (p : Pos) : Group :=
  if g.shadow.isSome && g.meet.isNone then { g with trace := g.trace ++ [p] } else g

/-- A shadow's word that it does not execute itself (14 R270). -/
def State.shadowIssue (s : State) (i : Instr) : State :=
  match shadowRole i with
  | .load path =>
    s.issueWith i fun g e =>
      let none_ := match i.guard? with
        | some (gd, true) => !g.guardUni gd
        | some (gd, false) => (g.active e gd).isEmpty
        | none => true
      if none_ then .done s
      else if 255 ≤ g.ctr path then .stall s 10 (1 + 256 * path.code.toNat)
      else .group s { g with inflight := g.inflight ++
        [{ path := path, flag := s.cur.flag, todo := [], writes := [], pos := e.pos, after := e.pos.next s.cur.len, born := s.nextId,
           entry := s.cur.entry,
           mask := e.mask, isLoad := true, posted := false, maint := false, fault := none, checked := true, bound := none,
           awaits := none, fromLeader := true }] }
  | .value d =>
    s.issueWith i fun g _ =>
      match i.guard?, (g.leader.bind fun l => s.group? s.cur.core l).map fun l => l.readQueue with
      | some (gd, _), some (x :: rest) =>
        if g.guardUni gd then
          .done ((s.setCurGroup { g with statuses := g.statuses ++ [⟨s.cur.flag, d.toNat, BitVec.ofNat 32 x⟩] }).updGroup s.cur.core
            (g.leader.getD 0) fun l => { l with readQueue := rest })
        else .done s
      | _, _ => .done s
  | _ =>
    s.issueWith i fun g e =>
      let on := match i.guard? with
        | some (gd, true) => g.guardUni gd
        | _ => true
      let g1 := match i with
        | .rdenter _ => if on then { g with rdepth := g.rdepth + 1 } else g
        | .rdexit _ => if on then { g with rdepth := g.rdepth - 1 } else g
        | .regroup gd d _ => g.regroupStatus d.toNat (maskOf (g.active e gd)) 2
        | _ => g
      .group s g1

/-- The position that the leader issued and the shadow has now issued leaves the trace. -/
def State.popTrace (s : State) (core : Nat) (g : Group) : State :=
  match g.leader with
  | some l => s.updGroup core l fun h => { h with trace := h.trace.drop 1 }
  | none => s

end Sys2Proof.Machine
end

