-- ==== Sys2Proof/Machine/Engine.lean ====
section
/-! DEFINITION. Engine commands: tokens (16 R306 to R309), ranges and their locks (16 R311 to R315), the issue, dispatch, suspension and
end of a command (12 R226; 13 R243, R244; 14 R250, R251). -/

namespace Sys2Proof.Machine

/-! ### Tokens (16 R306, R307) -/

/-- The tokens of a token word; `none` where a bit marked zero is set or the output is a valid input. -/
def tokenWord (w : Nat) : Option (Option Nat × Option Nat × Option Nat) :=
  let in0 := bitsOf w 0 3
  let in1 := bitsOf w 4 3
  let out := bitsOf w 8 3
  let bad := bitsOf w 12 20 != 0 || (!bitOf w 3 && in0 != 0) || (!bitOf w 7 && in1 != 0) || (!bitOf w 11 && out != 0) ||
    (bitOf w 11 && ((bitOf w 3 && in0 == out) || (bitOf w 7 && in1 == out)))
  if bad then none
  else some (if bitOf w 3 then some in0 else none, if bitOf w 7 then some in1 else none, if bitOf w 11 then some out else none)

def Team.pendOf (t : Team) (k : Nat) : Nat := Tbl.getD t.pend k 0

/-- A command that names a token as output issues. -/
def Team.takeToken (t : Team) (k : Nat) : Team :=
  { t with pend := Tbl.setD t.pend k (t.pendOf k + 1) 0, rdy := withBit t.rdy k false }

/-- Such a command completes or is abandoned. -/
def Team.giveToken (t : Team) (k : Nat) : Team :=
  let n := t.pendOf k - 1
  { t with pend := Tbl.setD t.pend k n 0, rdy := if n = 0 then withBit t.rdy k true else t.rdy }

/-- A `tokset` word applied: CLR first, then SET where nothing is pending (16 R306, R309). -/
def Team.tokset (t : Team) (w : Nat) : Team :=
  let cleared := t.rdy &&& ~~~(BitVec.ofNat 8 (bitsOf w 8 8))
  { t with rdy := (List.range 8).foldl (fun m k => if bitOf w k && t.pendOf k == 0 then withBit m k true else m) cleared }

/-! ### Ranges (16 R311, R318) -/

/-- A range of a command: its space and kind, its lowest byte and length, and the pieces it reads or writes, each an address and a
length (13 R244, 16 R318). -/
structure Rng where
  sp : Bool
  wr : Bool
  lo : Int
  n : Nat
  rows : List (Nat × Nat)
deriving DecidableEq, Repr

/-- A range of one piece. -/
def Rng.whole (sp wr : Bool) (lo n : Nat) : Rng := ⟨sp, wr, lo, n, [(lo, n)]⟩

/-- A range of rows at a pitch. -/
def Rng.pitched (sp wr : Bool) (lo rows pitch len : Nat) : Rng :=
  ⟨sp, wr, lo, (rows - 1) * pitch + len, (List.range rows).map fun r => (lo + r * pitch, len)⟩

/-- A range lies outside its space (16 R319). -/
def Rng.outside (r : Rng) : Bool := r.lo < 0 || (if r.sp then scratchEnd else vaEnd) < r.lo + r.n

/-- A write range overlaps a read range of the same command (16 R319). -/
def Rng.overlaps (a b : Rng) : Bool := a.sp == b.sp && a.lo < b.lo + b.n && b.lo < a.lo + a.n

/-- The lock of a range (16 R311): widened to sectors. -/
def Rng.lock (r : Rng) (entry cmd slot : Nat) (i : Ids) : Lock :=
  { entry := entry, cmd := cmd, lo := r.lo.toNat / 32 * 32, hi := (r.lo.toNat + r.n + 31) / 32 * 32 - 1, sp := r.sp, wr := r.wr, team := i.teamid,
    teamKey := teamKeyOf i, slot := slot, disp := false, queue := i.queue }

/-- The entries of a range-lock table that are free, the lowest first: a command takes them in order (16 R311; log entry 99). -/
def freeEntries (ls : List Lock) : List Nat := (List.range 32).filter fun k => !ls.any fun l => l.entry == k

/-- The locks of a command's ranges in a cluster's table. -/
def rangeLocks (ls : List Lock) (rs : List Rng) (cmd slot : Nat) (i : Ids) : List Lock :=
  rs.zipIdx.map fun x => x.1.lock ((freeEntries ls).getD x.2 0) cmd slot i

/-- Two locks clash (16 R313). -/
def Lock.clashes (a b : Lock) : Bool :=
  a.sp == b.sp && (!a.sp || a.teamKey == b.teamKey) && (a.wr || b.wr) && a.lo ≤ b.hi && b.lo ≤ a.hi

/-- The physical pieces of a virtual range: virtual and physical address, length, and whether the page is a memory-side one. A page whose walk
waits makes the command wait; one that does not translate is left out: its fault is found as the command runs. -/
def State.physPieces (s : State) (core q va : Nat) : Nat → Nat → Try (List (Nat × Nat × Nat × Bool))
  | 0, _ => .ok s []
  | fuel + 1, n =>
    if n = 0 then .ok s []
    else
      match s.leafOf core q va with
      | .ok s1 r =>
        let k := Nat.min n (r.2 - va % r.2)
        (s1.physPieces core q (va + k) fuel (n - k)).bind fun s2 l => .ok s2 ((va, leafPa r.1 r.2 va, k, bitOf r.1 6) :: l)
      | .wait s1 => .wait s1
      | .bad s1 _ _ _ =>
        let k := Nat.min n (4096 - va % 4096)
        s1.physPieces core q (va + k) fuel (n - k)

/-- The spaces in which a command's word is tracked: a near-memory command names no aperture, so it meets accesses of both (19 R350, R359);
another command's access is made through its page's own (12 R208, 13 R246). -/
def cmdSpaces (path : Path) (ms : Bool) : List Nat := if path = .nm then [0, 1] else if ms then [1] else [0]

/-- The pieces of the rows of a range as the tracking sees them: space, address as the program names it, physical address, length. -/
def State.trackedRows (s : State) (core q : Nat) (path : Path) : List (Nat × Nat) → Try (List (Nat × Nat × Nat × Nat))
  | [] => .ok s []
  | p :: rest =>
    (s.physPieces core q p.1 (p.2 / 4096 + 2) p.2).bind fun s1 xs =>
      (s1.trackedRows core q path rest).bind fun s2 l =>
        .ok s2 ((xs.flatMap fun x => (cmdSpaces path x.2.2.2).map fun sp => (sp, x.1, x.2.1, x.2.2.1)) ++ l)

/-- The pieces of a range as the tracking sees them. -/
def State.tracked (s : State) (core : Nat) (i : Ids) (path : Path) (r : Rng) : Try (List (Nat × Nat × Nat × Nat)) :=
  if r.sp then .ok s (r.rows.map fun p => (teamKeyOf i + 2, p.1, p.1, p.2)) else s.trackedRows core i.queue path r.rows

/-- The pieces of every range of a command, each range with whether it is written. -/
def State.trackedAll (s : State) (core : Nat) (i : Ids) (path : Path) : List Rng → Try (List (Bool × List (Nat × Nat × Nat × Nat)))
  | [] => .ok s []
  | r :: rest => (s.tracked core i path r).bind fun s1 x => (s1.trackedAll core i path rest).bind fun s2 l => .ok s2 ((r.wr, x) :: l)

/-- A command's range against the accesses and commands of other parties whose regions are open at its issue (13 R244, 16 R313, R315): the
conflicting word's address and the other party. Commands of one cluster are never checked against each other (16 R313). -/
def State.cmdConflict (s : State) (p : Nat) (wr : Bool) (x : Nat × Nat × Nat × Nat) : Option (Nat × (Nat ⊕ Nat)) :=
  let t := s.track
  let hit (w : Nat) : Bool := x.2.2.1 / 4 ≤ w && 4 * w < x.2.2.1 + x.2.2.2
  match t.acc.find? fun a =>
      a.space == x.1 && a.party != p && (wr || a.kind != .read) && hit a.word &&
        t.openAt a.party (t.dist p a.party) a.tick t.now && !t.before p a.party a.tick with
  | some a => some (x.2.1 / 4 * 4 + (4 * a.word - x.2.2.1 / 4 * 4), .inl a.party)
  | none =>
    let byCmd := t.cmds.findSome? fun c =>
      let d := t.dist p c.party
      if c.space == x.1 && c.party != p && (wr || c.write) && decide (3 ≤ d) && c.concurrent t d t.now &&
          !(c.write && (c.seen.map fun o => t.before p c.party o).getD false) then
        (c.segs.find? fun g => g.1 / 4 * 4 < x.2.2.1 + x.2.2.2 && x.2.2.1 / 4 * 4 < g.1 + g.2).map fun g =>
          (x.2.1 / 4 * 4 + (Nat.max g.1 x.2.2.1 / 4 * 4 - x.2.2.1 / 4 * 4), c.party)
      else none
    match byCmd with
    | some c => some (c.1, .inl c.2)
    | none =>
      (t.far.find? fun f => x.1 == 0 && (wr || f.kind != .read) && hit f.word && f.stop.isNone).map fun f =>
        (x.2.1 / 4 * 4 + (4 * f.word - x.2.2.1 / 4 * 4), .inr f.pkg)

/-- The handle of a `cstart`. -/
def CmdOp.handle : CmdOp → Option Nat
  | .cstart h .. => some h
  | _ => none

/-- The track of a command's range. -/
def cmdTracks (id : Nat) (g : Group) (path : Path) (op : CmdOp) (flag : Option Nat) (now : Nat) (wr : Bool) (xs : List (Nat × Nat × Nat × Nat)) :
    List CmdTrack :=
  ((xs.map fun x => x.1).dedup).map fun sp =>
    { cmd := id, party := g.ids.uid, path := path, flag := flag, fold := false, handle := op.handle, space := sp,
      segs := (xs.filter fun x => x.1 == sp).map fun x => (x.2.2.1, x.2.2.2), write := wr, start := now, stop := none, seen := none }

/-! ### Issue -/

/-- A command joins its path's open batch, or opens one (12 R226). -/
def Group.joinBatch (g : Group) (p : Path) (id : Nat) : Group :=
  if g.batches.any fun b => b.path == p && !b.closed then
    { g with batches := g.batches.map fun b => if b.path = p ∧ !b.closed then { b with cmds := b.cmds ++ [id] } else b }
  else { g with batches := g.batches ++ [⟨p, [id], false⟩] }

/-- A batch of the path is open. -/
def Group.hasOpen (g : Group) (p : Path) : Bool := g.batches.any fun b => b.path == p && !b.closed

/-- What a command is at its issue, beside its operands. -/
structure Launch where
  path : Path
  op : CmdOp
  ranges : List Rng
  rows : BitVec 32
  toks : Option Nat × Option Nat × Option Nat
  resumable : Bool
  /-- An own condition of the engine that stalls it at issue. -/
  busy : Bool
  /-- The bytes of the word that a `red` folds into (25 R448). -/
  fold : Option (Nat × Nat) := none

/-- The registration of a command: its locks, tracks, batch, token, flag, and the region entry after a resumable one (14 R250, 16 R306,
R311). -/
def State.register (s : State) (g : Group) (e : Entry) (l : Launch) (tracks : List CmdTrack) : State :=
  let id := s.nextId
  let c : Cmd :=
    { id := id, core := s.cur.core, slot := s.cur.slot, queue := g.ids.queue, path := l.path, op := l.op, fmt := e.fmt, rows := l.rows,
      in0 := l.toks.1, in1 := l.toks.2.1, outTok := l.toks.2.2, flag := s.cur.flag, disp := false, suspended := false, granted := [],
      ran := [], done := false, progress := 0, buf := [], pos := e.pos, after := e.pos.next s.cur.len, entry := s.cur.entry, mask := e.mask, ids := g.ids,
      mon := g.mon, start := s.cycle }
  let s1 := { s with nextId := id + 1, cmds := s.cmds ++ [c] }
  let s2 := s1.setTrack { s1.track with cmds := s1.track.cmds ++ tracks, now := s1.track.now + 1 }
  let s3 := match s2.clusterOf g.ids with
    | some (k, x) => { s2 with clusters := Tbl.put s2.clusters k { x with locks := x.locks ++ rangeLocks x.locks l.ranges id s.cur.slot g.ids } }
    | none => s2
  let s4 := match l.toks.2.2, s3.team? s.cur.core g.ids.teamSlot with
    | some o, some t => s3.setTeam s.cur.core g.ids.teamSlot (t.takeToken o)
    | _, _ => s3
  let g1 := g.joinBatch l.path id
  s4.setCurGroup (if l.resumable && g.single then g1.takeRegion (e.pos.next s.cur.len) else g1)

/-- A command whose operands have passed its checks issues: not enough lock entries, a token pending 63 times, a batch counter at 255 or a
busy engine stall it, and so does a page of its ranges whose walk waits; a conflict faults (16 R319). -/
def State.issueCmd (s : State) (g : Group) (e : Entry) (l : Launch) : Res :=
  let held := ((s.clusterOf g.ids).map fun c => c.2.locks.length).getD 0
  let pend := match l.toks.2.2, s.team? s.cur.core g.ids.teamSlot with
    | some o, some t => t.pendOf o
    | _, _ => 0
  if 32 < held + l.ranges.length then .stall s 10 (2 + 256 * ((s.clusterOf g.ids).map fun c => c.2.origin).getD 0)
  else if 63 ≤ pend then .stall s 10 (3 + 256 * l.toks.2.2.getD 0)
  else if l.busy then .stall s 10 4
  else if 255 ≤ g.ctr l.path ∧ !g.hasOpen l.path then .stall s 10 (1 + 256 * l.path.code.toNat)
  else
    match s.trackedAll s.cur.core g.ids l.path l.ranges with
    | .ok s1 xs =>
      match xs.findSome? fun r => r.2.findSome? fun x => s1.cmdConflict g.ids.uid r.1 x with
      | some (a, p) => .fault ⟨0x20, 255, 0, a, s1.partyId p⟩
      | none =>
        let now := s1.track.now
        let folds : List CmdTrack := l.fold.toList.map fun x =>
          ⟨s1.nextId, g.ids.uid, l.path, s1.cur.flag, true, none, 0, [x], true, now, none, none⟩
        .done (s1.register g e l ((xs.flatMap fun r => cmdTracks s1.nextId g l.path l.op s1.cur.flag now r.1 r.2) ++ folds))
    | .wait s1 | .bad s1 _ _ _ => .stall s1 10 0

/-- A command word: its guard, then its operands read and checked in order, then its issue. -/
def command (i : Instr) (gd : Guard) (s : State) (f : Group → Entry → Except FaultInfo Launch) : Host.Outcome State Fault Refusal :=
  uniform i gd s fun g e =>
    match f g e with
    | .error x => .fault x
    | .ok l => s.issueCmd g e l

/-- The token word of a command. -/
def Group.tokens (g : Group) : TokReg → Option (Option Nat × Option Nat × Option Nat)
  | none => some (none, none, none)
  | some c => tokenWord (g.rdS c.toNat).toNat

/-- A check of a command's operands: the first that fails gives the cause (16 R319). -/
def firstFault (cs : List (Bool × FaultInfo)) : Option FaultInfo := (cs.find? fun c => c.1).map fun c => c.2

/-- A range outside its space, with its first address (16 R319). -/
def outsideFault (rs : List Rng) : Option FaultInfo :=
  (rs.find? Rng.outside).map fun r => ⟨0x11, 255, 0, bitsInt r.lo 64, 0⟩

/-! ### Dispatch -/

def State.cmd? (s : State) (id : Nat) : Option Cmd := s.cmds.find? fun c => c.id == id
def State.setCmd (s : State) (c : Cmd) : State := { s with cmds := s.cmds.map fun x => if x.id = c.id then c else x }

/-- A token of the command's team is ready. -/
def State.tokReady (s : State) (c : Cmd) : Option Nat → Bool
  | none => true
  | some k => ((s.team? c.core c.ids.teamSlot).map fun t => t.rdy.getLsbD k).getD false

/-- A command still waits for an input token. -/
def State.waitsToken (s : State) (c : Cmd) : Bool := !c.disp && !(s.tokReady c c.in0 && s.tokReady c c.in1)

/-- The lock order of 16 R313 admits the command. -/
def State.lockOrder (s : State) (c : Cmd) : Bool :=
  match s.clusterOf c.ids with
  | none => true
  | some (_, x) =>
    let own := x.locks.filter fun l => l.cmd == c.id
    x.locks.all fun l => l.cmd ≥ c.id || !(own.any fun o => o.clashes l) || ((s.cmd? l.cmd).map fun d => s.waitsToken d).getD false

/-- A dispatched command shows it in its locks (16 R311). -/
def State.markDispatched (s : State) (c : Cmd) : State :=
  let s1 := s.setCmd { c with disp := true, start := s.cycle }
  match s1.clusterOf c.ids with
  | none => s1
  | some (k, x) =>
    { s1 with clusters := Tbl.put s1.clusters k { x with locks := x.locks.map fun l => if l.cmd = c.id then { l with disp := true } else l } }

/-! ### The end of a command -/

/-- A command completes or is abandoned (16 R306, R312; 13 R244): its ranges are released, its output token counts it, its region ends. -/
def State.finishCmd (s : State) (c : Cmd) : State :=
  let s1 := s.setCmd { c with done := true, suspended := false, disp := true }
  let s2 := match s1.clusterOf c.ids with
    | some (k, x) => { s1 with clusters := Tbl.put s1.clusters k { x with locks := x.locks.filter fun l => l.cmd != c.id } }
    | none => s1
  let s3 := match c.outTok, s2.team? c.core c.ids.teamSlot with
    | some o, some t => s2.setTeam c.core c.ids.teamSlot (t.giveToken o)
    | _, _ => s2
  s3.setTrack { s3.track with
    cmds := s3.track.cmds.map fun x => if x.cmd = c.id ∧ x.stop.isNone then { x with stop := some s3.track.now } else x
    now := s3.track.now + 1 }

/-- Where a stopped group goes on, for the record of a suspended command: the blocking instruction, or where the issuing fragment
stands (14 R251, 17 R326). -/
def Group.standsAt (g : Group) (k : Nat) : Pos :=
  match g.block with
  | .none | .stall _ _ =>
    if (g.ent k).st = .free then (g.ent (g.live.headD 0)).pos else (g.ent k).pos
  | _ => g.blockPos

/-- A resumable command suspends with its progress (14 R251): its group stops with a record of its own. -/
def State.suspendCmd (s : State) (c : Cmd) (progress : Nat) (f : FaultInfo) : State :=
  let s1 := s.setCmd { c with suspended := true, progress := progress }
  s1.updGroup c.core c.slot fun g => g.stopWith .faulted
    { info := f, resumable := true, regcnt := g.regcnt, faultPos := c.pos, restart := g.standsAt c.entry, after := c.after, stop := false, late := true,
      mask := c.mask, entry := c.entry, progress := progress, cmd := some c.id, tick := s.tick }

/-- A command that is not resumable meets a fault as it runs, or a check that waited (15 R285, R455): it completes with no effect and its
group stops at it. -/
def State.failCmd (s : State) (c : Cmd) (f : FaultInfo) : State :=
  (s.finishCmd c).lateFault c.core c.slot c.pos c.after c.entry c.id c.mask f

/-! ### Accesses of commands (12 R208, 16 R316) -/

/-- A command accesses bytes at a physical address: they belong to its region even where their page did not translate at its issue (13
R244). -/
def State.noteCmd (s : State) (c : Cmd) (space pa n : Nat) (wr : Bool) : State :=
  let t := s.track
  let own (x : CmdTrack) : Bool := x.cmd == c.id && x.space == space && x.write == wr
  if t.cmds.any fun x => own x && x.segs.any fun g => g.1 ≤ pa && pa + n ≤ g.1 + g.2 then s
  else if t.cmds.any own then
    s.setTrack { t with cmds := t.cmds.map fun x => if own x then { x with segs := x.segs ++ [(pa, n)] } else x }
  else s.setTrack { t with cmds := t.cmds ++ [{ cmd := c.id, party := c.ids.uid, path := c.path, flag := c.flag, fold := false,
                                                 handle := c.op.handle, space := space, segs := [(pa, n)], write := wr, start := t.now, stop := none, seen := none }] }

/-- `noteCmd` in the space of the page's aperture. -/
def State.noteAccess (s : State) (c : Cmd) (leaf pa n : Nat) (wr : Bool) : State :=
  (cmdSpaces c.path (bitOf leaf 6)).foldl (fun t sp => t.noteCmd c sp pa n wr) s

/-- A fault of an engine's access: no lane, the address it names. -/
def Try.engine {α : Type} (t : Try α) (va : Nat) : Chk α := t.lane 255 va

/-- Bytes inside one sector read by a command: scratchpad, or global through the page's own aperture. -/
def State.engRead (s : State) (c : Cmd) (sp : Bool) (va n : Nat) : Try Nat :=
  let ts := c.ids.teamSlot
  if sp then
    (s.settCheck c.core ts va).bind fun s1 _ => (s1.settReady c.core ts c.slot (va / 2048)).bind fun s2 _ => s2.scratchRead c.core ts va n
  else
    (s.translate c.core c.queue c.mon ⟨true, false, false, none⟩ va).bind fun s0 p =>
      let s1 := s0.noteAccess c p.2 p.1 n false
      if bitOf p.2 6 then s1.msRead (some c.queue) (2 ^ 40 + c.id) p.1 n (.load .b64 255 0) else s1.cachedRead (some c.queue) p.1 n

/-- Bytes inside one sector written by a command. -/
def State.engWrite (s : State) (c : Cmd) (sp : Bool) (va n x : Nat) : Try Unit :=
  let ts := c.ids.teamSlot
  if sp then
    (s.settCheck c.core ts va).bind fun s1 _ => (s1.settReady c.core ts c.slot (va / 2048)).bind fun s2 _ =>
      .ok ((s2.scratchWrite c.core ts va n x).unrelease (teamKeyOf c.ids + 2) va n) ()
  else
    (s.translate c.core c.queue c.mon ⟨false, true, false, none⟩ va).bind fun s0 p =>
      let s1 := s0.noteAccess c p.2 p.1 n true
      if bitOf p.2 6 then s1.msWrite (some c.queue) (2 ^ 40 + c.id) p.1 n x (.store x) else s1.cachedWrite (some c.queue) none p.1 n x

/-- `n` bytes read by a command, sector by sector. -/
def State.engReads (s : State) (c : Cmd) (sp : Bool) (va : Nat) : Nat → Nat → Chk Nat
  | 0, _ => .ok s 0
  | fuel + 1, n =>
    if n = 0 then .ok s 0
    else
      let k := Nat.min n (32 - va % 32)
      match (s.engRead c sp va k).engine va with
      | .wait s1 => .wait s1
      | .fault s1 f => .fault s1 f
      | .ok s1 x => match s1.engReads c sp (va + k) fuel (n - k) with
        | .ok s2 y => .ok s2 (x + 256 ^ k * y)
        | .wait s2 => .wait s2
        | .fault s2 f => .fault s2 f

/-- `n` bytes of a value written by a command, sector by sector. -/
def State.engWrites (s : State) (c : Cmd) (sp : Bool) (va : Nat) : Nat → Nat → Nat → Chk Unit
  | 0, _, _ => .ok s ()
  | fuel + 1, n, x =>
    if n = 0 then .ok s ()
    else
      let k := Nat.min n (32 - va % 32)
      match (s.engWrite c sp va k (x % 256 ^ k)).engine va with
      | .wait s1 => .wait s1
      | .fault s1 f => .fault s1 f
      | .ok s1 _ => s1.engWrites c sp (va + k) fuel (n - k) (x / 256 ^ k)

/-- What became of a command's run. -/
inductive Ran where
  | finished | waiting
  | faulted (f : FaultInfo)

/-- Parts of a command performed one after another from a progress on, while `part` gives one: it answers how far the progress goes. -/
def State.runParts (s : State) (part : State → Nat → Option (Chk Nat)) : Nat → Nat → State × Nat × Ran
  | p, 0 => (s, p, .waiting)
  | p, fuel + 1 =>
    match part s p with
    | none => (s, p, .finished)
    | some (.ok s1 p1) => s1.runParts part p1 fuel
    | some (.wait s1) => (s1, p, .waiting)
    | some (.fault s1 f) => (s1, p, .faulted f)

end Sys2Proof.Machine
end

