-- ==== Sys2Proof/Machine/Copy.lean ====
section
/-! DEFINITION. The copy engine (16 R316 to R321) and `tokset` (16 R309). -/

namespace Sys2Proof.Machine

/-- A fault of an operand check. -/
def operandFault (cause addr : Nat) : FaultInfo := ⟨cause, 255, 0, addr, 0⟩

/-- A command of the `cp` path with its ranges and tokens. -/
def copyLaunch (g : Group) (e : Entry) (op : CmdOp) (rs : List Rng) (toks : Option Nat × Option Nat × Option Nat) : Launch :=
  let _ := g
  { path := .cp, op := op, ranges := rs, rows := e.mask, toks := toks, resumable := true, busy := false }

/-- The checks shared by the copy commands: the operand words and tokens, alignment, ranges (16 R319), in order. -/
def copyChecks (g : Group) (e : Entry) (tok : TokReg) (op : CmdOp) (rs : List Rng) (badWord : Bool) (aligned : List (Nat × Nat)) :
    Except FaultInfo Launch :=
  match g.tokens tok with
  | none => .error (operandFault 0x02 0)
  | some toks =>
    let overlap := rs.any fun w => w.wr && rs.any fun r => !r.wr && w.overlaps r
    match firstFault ([(badWord || overlap, operandFault 0x02 0)] ++ aligned.map fun x => (x.1 % x.2 != 0, operandFault 0x13 x.1)) with
    | some f => .error f
    | none =>
      match outsideFault rs with
      | some f => .error f
      | none => .ok (copyLaunch g e op rs toks)

/-- `cpy` (16 R316 to R319). -/
def execCpy (gd : Guard) (d a b : Reg) (tok : TokReg) (s : State) : Host.Outcome State Fault Refusal :=
  command (.cpy gd d a b tok) gd s fun g e =>
    let w0 := (g.rdS b.toNat).toNat
    let w1 := (g.rdS (b.toNat + 1)).toNat
    let len := bitsOf w0 0 21
    let rows := bitsOf w0 21 9 + 1
    let sPitch := 16 * bitsOf w1 0 16
    let dPitch := 16 * bitsOf w1 16 16
    let dst := g.rdSs d.toNat 2
    let src := g.rdSs a.toNat 2
    let ssp := bitOf w0 30
    let dsp := bitOf w0 31
    copyChecks g e tok (.cpy dsp ssp dst src len rows dPitch sPitch)
      [.pitched ssp false src rows sPitch len, .pitched dsp true dst rows dPitch len] (len == 0 || (1 < rows && dPitch < len)) []

/-- The index quad of `gath` and `scat` (16 R317): list address, count, spaces of list, table and contiguous side, bound. -/
def Group.indexQuad (g : Group) (b : Nat) : Nat × Nat × Bool × Bool × Bool × Nat :=
  let w := (g.rdS (b + 2)).toNat
  (g.rdSs b 2, bitsOf w 0 16, bitOf w 16, bitOf w 17, bitOf w 18, (g.rdS (b + 3)).toNat)

/-- `gath` (16 R316 to R319). -/
def execGath (gd : Guard) (t : ElemTy) (d a b : Reg) (tok : TokReg) (s : State) : Host.Outcome State Fault Refusal :=
  command (.gath gd t d a b tok) gd s fun g e =>
    let (idx, count, isp, tsp, csp, bound) := g.indexQuad b.toNat
    let n := t.bytes
    let dst := g.rdSs d.toNat 2
    let tab := g.rdSs a.toNat 2
    copyChecks g e tok (.gath n csp tsp isp dst tab idx count bound)
      [.whole isp false idx (4 * (count + 1)), .whole tsp false tab (n * bound), .whole csp true dst (n * (count + 1))]
      (bitsOf (g.rdS (b.toNat + 2)).toNat 19 13 != 0 || bound == 0) [(dst, n), (tab, n), (idx, 4)]

/-- `scat` (16 R316 to R319). -/
def execScat (gd : Guard) (t : ElemTy) (d a b : Reg) (tok : TokReg) (s : State) : Host.Outcome State Fault Refusal :=
  command (.scat gd t d a b tok) gd s fun g e =>
    let (idx, count, isp, tsp, csp, bound) := g.indexQuad b.toNat
    let n := t.bytes
    let tab := g.rdSs d.toNat 2
    let src := g.rdSs a.toNat 2
    copyChecks g e tok (.scat n tsp csp isp tab src idx count bound)
      [.whole isp false idx (4 * (count + 1)), .whole csp false src (n * (count + 1)), .whole tsp true tab (n * bound)]
      (bitsOf (g.rdS (b.toNat + 2)).toNat 19 13 != 0 || bound == 0) [(tab, n), (src, n), (idx, 4)]

/-- `fill` (16 R316 to R319): the value is read at issue. -/
def execFill (gd : Guard) (wide : Bool) (d a b : Reg) (tok : TokReg) (s : State) : Host.Outcome State Fault Refusal :=
  command (.fill gd wide d a b tok) gd s fun g e =>
    let w := (g.rdS b.toNat).toNat
    let count := bitsOf w 0 26
    let n := if wide then 8 else 4
    let dst := g.rdSs d.toNat 2
    copyChecks g e tok (.fill n (bitOf w 31) dst (g.rdSs a.toNat (n / 4)) count) [.whole (bitOf w 31) true dst (n * count)]
      (bitsOf w 26 5 != 0 || count == 0) [(dst, n)]

/-! ### The effects (16 R320) -/

/-- A read and then a write of the value read. -/
def State.moveBytes (s : State) (c : Cmd) (ssp : Bool) (src : Nat) (dsp : Bool) (dst n : Nat) : Chk Unit :=
  match s.engReads c ssp src (n + 1) n with
  | .wait s1 => .wait s1
  | .fault s1 f => .fault s1 f
  | .ok s1 x => s1.engWrites c dsp dst (n + 1) n x

/-- The progress after a part. -/
def Chk.to {α : Type} (r : Chk α) (p : Nat) : Chk Nat :=
  match r with
  | .ok s _ => .ok s p
  | .wait s => .wait s
  | .fault s f => .fault s f

/-- The index of an element, checked against the bound (16 R320). -/
def State.readIndex (s : State) (c : Cmd) (isp : Bool) (idx i bound : Nat) : Chk Nat :=
  match s.engReads c isp (idx + 4 * i) 5 4 with
  | .ok s1 n => if bound ≤ n then .fault s1 (operandFault 0x11 (idx + 4 * i)) else .ok s1 n
  | .wait s1 => .wait s1
  | .fault s1 f => .fault s1 f

/-- The part of a copy command at a progress. -/
def copyPart (c : Cmd) (s : State) (p : Nat) : Option (Chk Nat) :=
  match c.op with
  | .cpy dsp ssp dst src len rows dPitch sPitch =>
    if len * rows ≤ p then none
    else
      let sa := src + p / len * sPitch + p % len
      let da := dst + p / len * dPitch + p % len
      let k := Nat.min (len - p % len) (Nat.min (32 - sa % 32) (32 - da % 32))
      some ((s.moveBytes c ssp sa dsp da k).to (p + k))
  | .gath n dsp tsp isp dst tab idx count bound =>
    if count < p then none
    else some (match s.readIndex c isp idx p bound with
      | .ok s1 k => (s1.moveBytes c tsp (tab + n * k) dsp (dst + n * p) n).to (p + 1)
      | .wait s1 => .wait s1
      | .fault s1 f => .fault s1 f)
  | .scat n tsp ssp isp tab src idx count bound =>
    if count < p then none
    else some (match s.readIndex c isp idx p bound with
      | .ok s1 k => (s1.moveBytes c ssp (src + n * p) tsp (tab + n * k) n).to (p + 1)
      | .wait s1 => .wait s1
      | .fault s1 f => .fault s1 f)
  | .fill n dsp dst value count => if count ≤ p then none else some ((s.engWrites c dsp (dst + n * p) (n + 1) n value).to (p + 1))
  | _ => none

/-- How many parts a copy command can have. -/
def copyFuel (c : Cmd) : Nat :=
  match c.op with
  | .cpy _ _ _ _ len rows _ _ => len * rows + 1
  | .gath _ _ _ _ _ _ _ count _ | .scat _ _ _ _ _ _ _ count _ => count + 2
  | .fill _ _ _ _ count => count + 1
  | _ => 0

/-- The progress that a copy command reports (16 R321): for `cpy` the last row end or multiple of 4096 bytes in the row; else at least
every 64 elements, which of them being free. -/
def copyProgress (c : Cmd) (p free : Nat) : Nat :=
  match c.op with
  | .cpy _ _ _ _ len _ _ _ => p / len * len + p % len / 4096 * 4096
  | _ => Nat.max c.progress (p - Config.freeNat free % 64)

/-- A copy command run from its progress on. -/
def State.runCopy (s : State) (c : Cmd) : State × Nat × Ran := s.runParts (copyPart c) c.progress (copyFuel c)

/-! ### `tokset` (16 R309) -/

/-- `tokset` (16 R309): the word is kept until the group's earlier accesses have completed. -/
def execTokset (gd : Guard) (a : Reg) (s : State) : Host.Outcome State Fault Refusal :=
  uniform (.tokset gd a) gd s fun g _ =>
    let w := g.rdS a.toNat
    if bitsOf w.toNat 16 16 != 0 then .fault (.word 0x02)
    else .done ({ s with nextId := s.nextId + 1 }.setCurGroup { g with toksets := g.toksets ++ [(w, s.nextId)] })

/-- `TOKSET_APPLY` (16 R309): the group's oldest `tokset` takes effect once every access issued before it has completed. -/
def execToksetApply (core slot : Nat) (s : State) : Host.Outcome State Fault Refusal :=
  event s <| do
    let g ← s.group? core slot
    match g.toksets with
    | [] => none
    | (w, at_) :: rest =>
      if g.inflight.any fun o => o.born < at_ then none
      else
        let t ← s.team? core g.ids.teamSlot
        some ((s.setGroup core slot { g with toksets := rest }).setTeam core g.ids.teamSlot (t.tokset w.toNat))

end Sys2Proof.Machine
end

