-- ==== Sys2Proof/Machine/Bench.lean ====
section
/-! DEFINITION. The bench matrix engine (15 R273 to R298, R455). -/

namespace Sys2Proof.Machine

/-! ### Benches -/

/-- The bench of a core: the 2 × 2 square that holds it on its die's mesh (15; 01 R3). -/
def benchOf (core : Nat) : Nat := core / 96 * 24 + core % 96 / 12 / 2 * 6 + core % 12 / 2

/-- The groups of a bench that hold a reservation, with their place. -/
def State.benchGroups (s : State) (b : Nat) : List (Nat × Group) :=
  List.filter (fun p : Nat × Group => benchOf (p.1 / 64) == b && p.2.resv.isSome) s.groups

/-- The slates that a reservation holds; a pair is two. -/
def Resv.slatesHeld (r : Resv) : Nat := if r.wide then 2 * r.nsl else r.nsl

/-- The commands in a bench's command table (15 R276). -/
def State.benchCmds (s : State) (b : Nat) : List Cmd := s.cmds.filter fun c => c.path == .mx && benchOf c.core == b && !c.done

/-- The command table is full (15 R276). -/
def State.tableFull (s : State) : Bool := 64 ≤ (s.benchCmds (benchOf s.cur.core)).length

/-! ### Formats (02 R27, 15 R278, R287) -/

/-- FMT's format codes of A, B and the accumulator, and CBS. -/
def fmtA (fmt : Word64) : Nat := bitsOf fmt.toNat 0 4
def fmtB (fmt : Word64) : Nat := bitsOf fmt.toNat 4 4
def fmtC (fmt : Word64) : Nat := bitsOf fmt.toNat 8 4
def fmtCbs (fmt : Word64) : Nat := bitsOf fmt.toNat 16 6

/-- Bytes of an element by format code. -/
def elemBytes (c : Nat) : Nat :=
  match c with
  | 0 => 8
  | 1 => 4
  | 2 | 3 => 2
  | 8 => 4
  | _ => 1

/-- Bytes of a row of 64 columns of B. -/
def bedRowBytes (c : Nat) : Nat := if c = 6 then 32 else 64 * elemBytes c

/-- k-steps that a bed holds in a format (15 R278). -/
def bedSteps (c : Nat) : Nat :=
  match c with
  | 0 => 9
  | 1 => 21
  | 2 => 32
  | _ => 64

/-- The combinations that `mma` accepts, with the width of the reservation apart (15 R287). -/
def passFormats (fmt : Word64) : Bool :=
  let c := fmtC fmt
  if fmtA fmt = 7 then fmtB fmt == 7 && (c == 8 || c == 0) else fmtA fmt ≤ 5 && fmtB fmt ≤ 6 && (c == 1 || c == 0)

/-- The accumulator format asks for a .f64 reservation (15 R287). -/
def wideC (fmt : Word64) : Bool := fmtC fmt == 0

/-! ### Operand words (15 R281) -/

/-- A load word or pass word: bed, space, k-steps, first k-step, pitch in bytes. -/
def passWord (w : Nat) : Nat × Bool × Nat × Nat × Nat := (bitsOf w 0 5, bitOf w 5, bitsOf w 6 6 + 1, bitsOf w 12 6, 16 * bitsOf w 18 14)

/-- The indices that a command's operands name: slates with twins, beds with twins, codebook slots (15 R274, R282 check 1). -/
def Cmd.indices (c : Cmd) : List Nat × List Nat × List Nat :=
  match c.op with
  | .bload _ _ bed _ _ _ => ([], [bed], [])
  | .cbt _ _ slot => ([], [], [slot])
  | .mma chk _ slate _ bed _ _ _ =>
    (if chk then [slate, slate + 1] else [slate], if chk then [bed, bed + 1] else [bed], if fmtB c.fmt = 6 then [fmtCbs c.fmt] else [])
  | .szero slate | .srd _ slate _ _ | .swr _ slate _ _ | .sst _ slate _ _ _ => ([slate], [], [])
  | _ => ([], [], [])

/-- The resources that a command names (15 R276): its indices and, where it reads a checked slate, the twin (15 R291). -/
def Cmd.names (c : Cmd) (r : Option Resv) : List Nat × List Nat × List Nat :=
  let checked (slate : Nat) : Bool := (r.map fun r => r.checked.contains slate).getD false
  match c.op with
  | .srd _ slate _ _ | .sst _ slate _ _ _ => (if checked slate then [slate, slate + 1] else [slate], [], [])
  | _ => c.indices

/-- A command of the group that takes or returns the reservation. -/
def Cmd.isResv (c : Cmd) : Bool :=
  match c.op with
  | .srsv .. | .srel => true
  | _ => false

/-- The incomplete bench commands of a group, in issue order. -/
def State.mxOf (s : State) (core slot : Nat) : List Cmd := (s.cmdsOf core slot).filter fun c => c.path == .mx && !c.done

/-- Every index that a command names lies in the reservation (15 R274, R282 check 1). -/
def Resv.holds (r : Resv) (n : List Nat × List Nat × List Nat) : Bool :=
  n.1.all (· < r.nsl) && n.2.1.all (· < r.nbed) && n.2.2.all (· < r.ncb)

/-- Checks 1 and the parts of check 2 that the reservation decides (15 R282, R455): `fmtOfBed` is the format of the bed that earlier
commands leave. -/
def resvFault (r : Option Resv) (c : Cmd) (fmtOfBed : Nat → Option Nat) : Option FaultInfo :=
  match r with
  | none => some (operandFault 0x11 0)
  | some r =>
    if !r.holds c.indices then some (operandFault 0x11 0)
    else match c.op with
      | .mma chk _ _ _ bed _ _ _ =>
        let off (b : Nat) : Bool := ((fmtOfBed b).map fun f => f != fmtB c.fmt).getD false
        if r.wide != wideC c.fmt || off bed || (chk && off (bed + 1)) then some (operandFault 0x02 0) else none
      | _ => none

/-- The format that the group's earlier commands leave a bed with (15 R455). -/
def bedFormat (r : Option Resv) (earlier : List Cmd) (bed : Nat) : Option Nat :=
  earlier.foldl (fun f c => if c.indices.2.1.contains bed then some (fmtB c.fmt) else f)
    ((r.bind fun r => Tbl.find? r.beds bed).bind fun b => b.fmt)

/-! ### Issue (15 R280 to R282) -/

/-- A command as its reservation checks see it, before it has an identity. -/
def probeCmd (g : Group) (e : Entry) (op : CmdOp) : Cmd :=
  { id := 0, core := 0, slot := 0, queue := g.ids.queue, path := .mx, op := op, fmt := e.fmt, rows := e.mask, in0 := none, in1 := none,
    outTok := none, flag := none, disp := false, suspended := false, granted := [], ran := [], done := false, progress := 0, buf := [],
    pos := e.pos, after := e.pos, entry := 0, mask := e.mask, ids := g.ids, mon := g.mon, start := 0 }

/-- The widths that a group's reservation can have after its earlier commands, `none` where it holds none (15 R283, R284). -/
def widthsAfter (r : Option Resv) (earlier : List Cmd) : List (Option Bool) :=
  earlier.foldl (fun ws c => match c.op with
    | .srsv w _ _ => ws.flatMap fun x => if x.isNone then [none, some w] else [x]
    | .srel => [none]
    | _ => ws) [r.map fun r => r.wide]

/-- Bytes of a row of raw slate elements (15 R293). -/
def rawRow (wide : Bool) : Nat := if wide then 512 else 256

/-- The least and the greatest row of raw elements that a command of the group can find, were it issued now (15 R455). -/
def State.rawRows (s : State) (g : Group) : Nat × Nat :=
  let ws := widthsAfter g.resv (s.mxOf s.cur.core s.cur.slot)
  (if ws.contains (some true) && !ws.contains (some false) then rawRow true else rawRow false, rawRow (ws.contains (some true)))

/-- Checks 1 to 4 of a bench command: check 1 and what else the reservation decides wait while a `srsv` or `srel` of the group is incomplete
(15 R455). `words` and `align` are its own parts of checks 2 and 3; `locks` are its ranges as it registers them. -/
def State.benchChecks (s : State) (g : Group) (e : Entry) (tok : TokReg) (op : CmdOp) (rs locks : List Rng) (words : Bool)
    (align : List (Nat × Nat)) (resumable : Bool) : Except FaultInfo Launch :=
  let earlier := s.mxOf s.cur.core s.cur.slot
  let c := probeCmd g e op
  let resv := if earlier.any Cmd.isResv then none else resvFault g.resv c (bedFormat g.resv earlier)
  match g.tokens tok with
  | none => .error (match resv with
    | some f => if f.cause = 0x11 then f else operandFault 0x02 0
    | none => operandFault 0x02 0)
  | some toks =>
    match resv with
    | some f => .error f
    | none =>
      match firstFault ([(words, operandFault 0x02 0)] ++ align.map fun x => (x.1 % x.2 != 0, operandFault 0x13 x.1)) with
      | some f => .error f
      | none =>
        match outsideFault rs with
        | some f => .error f
        | none => .ok { path := .mx, op := op, ranges := locks, rows := e.mask, toks := toks, resumable := resumable, busy := s.tableFull }

/-- The lanes of a mask, ascending. -/
def lanesOf (m : BitVec 32) : List Nat := (List.range 32).filter fun l => m.getLsbD l

/-- The range of the rows of a mask at a pitch (15 R294). -/
def rowsRange (sp wr : Bool) (m : BitVec 32) (addr pitch len : Nat) : Rng :=
  let ls := lanesOf m
  let lo := ls.headD 0
  let hi := ls.getLastD 0
  ⟨sp, wr, addr + lo * pitch, (hi - lo) * pitch + len, ls.map fun l => (addr + l * pitch, len)⟩

/-- `srsv` (15 R283): its problems are reported by its status. -/
def execSrsv (gd : Guard) (wide : Bool) (d a : Reg) (s : State) : Host.Outcome State Fault Refusal :=
  command (.srsv gd wide d a) gd s fun g e =>
    .ok { path := .mx, op := .srsv wide (g.rdS a.toNat) d.toNat, ranges := [], rows := e.mask, toks := (none, none, none), resumable := false,
          busy := s.tableFull }

/-- `srel` (15 R284). -/
def execSrel (gd : Guard) (s : State) : Host.Outcome State Fault Refusal :=
  command (.srel gd) gd s fun g e => s.benchChecks g e none .srel [] [] false [] false

/-- `bload` (15 R286). -/
def execBload (gd : Guard) (a b : Reg) (s : State) : Host.Outcome State Fault Refusal :=
  command (.bload gd a b) gd s fun g e =>
    let (bed, sp, steps, off, pitch) := passWord (g.rdS b.toNat).toNat
    let addr := g.rdSs a.toNat 2
    let rs : List Rng := [.pitched sp false addr (16 * steps) pitch (bedRowBytes (fmtB e.fmt))]
    s.benchChecks g e none (.bload sp addr bed steps off pitch) rs rs (bedSteps (fmtB e.fmt) < off + steps) [(addr, 16)] true

/-- `cbt` (15 R285). -/
def execCbt (gd : Guard) (d a : Reg) (s : State) : Host.Outcome State Fault Refusal :=
  command (.cbt gd d a) gd s fun g e =>
    let w := (g.rdS d.toNat).toNat
    let addr := g.rdSs a.toNat 2
    let rs : List Rng := [.whole (bitOf w 31) false addr 32]
    s.benchChecks g e none (.cbt (bitOf w 31) addr (bitsOf w 0 6)) rs rs (bitsOf w 6 25 != 0) [(addr, 32)] false

/-- `mma` (15 R287 to R291): the fragment's FMT and MASK are taken at issue. -/
def execMma (gd : Guard) (chk : Bool) (d a b : Reg) (tok : TokReg) (s : State) : Host.Outcome State Fault Refusal :=
  command (.mma gd chk d a b tok) gd s fun g e =>
    let w := (g.rdS d.toNat).toNat
    let (bed, sp, steps, off, pitch) := passWord (g.rdS b.toNat).toNat
    let addr := g.rdSs a.toNat 2
    let rs := [rowsRange sp false e.mask addr pitch (16 * steps * elemBytes (fmtA e.fmt))]
    s.benchChecks g e tok (.mma chk sp (bitsOf w 0 6) addr bed steps off pitch) rs rs
      (bitsOf w 6 26 != 0 || bedSteps (fmtB e.fmt) < off + steps || !passFormats e.fmt) [(addr, 16)] true

/-- `szero` (15 R292). -/
def execSzero (gd : Guard) (d : Reg) (tok : TokReg) (s : State) : Host.Outcome State Fault Refusal :=
  command (.szero gd d tok) gd s fun g e =>
    let w := (g.rdS d.toNat).toNat
    s.benchChecks g e tok (.szero (bitsOf w 0 6)) [] [] (bitsOf w 6 26 != 0) [] false

/-- `srd` (15 R293). -/
def execSrd (gd : Guard) (d a b : Reg) (tok : TokReg) (s : State) : Host.Outcome State Fault Refusal :=
  command (.srd gd d a b tok) gd s fun g e =>
    let w := (g.rdS d.toNat).toNat
    let x := (g.rdS b.toNat).toNat
    let pitch := 16 * bitsOf x 18 14
    let addr := g.rdSs a.toNat 2
    let raw := s.rawRows g
    let rs (n : Nat) : List Rng := [rowsRange (bitOf x 0) true e.mask addr pitch n]
    s.benchChecks g e tok (.srd (bitOf x 0) (bitsOf w 0 6) addr pitch) (rs raw.1) (rs raw.2)
      (bitsOf w 6 26 != 0 || bitsOf x 1 17 != 0 || pitch < raw.1) [(addr, 16)] false

/-- `swr` (15 R293). -/
def execSwr (gd : Guard) (d a b : Reg) (tok : TokReg) (s : State) : Host.Outcome State Fault Refusal :=
  command (.swr gd d a b tok) gd s fun g e =>
    let w := (g.rdS d.toNat).toNat
    let x := (g.rdS b.toNat).toNat
    let pitch := 16 * bitsOf x 18 14
    let addr := g.rdSs a.toNat 2
    let raw := s.rawRows g
    let rs (n : Nat) : List Rng := [rowsRange (bitOf x 0) false e.mask addr pitch n]
    s.benchChecks g e tok (.swr (bitOf x 0) (bitsOf w 0 6) addr pitch) (rs raw.1) (rs raw.2)
      (bitsOf w 6 26 != 0 || bitsOf x 1 17 != 0) [(addr, 16)] false

/-- The values of OUTF that the slate format allows (15 R293). -/
def outfOk (cf outf : Nat) : Bool := if cf = 8 then outf == 8 || outf == 7 else outf ≤ 5

/-- `sst` (15 R293). -/
def execSst (gd : Guard) (d a b : Reg) (tok : TokReg) (s : State) : Host.Outcome State Fault Refusal :=
  command (.sst gd d a b tok) gd s fun g e =>
    let w := (g.rdS d.toNat).toNat
    let x := (g.rdS b.toNat).toNat
    let pitch := 16 * bitsOf x 18 14
    let outf := bitsOf x 1 4
    let row := 64 * elemBytes outf
    let addr := g.rdSs a.toNat 2
    let rs := [rowsRange (bitOf x 0) true e.mask addr pitch row]
    s.benchChecks g e tok (.sst (bitOf x 0) (bitsOf w 0 6) addr pitch outf) rs rs
      (bitsOf w 6 26 != 0 || bitsOf x 5 13 != 0 || pitch < row || !outfOk (fmtC e.fmt) outf) [(addr, 16)] false

/-! ### Waits and faces (15 R276, R277) -/

/-- Two lists of indices meet. -/
def meets (a b : List Nat) : Bool := a.any fun x => b.contains x

/-- The reservation of a command's group. -/
def State.resvOf (s : State) (c : Cmd) : Option Resv := (s.group? c.core c.slot).bind fun g => g.resv

def State.setResv (s : State) (c : Cmd) (r : Option Resv) : State := s.updGroup c.core c.slot fun g => { g with resv := r }

/-- The entries of the command table before a command. -/
def State.entriesBefore (s : State) (c : Cmd) : List Cmd := (s.benchCmds (benchOf c.core)).takeWhile fun x => x.id != c.id

/-- The waits of R276: an earlier command of the group that names a resource of it, an earlier `srsv` or `srel`, and for `srel` every
earlier command; a `srsv` also waits for the earlier requests of its bench (R283). -/
def State.benchReady (s : State) (c : Cmd) : Bool :=
  let earlier := (s.mxOf c.core c.slot).filter fun x => x.id < c.id
  let r := s.resvOf c
  let n := c.names r
  let apart (x : Cmd) : Bool := !(meets n.1 (x.names r).1 || meets n.2.1 (x.names r).2.1 || meets n.2.2 (x.names r).2.2)
  match c.op with
  | .srsv .. => earlier.all (fun x => !x.isResv) && (s.entriesBefore c).all fun x => match x.op with
      | .srsv .. => false
      | _ => true
  | .srel => earlier.isEmpty
  | _ => earlier.all fun x => !x.isResv && apart x

/-- The copies of a k-step that a command has computed, each on a bed of its own: two with `.chk` (15 R291). -/
def Cmd.copies (c : Cmd) : List Nat := (List.range c.indices.2.1.length)

/-- The face of the bed that a copy of a command is computed on. -/
def State.faceOf (s : State) (c : Cmd) (copy : Nat) : Option Nat :=
  (s.resvOf c).bind fun r => (c.indices.2.1[copy]?).bind fun b => r.faces[b]?

/-- The copies of a command that lie on a face. -/
def State.copiesOn (s : State) (c : Cmd) (face : Nat) : List Nat := c.copies.filter fun k => s.faceOf c k == some face

/-- The priority of a context's hardware queue slot. -/
def State.prioOf (s : State) (q : Nat) : Nat := (s.ctx q).desc.prio

/-- Bytes read for a part of a command, block by block, kept in its buffer while it waits. -/
def State.fetchBytes (s : State) (c : Cmd) (sp : Bool) (vaOf : Nat → Nat) (row total : Nat) : Nat → List Byte → State × List Byte × Ran
  | 0, buf => (s, buf, .waiting)
  | fuel + 1, buf =>
    let p := buf.length
    if total ≤ p then (s, buf, .finished)
    else
      let va := vaOf (p / row) + p % row
      let k := Nat.min (row - p % row) (32 - va % 32)
      match (s.engRead c sp va k).engine va with
      | .wait s1 => (s1, buf, .waiting)
      | .fault s1 f => (s1, buf, .faulted f)
      | .ok s1 x => s1.fetchBytes c sp vaOf row total fuel (buf ++ leBytes k x)

/-! ### The row buffer and the faces (15 R273, R277, R288) -/

/-- The A bytes of one k-step of an `mma`. -/
def Cmd.stepBytes (c : Cmd) : Nat := (lanesOf c.rows).length * (16 * elemBytes (fmtA c.fmt))

/-- The k-steps of A that a command holds in the row buffers of its faces, one in part included. -/
def Cmd.stepsHeld (c : Cmd) : Nat := (c.buf.length + c.stepBytes - 1) / c.stepBytes

/-- A of the next `n` k-steps of an `mma` fetched, row by row of each step. -/
def State.fetchA (s : State) (c : Cmd) (n : Nat) : State × List Byte × Ran :=
  match c.op with
  | .mma _ sp _ addr _ _ _ pitch =>
    let rows := lanesOf c.rows
    let row := 16 * elemBytes (fmtA c.fmt)
    s.fetchBytes c sp (fun i => addr + rows.getD (i % rows.length) 0 * pitch + (c.progress + i / rows.length) * row) row (n * c.stepBytes)
      (n * c.stepBytes + 1) c.buf
  | _ => (s, c.buf, .finished)

/-- The k-steps whose A a command asks for: the next pass's, and, while a pass of it runs, that of the one after (15 R273, R279). -/
def Cmd.wantsA (c : Cmd) : Nat :=
  match c.op with
  | .mma _ _ _ _ _ steps _ _ => Nat.min (if c.granted.isEmpty && c.ran.isEmpty then 1 else 2) (steps - c.progress)
  | _ => 0

/-- A face's row buffer takes up A for its entries in their order, while it and the other face of a checked pass have room for two k-steps. A fault
of such a read is raised by `ENGINE_FAULT_SUSPEND`, before the step that needs it (15 R290). -/
def State.fillRows (s : State) (face : Nat) : List Cmd → State
  | [] => s
  | c0 :: rest =>
    let c := (s.cmds.find? fun x => x.id == c0.id).getD c0
    let faces := c.copies.filterMap fun k => s.faceOf c k
    let room (f : Nat) : Bool :=
      (((s.benchCmds (benchOf c.core)).filter fun x => x.id != c.id && !(s.copiesOn x f).isEmpty).map Cmd.stepsHeld).sum + c.wantsA ≤ 2
    if c.disp && !c.suspended && !c.done && faces.contains face && c.buf.length < c.wantsA * c.stepBytes && faces.all room then
      let r := s.fetchA c c.wantsA
      State.fillRows (r.1.setCmd { c with buf := r.2.1 }) face rest
    else s.fillRows face rest

/-- A copy of a command's next k-step may be granted (15 R277): its waits are over, and for `mma` its A stands in the row buffer. -/
def Cmd.eligible (c : Cmd) (copy : Nat) : Bool :=
  c.disp && !c.suspended && !c.done && !c.granted.contains copy && !c.ran.contains copy && match c.op with
    | .mma _ _ _ _ _ steps _ _ => c.progress < steps && c.stepBytes ≤ c.buf.length
    | .bload _ _ _ steps _ _ => c.progress < steps
    | _ => false

/-- The first of a list by an order, the earlier in the list among equals. -/
def firstBy {α : Type} (before : α → α → Bool) (l : List α) : Option α :=
  l.foldl (fun m c => match m with
    | none => some c
    | some x => if before c x then some c else some x) none

/-- `FACE_GRANT` (15 R277): the face's row buffer is filled, and the face grants a k-step to the first eligible entry: those that have waited
longer than MXARB.AGE, oldest first; then by priority; then by entry. An entry has waited since its dispatch or its last k-step (log entry
95). -/
def execFaceGrant (bench face : Nat) (s0 : State) : Host.Outcome State Fault Refusal :=
  let s := s0.fillRows face (s0.benchCmds bench)
  let cs := s.benchCmds bench
  let taken := cs.any fun c => (s.copiesOn c face).any fun k => c.granted.contains k
  let eligible := cs.flatMap fun c => ((s.copiesOn c face).filter fun k => c.eligible k).map fun k => (c, k)
  let age := Tbl.getD s.mxAge bench 0x40 * 64
  let pick := match firstBy (fun a b => a.1.start < b.1.start) (eligible.filter fun x => x.1.start + age < s.cycle) with
    | some x => some x
    | none => firstBy (fun a b => s.prioOf b.1.queue < s.prioOf a.1.queue) eligible
  event s (some (if taken then s else match pick with
    | some x => s.setCmd { x.1 with granted := x.1.granted ++ [x.2] }
    | none => s))

/-! ### Effects -/

/-- An element of a byte list. -/
def elemAt (d : List Byte) (off n : Nat) : Nat := leValue ((d.drop off).take n)

/-- Two to a signed power times a value (08 R155). -/
def FVal.scaleExp (x : FVal) (k : Int) : FVal :=
  match x with
  | .fin n m e => .fin n m (e + k)
  | v => v

/-- A BF16 codebook entry as a value: an infinity reads as the largest finite value (08 R146). -/
def codeValue (x : Nat) : FVal :=
  match (fmtOf .bf16).decode x with
  | .inf n => (fmtOf .bf16).decode ((fmtOf .bf16).signed n (fmtOf .bf16).maxEnc)
  | v => v

/-- An element of A or B as a value (08 R145, R146, R155). -/
def passValue (code scale : Nat) (book : Nat) (x : Nat) : FVal :=
  if code = 7 then .ofInt (signExt x 8)
  else
    let k := signExt scale 6
    if code = 6 then (codeValue (bitsOf book (16 * x) 16)).scaleExp k
    else match fmtOfCode code with
      | some f => ((fmtOf f).decode x).scaleExp k
      | none => .fin false 0 0

/-- One dot group of a pass (08 R153, R156, R157): the new accumulator and its flags. -/
def passDot (fmt : Word64) (book acc : Nat) (ps : List (Nat × Nat)) : FRes :=
  let w := fmt.toNat
  if fmtC fmt = 8 then
    let x := ps.foldl (fun t p => t + signExt p.1 8 * signExt p.2 8) (signExt acc 32)
    (bitsInt (if fmtSat fmt then satInt x (-(2 ^ 31)) (2 ^ 31 - 1) else x) 32, 0)
  else
    let f := fmtOf ((fmtOfCode (fmtC fmt)).getD .f32)
    f.dot (roundOf fmt .dyn false) (f.decode acc)
      (ps.map fun p => (passValue (fmtA fmt) (bitsOf w 24 6) 0 p.1, passValue (fmtB fmt) (bitsOf w 32 6) book p.2))

/-- A bed that has a format, or takes one with every row zero (15 R286). -/
def Resv.bedAs (r : Resv) (b fmt : Nat) : Bed :=
  match Tbl.find? r.beds b with
  | some x => if x.fmt = some fmt then x else ⟨some fmt, [], []⟩
  | none => ⟨some fmt, [], []⟩

/-- A slate's element. -/
def Resv.elem (r : Resv) (slate i j : Nat) : Nat := Tbl.getD (Tbl.getD r.slates slate []) (i * 64 + j) 0

/-- An element written: its word is free of errors again (15 R296). -/
def Resv.setElem (r : Resv) (slate i j x : Nat) : Resv :=
  { r with slates := Tbl.put r.slates slate (Tbl.setD (Tbl.getD r.slates slate []) (i * 64 + j) x 0)
           badSlates := r.badSlates.filter (· != (slate, i * 64 + j)) }

/-- Rows of a slate with an uncorrectable error. -/
def Resv.badRows (r : Resv) (slate : Nat) (rows : List Nat) : Bool := r.badSlates.any fun x => x.1 == slate && rows.contains (x.2 / 64)

/-- One k-step on one bed and slate, with the rows' A bytes in order (15 R288). -/
def Resv.kstep (r : Resv) (fmt : Word64) (slate bed k : Nat) (rows : List Nat) (a : List Byte) : Resv × Flags :=
  let b := r.bedAs bed (fmtB fmt)
  let book := Tbl.getD r.books (fmtCbs fmt) 0
  let n := elemBytes (fmtA fmt)
  let r0 := { r with beds := Tbl.put r.beds bed b }
  rows.zipIdx.foldl (fun acc ri =>
    let as_ := (List.range 16).map fun t => elemAt a (ri.2 * 16 * n + t * n) n
    (List.range 64).foldl (fun acc j =>
      let d := passDot fmt book (acc.1.elem slate ri.1 j) (as_.zipIdx.map fun x => (x.1, Tbl.getD b.cells ((16 * k + x.2) * 64 + j) 0))
      (acc.1.setElem slate ri.1 j d.1, acc.2 ||| d.2)) acc) (r0, 0)

/-- A pass of one k-step reads bench storage with an uncorrectable error (15 R296): the accumulators of its rows, the 16 rows of the bed, the
codebook entries that these name. -/
def Resv.badPass (r : Resv) (fmt : Word64) (slate bed k : Nat) (rows : List Nat) : Bool :=
  let b := r.bedAs bed (fmtB fmt)
  let used (e : Nat) : Bool := (List.range 1024).any fun i => Tbl.getD b.cells (16 * k * 64 + i) 0 == e
  r.badRows slate rows || b.bad.any (fun x => x / 64 / 16 == k) || (fmtB fmt == 6 && r.badBooks.any fun x => x.1 == fmtCbs fmt && used x.2)

/-- A read-out of a slate's rows, of its twin's too where it is checked, reads storage with an uncorrectable error (15 R296). -/
def Resv.badRead (r : Resv) (slate : Nat) (rows : List Nat) : Bool :=
  r.badRows slate rows || (r.checked.contains slate && r.badRows (slate + 1) rows)

/-- Bench storage with an uncorrectable error. -/
def benchError : FaultInfo := ⟨0x31, 255, 1, 0, 0⟩

/-- A bed takes the format of a command that names it as the command begins, whatever its reads then meet (15 R286). -/
def Resv.takeFormat (r : Resv) (c : Cmd) : Resv :=
  c.indices.2.1.foldl (fun r b => { r with beds := Tbl.put r.beds b (r.bedAs b (fmtB c.fmt)) }) r

/-- Flags that a command raises (15 R288, R293): in its group, and in the group's shadow, whose own instruction they are too (log entry 94). -/
def State.raiseCmd (s : State) (c : Cmd) (f : Flags) : State :=
  let s1 := s.updGroup c.core c.slot fun g => g.raise f
  match (s.group? c.core c.slot).bind fun g => g.shadow with
  | some h => s1.updGroup c.core h fun g => g.raise f
  | none => s1

/-- One copy of an `mma`'s k-step applied to all of its rows (15 R288, R290, R291). -/
def State.runCopyOf (s : State) (c : Cmd) (chk : Bool) (slate bed k copy : Nat) : Option State :=
  let rows := lanesOf c.rows
  match s.resvOf c with
  | none => none
  | some r =>
    if r.badPass c.fmt (slate + copy) (bed + copy) k rows then none
    else
      let a := r.kstep c.fmt (slate + copy) (bed + copy) k rows (c.buf.take c.stepBytes)
      let marks := r.checked.filter (· != slate)
      let r1 := if copy = 0 then { a.1 with checked := if chk then marks ++ [slate] else marks } else a.1
      some ((s.setResv c (some r1)).raiseCmd c a.2)

/-- The granted copies of an `mma`'s k-step applied; with the last of them the step is done. -/
def State.runGranted (s : State) (c : Cmd) (chk : Bool) (slate bed k : Nat) : List Nat → State × Ran
  | [] =>
    let c1 := (s.cmds.find? fun x => x.id == c.id).getD c
    if c1.copies.all fun i => c1.ran.contains i then
      (s.setCmd { c1 with progress := c1.progress + 1, buf := c1.buf.drop c1.stepBytes, granted := [], ran := [], start := s.cycle }, .finished)
    else (s, .finished)
  | i :: rest =>
    match s.runCopyOf c chk slate bed k i with
    | none => (s, .faulted benchError)
    | some s1 =>
      let c1 := (s1.cmds.find? fun x => x.id == c.id).getD c
      (s1.setCmd { c1 with granted := c1.granted.filter (· != i), ran := c1.ran ++ [i] }).runGranted c chk slate bed k rest

/-- The granted k-step of a `bload` or an `mma` (15 R286, R288): all of it or none. -/
def State.runStep (s : State) (c : Cmd) : State × Ran :=
  match s.resvOf c with
  | none => (s, .waiting)
  | some r =>
    match c.op with
    | .bload sp addr bed steps off pitch =>
      if steps ≤ c.progress then (s, .finished)
      else
        let row := bedRowBytes (fmtB c.fmt)
        let f := s.fetchBytes c sp (fun i => addr + (16 * c.progress + i) * pitch) row (16 * row) (16 * row + 1) c.buf
        match f.2.2 with
        | .waiting => (f.1.setCmd { c with buf := f.2.1 }, .waiting)
        | .faulted x => (f.1, .faulted x)
        | .finished =>
          let b := r.bedAs bed (fmtB c.fmt)
          let n := elemBytes (fmtB c.fmt)
          let first := 16 * (off + c.progress) * 64
          let cells := (List.range 1024).foldl (fun t k =>
            let x := if fmtB c.fmt = 6 then (elemAt f.2.1 (k / 2) 1) / 16 ^ (k % 2) % 16 else elemAt f.2.1 (k * n) n
            Tbl.setD t (first + k) x 0) b.cells
          let b1 := { b with cells := cells, bad := b.bad.filter fun x => x < first || first + 1024 ≤ x }
          ((f.1.setResv c (some { r with beds := Tbl.put r.beds bed b1 })).setCmd
            { c with progress := c.progress + 1, buf := [], granted := [], start := s.cycle }, .finished)
    | .mma chk _ slate _ bed steps off _ =>
      if steps ≤ c.progress then (s, .finished) else s.runGranted c chk slate bed (off + c.progress) c.granted
    | _ => (s, .waiting)

/-- `MMA_KSTEP` (15 R286, R288, R290): a granted k-step is performed if its operands can be read. -/
def execMmaKstep (cmd : Nat) (s : State) : Host.Outcome State Fault Refusal :=
  event s <| do
    let c ← s.cmd? cmd
    if !c.granted.isEmpty && c.disp && !c.suspended && !c.done then
      let r := s.runStep c
      match r.2 with
      | .faulted _ => none
      | _ => some r.1
    else none

/-- The beds in use on each face of a bench. -/
def State.bedsUsed (s : State) (b : Nat) : List Nat :=
  let used := (s.benchGroups b).flatMap fun p => (p.2.resv.map fun r => r.faces).getD []
  (List.range 5).map fun f => (used.filter (· == f)).length

/-- Distinct faces for the beds of one reservation, least used first, and the beds then in use (15 R274, R275). -/
def takeFaces (used : List Nat) (n : Nat) : Option (List Nat × List Nat) :=
  let free := (List.range 4).flatMap fun k => (List.range 5).filter fun f => used.getD f 4 == k
  if free.length < n then none
  else some (free.take n, used.zipIdx.map fun x => if (free.take n).contains x.2 then x.1 + 1 else x.1)

/-- Faces are left for the beds of several reservations, one after another. -/
def bedsFit (used : List Nat) : List Nat → Bool
  | [] => true
  | n :: rest => match takeFaces used n with
    | some x => bedsFit x.2 rest
    | none => false

/-- The decision of a `srsv` (15 R283): its status and the reservation it grants. -/
def State.decideResv (s : State) (c : Cmd) (wide : Bool) (req : Nat) : Nat × Option Resv :=
  let nsl := bitsOf req 0 7
  let nbed := bitsOf req 7 3
  let ncb := bitsOf req 10 7
  let b := benchOf c.core
  let need := if wide then 2 * nsl else nsl
  let held := (s.benchGroups b).map fun p => (p.2.ids.queue, p.2.resv.map Resv.slatesHeld |>.getD 0, p.2.resv.map (·.ncb) |>.getD 0)
  let mine := ((held.filter fun x => x.1 == c.queue).map fun x => x.2.1).sum
  let slates := (held.map fun x => x.2.1).sum
  let books := (held.map fun x => x.2.2).sum
  let faces := takeFaces (s.bedsUsed b) nbed
  if (s.resvOf c).isSome then (3, none)
  else if nsl = 0 ∨ (if wide then 32 else 64) < nsl ∨ 4 < nbed ∨ 64 < ncb ∨ bitsOf req 17 15 ≠ 0 then (4, none)
  else if (s.ctx c.queue).desc.slmax < mine + need then (2, none)
  else if 64 < slates + need ∨ 64 < books + ncb ∨ faces.isNone then (1, none)
  else (0, some { wide := wide, nsl := nsl, nbed := nbed, ncb := ncb, slates := [], checked := [], badSlates := [], faces := (faces.map fun x => x.1).getD [],
                  beds := [], books := [], badBooks := [] })

/-- The rows of a slate moved to memory, block by block from the progress on: `out` gives a row's bytes. -/
def rowsOut (c : Cmd) (sp : Bool) (addr pitch row : Nat) (out : Nat → List Byte) (s : State) (p : Nat) : Option (Chk Nat) :=
  let rows := lanesOf c.rows
  if rows.length * row ≤ p then none
  else
    let i := rows.getD (p / row) 0
    let va := addr + i * pitch + p % row
    let k := Nat.min (row - p % row) (32 - va % 32)
    some (match (s.engWrite c sp va k (elemAt (out i) (p % row) k)).engine va with
      | .ok s1 _ => .ok s1 (p + k)
      | .wait s1 => .wait s1
      | .fault s1 f => .fault s1 f)

/-- The first element of the rows at which a checked slate and its twin differ (15 R291): row and column. -/
def Resv.mismatch (r : Resv) (slate : Nat) (rows : List Nat) : Option (Nat × Nat) :=
  if !r.checked.contains slate then none
  else rows.findSome? fun i => ((List.range 64).find? fun j => r.elem slate i j != r.elem (slate + 1) i j).map fun j => (i, j)

/-- One element of `sst` converted (15 R293), with its flags; an element is read in FMT.CF whatever the reservation's width, a narrower format
from the low bits, a wider one with zeros above (log entry 96). -/
def convertOut (fmt : Word64) (outf x : Nat) : FRes :=
  if fmtC fmt = 8 then (if outf = 7 then bitsInt (satInt (signExt x 32) (-128) 127) 8 else x % 2 ^ 32, 0)
  else match fmtOfCode (fmtC fmt), fmtOfCode outf with
    | some f, some o => (fmtOf o).roundTo (roundOf fmt .dyn false) ((fmtOf f).decode (x % 2 ^ (fmtOf f).bits))
    | _, _ => (0, 0)

/-- A slate's mark cleared. -/
def Resv.unmarked (r : Resv) (slate : Nat) : Resv := { r with checked := r.checked.filter (· != slate) }

/-- The pieces of a transfer can be written together: the setts or the L2 lines that it names can all be held at one time (log entry 43). -/
def State.outAtOnce (s : State) (c : Cmd) (sp : Bool) (addr pitch row : Nat) : Bool :=
  let unit := if sp then 2048 else 256
  let places := (lanesOf c.rows).flatMap fun i => (List.range (row / unit + 1)).map fun k => (addr + i * pitch + k * unit) / unit
  places.dedup.length ≤ (if sp then 32 else 16) || (!sp && !s.fabric.en)

/-- A transfer of a slate to memory (15 R291, R293): the comparison with the twin first, then the rows. A fault leaves nothing of it written (01
R10), and while a row waits none is written, where they can all be held at one time (log entry 43). -/
def State.slateOut (s : State) (c : Cmd) (r : Resv) (sp : Bool) (slate addr pitch n : Nat) (conv : Nat → FRes) : State × Ran :=
  let rows := lanesOf c.rows
  if r.badRead slate rows then (s, .faulted benchError)
  else
    match (if c.progress = 0 then r.mismatch slate rows else none) with
    | some (i, j) => (s, .faulted ⟨0x31, 255, 1, addr + i * pitch + j * n, 0⟩)
    | none =>
      let out (i : Nat) : List Byte := (List.range 64).flatMap fun j => leBytes n (conv (r.elem slate i j)).1
      let part := rowsOut c sp addr pitch (64 * n) out
      let x := s.runParts part c.progress (rows.length * 64 * n + 1)
      match x.2.2 with
      | .finished =>
        let fl := rows.foldl (fun f i => (List.range 64).foldl (fun f j => f ||| (conv (r.elem slate i j)).2) f) (0 : Flags)
        (x.1.raiseCmd c fl, .finished)
      | .waiting =>
        match s.outAtOnce c sp addr pitch (64 * n), part s x.2.1 with
        | true, some (.wait s1) => (s1, .waiting)
        | _, _ => (x.1.setCmd { c with progress := x.2.1 }, .waiting)
      | .faulted f =>
        match part s x.2.1 with
        | some (.fault s1 f1) => (s1, .faulted f1)
        | _ => (s, .faulted f)

/-- A bench command other than `bload` and `mma` run to its end (15 R283 to R293). -/
def State.runBench (s : State) (c : Cmd) : State × Ran :=
  match c.op with
  | .srsv wide req dst =>
    let d := s.decideResv c wide req.toNat
    let writes := [RegWrite.sca dst (BitVec.ofNat 32 d.1)]
    (s.updGroup c.core c.slot fun g =>
      let g1 := { g.applyWrite (.sca dst (BitVec.ofNat 32 d.1)) with resv := match d.2 with
        | some r => some r
        | none => g.resv }
      if g.shadow.isSome then { g1 with loadQueue := g1.loadQueue ++ [(.mx, writes)] } else g1, .finished)
  | .srel => (s.setResv c none, .finished)
  | .bload _ _ _ steps _ _ | .mma _ _ _ _ _ steps _ _ => (s, if steps ≤ c.progress then .finished else .waiting)
  | _ =>
    match s.resvOf c with
    | none => (s, .waiting)
    | some r =>
      match c.op with
      | .cbt sp addr slot =>
        let f := s.fetchBytes c sp (fun _ => addr) 32 32 33 c.buf
        match f.2.2 with
        | .finished => (f.1.setResv c (some { r with books := Tbl.setD r.books slot (leValue f.2.1) 0
                                                     badBooks := r.badBooks.filter fun x => x.1 != slot }), .finished)
        | .waiting => (f.1.setCmd { c with buf := f.2.1 }, .waiting)
        | .faulted x => (f.1, .faulted x)
      | .szero slate =>
        let rows := lanesOf c.rows
        let r1 := rows.foldl (fun r i => (List.range 64).foldl (fun r j => r.setElem slate i j 0) r) r
        (s.setResv c (some (r1.unmarked slate)), .finished)
      | .srd sp slate addr pitch => s.slateOut c r sp slate addr pitch (if r.wide then 8 else 4) fun x => (x, 0)
      | .sst sp slate addr pitch outf => s.slateOut c r sp slate addr pitch (elemBytes outf) (convertOut c.fmt outf)
      | .swr sp slate addr pitch =>
        let rows := lanesOf c.rows
        let n := if r.wide then 8 else 4
        let f := s.fetchBytes c sp (fun i => addr + rows.getD i 0 * pitch) (64 * n) (rows.length * 64 * n) (rows.length * 64 * n + 1) c.buf
        match f.2.2 with
        | .finished =>
          let r1 := rows.zipIdx.foldl (fun r x => (List.range 64).foldl (fun r j => r.setElem slate x.1 j (elemAt f.2.1 (x.2 * 64 * n + j * n) n)) r) r
          (f.1.setResv c (some (r1.unmarked slate)), .finished)
        | .waiting => (f.1.setCmd { c with buf := f.2.1 }, .waiting)
        | .faulted x => (f.1, .faulted x)
      | _ => (s, .waiting)

end Sys2Proof.Machine
end

