-- ==== Sys2Proof/Machine/Coll.lean ====
section
/-! DEFINITION. Collectives and combining (25 R438 to R448). -/

namespace Sys2Proof.Machine

/-! ### Members (25 R438) -/

/-- Every group of the package, live or in a saved image, changed. -/
def State.mapGroups (s : State) (f : Group → Group) : State :=
  { s with
    groups := Tbl.mapV f s.groups
    ctxs := Tbl.mapV (fun c : Ctx =>
      { c with image := c.image.map fun im => { im with groups := im.groups.map fun x => { x with g := f x.g } } }) s.ctxs }

/-- Every group of the package, live or saved, with the core through which its memory is reached. -/
def State.everyGroup (s : State) : List (Nat × Group) :=
  (s.groups.map fun p : Nat × Group => (p.1 / 64, p.2)) ++ (Tbl.vals s.ctxs).flatMap fun c => match c.image with
    | some im => im.groups.map fun x => (0, x.g)
    | none => []

/-- The bindings of a collective group here, with their members' groups. -/
def State.bindings (s : State) (gid : Nat) : List (Nat × Group × Binding) :=
  s.everyGroup.flatMap fun p => ((Tbl.vals p.2.binds).filter fun b => b.gid == gid).map fun b => (p.1, p.2, b)

/-- The member of a rank, if it is bound here. -/
def State.member? (s : State) (gid rank : Nat) : Option (Nat × Group × Binding) := (s.bindings gid).find? fun m => m.2.2.rank == rank

/-- Bindings of a collective group changed. -/
def State.updBindings (s : State) (gid : Nat) (f : Binding → Binding) : State :=
  s.mapGroups fun g => { g with binds := Tbl.mapV (fun b : Binding => if b.gid = gid then f b else b) g.binds }

/-! ### Instances (25 R443) -/

def State.inst? (s : State) (gid n : Nat) : Option Inst := s.coll.insts.find? fun i => i.gid == gid && i.n == n

def Inst.start (gid n : Nat) : Inst := ⟨gid, n, [], [], [], none, []⟩

/-- An instance changed, known from now on. -/
def State.updInst (s : State) (gid n : Nat) (f : Inst → Inst) : State :=
  let c := s.coll
  if (s.inst? gid n).isSome then
    { s with coll := { c with insts := c.insts.map fun i => if i.gid = gid ∧ i.n = n then f i else i } }
  else { s with coll := { c with insts := c.insts ++ [f (Inst.start gid n)] } }

/-- The other packages that hold members of a collective group, as the bindings here name them. -/
def State.otherPackages (s : State) (gid : Nat) : List Nat :=
  (((s.bindings gid).flatMap fun m => m.2.2.members).dedup).filter fun p => p != s.fabric.self

/-- Every member has announced the instance. -/
def Inst.allHere (i : Inst) (members : Nat) : Bool := i.ranks.length == members

/-- Streams of a rank have all ended. -/
def Inst.rankEnded (i : Inst) (rank : Nat) : Bool :=
  match i.ranks.find? fun r => r.1 == rank with
  | some r => r.2.2 ≤ Tbl.getD i.ended rank 0
  | none => false

/-- An instance is complete at a member (25 R443). -/
def State.instComplete (s : State) (b : Binding) (n : Nat) : Bool :=
  match s.inst? b.gid n with
  | some i => i.abort.isSome || (i.allHere b.members.length && i.ranks.all fun r => i.rankEnded r.1)
  | none => false

/-- What an aborted instance wrote to RECV here is unspecified (25 R447): every byte of it becomes a free one where it can be written at once.
The groups and what is held of instances stay. -/
def State.unspecifyRecv (s : State) (gid : Nat) (wrote : List (Nat × Nat × Nat)) : State :=
  if wrote.isEmpty then s
  else
    let t := wrote.foldl (fun st w =>
      match s.member? gid w.1 with
      | none => st
      | some (core, g, b) =>
        let va := b.recv + w.2.1
        match st.vwrite core g.ids.queue va (w.2.2 + 2) ((List.range w.2.2).map fun i => Config.freeByte s.free (va + i)) with
        | .ok st1 _ => st1
        | _ => st) s.fresh
    { t with coll := s.coll, groups := s.groups, ctxs := s.ctxs }

/-- An instance is aborted on every member here, and the other packages are told where the abort arises here (25 R447). -/
def State.abortInst (s : State) (gid n cause : Nat) (tell : Bool) : State :=
  if ((s.inst? gid n).bind fun i => i.abort).isSome then s
  else
    let s1 := s.updInst gid n fun i => { i with abort := some cause }
    let s2 := s1.updBindings gid fun b => { b with broken := some (b.broken.getD (cause, n)) }
    let s3 := { s2 with coll := { s2.coll with packets := s2.coll.packets.filter fun p => !(p.gid == gid && p.n == n) } }.unspecifyRecv gid
      (((s.inst? gid n).map Inst.wrote).getD [])
    if tell then { s3 with out := s3.out ++ (s.otherPackages gid).map fun p => Msg.abort gid n cause p } else s3

/-- An announcement taken: one that a member here disagrees with aborts the instance (25 R443, R447). A member that comes to an instance
already aborted finds its handle broken. -/
def State.announced (s : State) (gid n rank : Nat) (sig : BitVec 32) (nstr : Nat) : State :=
  let s1 := s.updInst gid n fun i => if i.ranks.any fun r => r.1 == rank then i else { i with ranks := i.ranks ++ [(rank, sig, nstr)] }
  match s1.inst? gid n with
  | none => s1
  | some i =>
    match i.abort with
    | some c => s1.updBindings gid fun b => { b with broken := some (b.broken.getD (c, n)) }
    | none =>
      let here := i.ranks.filter fun r => (s1.member? gid r.1).isSome
      if here.any fun a => i.ranks.any fun b => a.2.1 != b.2.1 then s1.abortInst gid n 0x40 true else s1

/-- A stream of a member has ended. -/
def State.streamEnded (s : State) (gid n rank : Nat) : State :=
  s.updInst gid n fun i => { i with ended := Tbl.put i.ended rank (Tbl.getD i.ended rank 0 + 1) }

/-- A binding ends: an instance of it that is not complete is aborted (25 R447), one that others alone have started included where the
member is cut off (`all`). -/
def State.endBinding (s : State) (all : Bool) (b : Binding) : State :=
  let others := if all then (s.coll.insts.filter fun i => i.gid == b.gid && b.seq ≤ i.n).map fun i => i.n else []
  match (List.range b.seq ++ others).find? fun n => !s.instComplete b n with
  | some n => s.abortInst b.gid n 0x42 true
  | none => s

/-- What is held of a collective group's instances is given up once no binding of it is left here. -/
def State.forgetInsts (s : State) (b : Binding) : State :=
  if (s.bindings b.gid).isEmpty then
    { s with coll := { s.coll with insts := s.coll.insts.filter fun i => !(i.gid == b.gid && (i.n < b.seq || i.abort.isSome)) } }
  else s

/-- Every binding of a group ends (25 R438, R447). -/
def State.endBindings (s : State) (core slot : Nat) (all : Bool) : State :=
  match s.group? core slot with
  | none => s
  | some g =>
    let bs := Tbl.vals g.binds
    bs.foldl State.forgetInsts ((bs.foldl (fun t b => t.endBinding all b) s).updGroup core slot fun g => { g with binds := [] })

/-! ### Reads of a word's operands from memory -/

/-- Bytes read at issue with the group's own privilege, as cached loads: a fault names the piece it meets (12 R210). -/
def State.userRead (s : State) (core q : Nat) (mon : Bool) (va : Nat) : Nat → Nat → Chk (List Byte)
  | 0, _ => .ok s []
  | fuel + 1, n =>
    if n = 0 then .ok s []
    else if vaEnd ≤ va then .fault s ⟨0x11, 255, 0, va, 0⟩
    else
      let k := Nat.min n (32 - va % 32)
      match ((s.translate core q mon ⟨true, false, false, some .cached⟩ va).bind fun s1 p => s1.cachedRead (some q) p.1 k).lane 255 va with
      | .wait s1 => .wait s1
      | .fault s1 f => .fault s1 f
      | .ok s1 x => match s1.userRead core q mon (va + k) fuel (n - k) with
        | .ok s2 r => .ok s2 (leBytes k x ++ r)
        | .wait s2 => .wait s2
        | .fault s2 f => .fault s2 f

/-- A 64-bit word of a byte list. -/
def wordAt (d : List Byte) (off : Nat) : Nat := leValue ((d.drop off).take 8)

/-- A buffer lies on pages of R438: readable, writable where `wr`, user, cached, not near-memory, of this package. -/
def State.bufferOk (s : State) (core q va : Nat) (wr : Bool) : Nat → Nat → Try Bool
  | 0, _ => .ok s true
  | fuel + 1, n =>
    if n = 0 then .ok s true
    else if vaEnd ≤ va then .ok s false
    else
      let k := Nat.min n (4096 - va % 4096)
      match s.leafOf core q va with
      | .wait s1 => .wait s1
      | .bad s1 _ _ _ => .ok s1 false
      | .ok s1 r =>
        let pa := leafPa r.1 r.2 va
        if bitOf r.1 2 && (!wr || bitOf r.1 3) && bitOf r.1 5 && !bitOf r.1 6 && !bitOf r.1 7 && s1.paOk pa && !s1.remote pa then
          s1.bufferOk core q (va + k) wr fuel (n - k)
        else .ok s1 false

/-! ### `cgrp` (25 R438 to R440) -/

/-- The descriptor's fields (25 R438), when none of them breaks a limit: GID, RANK, SEND, RECV, LEN, TMO and the packages. -/
def descFields (d : List Byte) : Option Binding :=
  let w0 := wordAt d 0
  let w3 := wordAt d 24
  let nm1 := bitsOf w0 49 9
  let rank := bitsOf w0 40 9
  let len := bitsOf w3 0 24
  let pkgs := (List.range (nm1 + 1)).map fun r => wordAt d (64 + 8 * r)
  if bitsOf w0 58 6 = 0 ∧ bitsOf (wordAt d 8) 57 7 = 0 ∧ bitsOf (wordAt d 16) 57 7 = 0 ∧ bitsOf w3 40 24 = 0 ∧
      (List.range 4).all (fun i => wordAt d (32 + 8 * i) == 0) ∧ nm1 ≠ 0 ∧ rank ≤ nm1 ∧ len % 8 = 0 ∧ 8 ≤ len ∧ pkgs.all (· < 512) then
    some { gid := bitsOf w0 0 40, rank := rank, members := pkgs, send := wordAt d 8, recv := wordAt d 16, len := len,
           tmo := if bitsOf w3 24 16 = 0 then 100 else bitsOf w3 24 16, seq := 0, broken := none }
  else none

/-- A package lies within a scope of this package (25 R440). -/
def State.inScope (s : State) (sc : Scope) (p : Nat) : Bool :=
  p == s.fabric.self || (s.fabric.en && (s.domEnt p).valid && match sc with
    | .dom => true
    | .cell => s.cellOf p == s.ownCell
    | _ => false)

/-- A `cl` command that reads and writes no range. -/
def clLaunch (e : Entry) (op : CmdOp) (rs : List Rng) (entry : Bool) : Launch :=
  { path := .cl, op := op, ranges := rs, rows := e.mask, toks := (none, none, none), resumable := entry, busy := false }

/-- A handle given up. -/
def Group.dropBind (g : Group) (h : Nat) : Group := { g with binds := Tbl.del g.binds h }

/-- `cgrp` (25 R440): the binding is made or ended at issue, and its completion writes the status. -/
def execCgrp (gd : Guard) (sc : Scope) (d a : Reg) (s : State) : Host.Outcome State Fault Refusal :=
  uniform (.cgrp gd sc d a) gd s fun g e =>
    let x := g.rdSs a.toNat 2
    let core := s.cur.core
    let q := g.ids.queue
    let status (s : State) (g : Group) (st : Nat) (bound : Bool := false) : Res :=
      s.issueCmd g e (clLaunch e (.cgrp d.toNat (BitVec.ofNat 32 st)) [] bound)
    if !g.single then .fault (.word 0x01)
    else if x = 0 then
      let h := bitsOf (g.rdS d.toNat).toNat 0 3
      match Tbl.find? g.binds h with
      | some b =>
        let s1 := s.endBinding true b
        let g1 := ((s1.group? core s.cur.slot).getD g).dropBind h
        status ((s1.setCurGroup g1).forgetInsts b) g1 0
      | none => status s g 4
    else if x % 64 ≠ 0 then .fault (operandFault 0x13 x)
    else
      match s.userRead core q g.mon x 3 64 with
      | .wait s1 => .stall s1 10 0
      | .fault _ f => .fault f
      | .ok s1 d0 =>
        let n := 8 * (bitsOf (wordAt d0 0) 49 9 + 1)
        match s1.userRead core q g.mon (x + 64) (n / 32 + 2) n with
        | .wait s2 => .stall s2 10 0
        | .fault _ f => .fault f
        | .ok s2 d1 =>
          match descFields (d0 ++ d1) with
          | none => status s2 g 2
          | some b =>
            match (s2.bufferOk core q b.send false (b.len / 4096 + 2) b.len).bind fun s3 ok =>
                (s3.bufferOk core q b.recv true (b.len / 4096 + 2) b.len).bind fun s4 ok' => .ok s4 (ok && ok') with
            | .wait s3 => .stall s3 10 0
            | .bad s3 _ _ _ => status s3 g 2
            | .ok s3 ok =>
              if !ok then status s3 g 2
              else if !b.members.all (s3.inScope sc) then status s3 g 3
              else match (List.range 8).find? fun h => (Tbl.find? g.binds h).isNone with
                | none => status s3 g 1
                | some h => status s3 { g with binds := Tbl.put g.binds h b } (h * 256) true

/-! ### `cstart` and its streams (25 R441 to R444) -/

/-- The buffer format of a wire format (25 R442), and the bytes of an element. -/
def bufFmt (ty : FTy) : FTy := if ty = .f64 then .f64 else .f32
def bufBytes (ty : FTy) : Nat := if ty = .f64 then 8 else 4

/-- A stream entry, when no field of it breaks a limit of R441 and R442. -/
def streamOf (d : List Byte) (members len elt : Nat) : Option Stream :=
  let w0 := wordAt d 0
  let w1 := wordAt d 8
  let w2 := wordAt d 16
  let w3 := wordAt d 24
  let hops := bitsOf w0 56 3 + 1
  let op (i : Nat) : Nat := bitsOf w1 (2 * i) 2
  let rank (i : Nat) : Nat := if i = 7 then bitsOf w3 0 9 else bitsOf w2 (9 * i) 9
  let off := bitsOf w0 0 32
  let count := bitsOf w0 32 24
  let is := List.range 8
  if bitsOf w0 59 5 = 0 ∧ bitsOf w1 16 48 = 0 ∧ !bitOf w2 63 ∧ bitsOf w3 9 55 = 0 ∧ count ≠ 0 ∧
      is.all (fun i => decide (i < hops) || (op i == 0 && rank i == 0)) ∧ is.all (fun i => decide (hops ≤ i) || decide (rank i < members)) ∧
      is.all (fun i => decide (hops ≤ i + 1) || op i != 2) ∧ 2 ≤ op (hops - 1) ∧ (off + count) * elt ≤ len then
    some { off := off, count := count, route := (List.range hops).map rank, ops := (List.range hops).map op }
  else none

/-- The signature of an instance (25 R443), its number apart. -/
def sigOf (ty : FTy) (sig : Nat) : BitVec 32 := BitVec.ofNat 32 (ty.code.toNat * 2 ^ 16 + sig)

/-- The announcement of a `cstart` whose wait is over: it takes its region entry and its streams may start (25 R443). The command keeps
the signature in its row mask until then. -/
def State.startInst (s : State) (core slot : Nat) (g : Group) (c : Cmd) (handle gid n rank nstr : Nat) : State :=
  let g1 := { g with block := .none, binds := match Tbl.find? g.binds handle with
                | some b => Tbl.put g.binds handle { b with seq := n + 1 }
                | none => g.binds }
  let s1 := (s.setGroup core slot (if g.single then g1.takeRegion c.after else g1)).setCmd { c with progress := 1 }
  let s2 := s1.announced gid n rank c.rows nstr
  { s2 with out := s2.out ++ (s2.otherPackages gid).map fun p => Msg.announce gid n rank c.rows nstr p }

/-- The wait of a `cstart` is over: every member has announced the instance before (25 R443). -/
def State.mayStart (s : State) (b : Binding) (n : Nat) : Bool :=
  n == 0 || ((s.inst? b.gid (n - 1)).map fun i => i.allHere b.members.length).getD false

/-- A fault raised at the instruction that a group is blocked in. -/
def State.blockFault (s : State) (core slot : Nat) (g : Group) (f : FaultInfo) : State :=
  let k := g.live.headD 0
  (s.setGroup core slot { g with block := .none }).lateFault core slot g.blockPos (g.ent k).pos k 0 (g.ent k).mask f

/-- The fault of an abort (25 R447): ADDR0 the sequence number, ADDR1 the GID. -/
def abortFault (b : Binding) (a : Nat × Nat) : FaultInfo := ⟨a.1, 255, 0, a.2, b.gid⟩

/-- A group blocked in `cstart` goes on: it starts, or the abort of its handle is raised and its command is abandoned. -/
def State.passCstart (s : State) (core slot : Nat) (g : Group) (handle cmd : Nat) : Option State :=
  match Tbl.find? g.binds handle, s.cmd? cmd with
  | some b, some c =>
    match b.broken, c.op with
    | some a, _ => some ((s.finishCmd c).blockFault core slot g (abortFault b a))
    | none, .cstart _ gid n rank _ streams => if s.mayStart b n then some (s.startInst core slot g c handle gid n rank streams.length) else none
    | none, _ => none
  | _, _ => none

/-- `cstart` (25 R443): its checks in order; its ranges are registered, then it waits for the announcements of the instance before. -/
def execCstart (gd : Guard) (t : FTy) (a b : Reg) (s : State) : Host.Outcome State Fault Refusal :=
  uniform (.cstart gd t a b) gd s fun g e =>
    let w := (g.rdS b.toNat).toNat
    let h := bitsOf w 0 3
    let nstr := bitsOf w 8 5
    let plan := g.rdSs a.toNat 2
    if !g.single then .fault (.word 0x01)
    else match Tbl.find? g.binds h with
      | none => .fault (operandFault 0x11 h)
      | some bd =>
        let n := bd.seq
        match bd.broken with
        | some x => .fault (abortFault bd (x.1, n))
        | none =>
          if n ≠ 0 ∧ !((s.inst? bd.gid (n - 1)).map fun i => i.rankEnded bd.rank).getD false then .fault ⟨0x41, 255, 0, n, bd.gid⟩
          else if plan % 32 ≠ 0 then .fault (operandFault 0x13 plan)
          else if bitsOf w 3 5 ≠ 0 ∨ bitsOf w 13 3 ≠ 0 ∨ 16 < nstr then .fault (operandFault 0x02 0)
          else
            match s.userRead s.cur.core g.ids.queue g.mon plan (nstr + 1) (32 * nstr) with
            | .wait s1 => .stall s1 10 0
            | .fault _ f => .fault f
            | .ok s1 d =>
              let streams := (List.range nstr).map fun i => streamOf ((d.drop (32 * i)).take 32) bd.members.length bd.len (bufBytes t)
              if streams.any Option.isNone then .fault (operandFault 0x02 0)
              else
                let l : Launch := { (clLaunch e (.cstart h bd.gid n bd.rank t (streams.filterMap id))
                    [.whole false false bd.send bd.len, .whole false true bd.recv bd.len] false) with rows := sigOf t (bitsOf w 16 16) }
                match s1.issueCmd g e l with
                | .done s2 =>
                  .done (s2.updGroup s.cur.core s.cur.slot fun g => { g with block := .cstart h s1.nextId s.time })
                | r => r

/-- The SEND values of a packet, as the starter's `cstart` reads them (25 R442). -/
def readElems (ty : FTy) (d : List Byte) (n : Nat) : List FVal :=
  (List.range n).map fun i => (fmtOf (bufFmt ty)).decode (leValue ((d.drop (bufBytes ty * i)).take (bufBytes ty)))

/-- A value rounded to the wire (25 R442). -/
def toWire (ty : FTy) (v : FVal) : Nat := ((fmtOf ty).roundTo .nearest v).1

/-- Elements of a member's buffer read as bytes. -/
def State.memberRead (s : State) (core : Nat) (g : Group) (ty : FTy) (buf off n : Nat) : Try (List Byte) :=
  s.vread core g.ids.queue (buf + bufBytes ty * off) (n + 2) (bufBytes ty * n)

/-- The packets of a stream made, 64 elements each (25 R442). -/
def State.cutStream (s : State) (core : Nat) (g : Group) (b : Binding) (ty : FTy) (n k : Nat) (x : Stream) : Nat → Nat → Try (List RoutePacket)
  | 0, _ => .ok s []
  | fuel + 1, done =>
    if x.count ≤ done then .ok s []
    else
      let m := Nat.min 64 (x.count - done)
      (s.memberRead core g ty b.send (x.off + done) m).bind fun s1 d =>
        (s1.cutStream core g b ty n k x fuel (done + m)).bind fun s2 r =>
          .ok s2 ({ gid := b.gid, n := n, wire := ty, rank := b.rank, stream := k, total := (x.count + 63) / 64, route := x.route, ops := x.ops,
                    hop := 0, off := x.off + done, payload := (readElems ty d m).map (toWire ty) } :: r)

/-- A packet for its next rank: held here, or passed on (25 R442). -/
def State.sendPacket (s : State) (members : List Nat) (p : RoutePacket) : State :=
  let pkg := members.getD (p.route.getD p.hop 0) 0
  if pkg = s.fabric.self then { s with coll := { s.coll with packets := s.coll.packets ++ [p] } } else s.emit (.packet p pkg)

/-- A dispatched `cstart` starts its streams; a read of SEND that cannot be made aborts the instance (25 R442, R447). -/
def State.startStreams (s : State) (c : Cmd) : Try Unit :=
  match c.op, s.group? c.core c.slot with
  | .cstart h gid n _ ty streams, some g =>
    match Tbl.find? g.binds h with
    | none => .ok s ()
    | some b =>
      match streams.zipIdx.foldl (fun acc x => acc.bind fun s1 r =>
          (s1.cutStream c.core g b ty n x.2 x.1 (x.1.count / 64 + 2) 0).bind fun s2 ps => .ok s2 (r ++ ps)) (Try.ok s []) with
      | .ok s1 ps => .ok (ps.foldl (fun st p => st.sendPacket b.members p) s1) ()
      | .wait s1 => .wait s1
      | .bad s1 cause _ _ => .ok (s1.abortInst gid n cause true) ()
  | _, _ => .ok s ()

/-- A `cstart` command is complete when its instance is complete at its member (25 R443). -/
def State.cstartDone (s : State) (c : Cmd) : Bool :=
  match c.op, s.group? c.core c.slot with
  | .cstart h _ n _ _ _, some g => match Tbl.find? g.binds h with
    | some b => s.instComplete b n
    | none => true
  | _, _ => true

/-- One hop of a packet at the member of its rank (25 R442): a fault of the member's buffers aborts the instance (R447). -/
def State.hopAt (s : State) (p : RoutePacket) (core : Nat) (g : Group) (b : Binding) : Try (List Nat) :=
  let ty := p.wire
  let f := fmtOf (bufFmt ty)
  let n := p.payload.length
  match p.ops.getD p.hop 1 with
  | 0 =>
    (s.memberRead core g ty b.send p.off n).bind fun s1 d =>
      .ok s1 ((p.payload.zip (readElems ty d n)).map fun x => toWire ty (f.decode (f.add .nearest ((fmtOf ty).decode x.1) x.2).1))
  | 1 => .ok s p.payload
  | _ =>
    let d := p.payload.flatMap fun x => leBytes (bufBytes ty) (f.roundTo .nearest ((fmtOf ty).decode x)).1
    (s.vprobe core g.ids.queue (b.recv + bufBytes ty * p.off) 3 d.length).bind fun s1 _ =>
      let w := (b.rank, bufBytes ty * p.off, d.length)
      let s2 := s1.updInst p.gid p.n fun i => { i with wrote := if i.wrote.contains w then i.wrote else i.wrote ++ [w] }
      (s2.vwrite core g.ids.queue (b.recv + bufBytes ty * p.off) (d.length + 2) d).bind fun s3 _ => .ok s3 p.payload

/-- A packet's last hop is done: its stream ends with its last packet, and the other packages are told. -/
def State.packetEnded (s : State) (p : RoutePacket) : State :=
  let key := p.rank * 16 + p.stream
  let s1 := s.updInst p.gid p.n fun i => { i with packetsEnded := Tbl.put i.packetsEnded key (Tbl.getD i.packetsEnded key 0 + 1) }
  if ((s1.inst? p.gid p.n).map fun i => Tbl.getD i.packetsEnded key 0) = some p.total then
    let s2 := s1.streamEnded p.gid p.n p.rank
    { s2 with out := s2.out ++ (s2.otherPackages p.gid).map fun k => Msg.streamEnd p.gid p.n p.rank k }
  else s1

/-- `ROUTE_PACKET_HOP` (25 R442, R444): a packet arrives, or a held packet whose member has started the instance makes its hop. -/
def execRoutePacketHop (idx : Nat) (arrival : Option RoutePacket) (s : State) : Host.Outcome State Fault Refusal :=
  event s <|
    match arrival with
    | some p => some { s with coll := { s.coll with packets := s.coll.packets ++ [p] } }
    | none => do
      let p ← s.coll.packets[idx]?
      let (core, g, b) ← s.member? p.gid (p.route.getD p.hop 0)
      let gone := { s with coll := { s.coll with packets := s.coll.packets.eraseIdx idx } }
      if ((s.inst? p.gid p.n).bind fun i => i.abort).isSome then some gone
      else if b.seq ≤ p.n then none
      else
        match gone.hopAt p core g b with
        | .wait s1 => some { s1 with coll := { s1.coll with packets := s1.coll.packets ++ [p] } }
        | .bad s1 cause _ _ => some (s1.abortInst p.gid p.n cause true)
        | .ok s1 payload =>
          let p1 := { p with payload := payload, hop := p.hop + 1 }
          some (if p1.hop < p1.route.length then s1.sendPacket b.members p1 else s1.packetEnded p1)

/-- `ANNOUNCEMENT` (25 R443): a member of another package announces an instance, or one of its streams has ended. -/
def execAnnouncement (gid n rank : Nat) (sig : BitVec 32) (nstr : Nat) (ended : Bool) (s : State) : Host.Outcome State Fault Refusal :=
  event s (some (if ended then s.streamEnded gid n rank else s.announced gid n rank sig nstr))

/-- `COLLECTIVE_ABORT` (25 R447): the abort of an instance reaches this package, which knows of it by a binding or an announcement. -/
def execCollectiveAbort (gid n cause : Nat) (s : State) : Host.Outcome State Fault Refusal :=
  event s (if (s.bindings gid).isEmpty && (s.inst? gid n).isNone then none else some (s.abortInst gid n cause false))

/-! ### `cwait` (25 R445) -/

/-- Every instance that a binding has started is complete, and so is every command of it. -/
def State.cwaitOver (s : State) (core slot handle : Nat) (b : Binding) : Bool :=
  (List.range b.seq).all (fun n => s.instComplete b n) && (s.cmdsOf core slot).all fun c => c.done || match c.op with
    | .cstart h _ _ _ _ _ => h != handle
    | _ => true

/-- `cwait` passes: the region ends, and the group observes the commands of its complete instances, closed batches included (13 R230, 20 R361). -/
def State.cwaitPass (s : State) (g : Group) (handle : Nat) : State :=
  (s.boundary g.ids.uid 5).observe g fun c => c.handle == some handle

/-- `cwait` (25 R445). -/
def execCwait (gd : Guard) (a : Reg) (s : State) : Host.Outcome State Fault Refusal :=
  uniform (.cwait gd a) gd s fun g _ =>
    let h := bitsOf (g.rdS a.toNat).toNat 0 3
    match Tbl.find? g.binds h with
    | none => .fault (operandFault 0x11 h)
    | some b =>
      match b.broken with
      | some x => .fault (abortFault b x)
      | none =>
        if s.cwaitOver s.cur.core s.cur.slot h b then .done (s.cwaitPass g h)
        else .group s { g with block := .cwait h s.time }

/-- A group blocked in `cwait` goes on, or takes the abort of its handle. -/
def State.passCwait (s : State) (core slot : Nat) (g : Group) (handle : Nat) : Option State :=
  match Tbl.find? g.binds handle with
  | none => some (s.setGroup core slot { g with block := .none })
  | some b =>
    match b.broken with
    | some x => some (s.blockFault core slot g (abortFault b x))
    | none =>
      if s.cwaitOver core slot handle b then
        let g1 := { g with block := .none }
        some ((s.setGroup core slot g1).cwaitPass g1 handle)
      else none

/-- `COLLECTIVE_TIMEOUT` (25 R447): a stall in `cstart` or a block in `cwait` has lasted longer than TMO. -/
def execCollectiveTimeout (core slot : Nat) (s : State) : Host.Outcome State Fault Refusal :=
  event s <| do
    let g ← s.group? core slot
    match g.block with
    | .cstart h _ since =>
      let b ← Tbl.find? g.binds h
      if since + 1000000 * b.tmo < s.time then some (s.abortInst b.gid b.seq 0x42 true) else none
    | .cwait h since =>
      let b ← Tbl.find? g.binds h
      let n ← (List.range b.seq).find? fun n => !s.instComplete b n
      if since + 1000000 * b.tmo < s.time then some (s.abortInst b.gid n 0x42 true) else none
    | _ => none

/-! ### `red` (25 R448) -/

/-- What a `red` does to its word once it runs: it folds into the granule held in C, or acts as an atomic of the package. -/
def State.runRed (s : State) (c : Cmd) (op : RedOp) (ty : RedTy) (sc : Scope) (pa x : Nat) : Try Unit :=
  let n := redW ty / 8
  let q := some c.queue
  if s.fabric.en && (sc == .dom || sc == .cell) then
    (s.acquire q pa (.fold (copCode op ty))).bind fun s1 _ => .ok (s1.foldPartial pa op ty x) ()
  else
    (s.cachedAtomic q (some c.core) (2 ^ 40 + c.id) pa n (.fold op ty x) fun old => foldNew op ty old x).bind fun s1 _ => .ok s1 ()

/-- `red` (25 R448): its checks as a uniform store, then a `cl` command whose word belongs to its own region (13 R234, R244). -/
def execRed (gd : Guard) (op : RedOp) (t : RedTy) (sc : Scope) (a b : Reg) (s : State) : Host.Outcome State Fault Refusal :=
  uniform (.red gd op t sc a b) gd s fun g e =>
    let va := g.rdSs a.toNat 2
    let n := redW t / 8
    let x := g.rdSs b.toNat t.width
    match addrFault vaEnd n 255 va with
    | some f => .fault f
    | none =>
      let acc : Access := { space := .cached, lane := 255, va := va, pa := 0, size := n, op := .fold op t x, tag := 0, section_ := 0 < g.rdepth,
                            locked := false, whole := false, policy := .dflt }
      match ((s.translate s.cur.core g.ids.queue g.mon ⟨false, true, false, some .cached⟩ va).bind fun s1 p =>
          if bitOf p.2 7 then .bad s1 0x11 0 else if s1.lockMet g acc then .bad s1 0x21 0 else .ok s1 p.1).lane 255 va with
      | .wait s1 => .stall s1 10 0
      | .fault _ f => .fault f
      | .ok s1 pa =>
        let a := { acc with pa := pa }
        if 255 ≤ g.ctr .cl ∧ !g.hasOpen .cl then .stall s1 10 (1 + 256 * Path.cl.code.toNat)
        else match s1.conflictOf g a 0 .fold with
        | some f => .fault f
        | none =>
          (s1.setTrack (s1.track.release 0 a.words .fold)).issueCmd g e { clLaunch e (.red op t sc va pa x) [] true with fold := some (pa, n) }

end Sys2Proof.Machine
end

