-- ==== Sys2Proof/Machine/Near.lean ====
section
/-! DEFINITION. Near-memory commands (19 R350 to R359). -/

namespace Sys2Proof.Machine

/-! ### Issue (19 R352 to R354) -/

/-- A near-memory command with its checks 1 to 3, in order. -/
def nearChecks (g : Group) (e : Entry) (tok : TokReg) (op : CmdOp) (rs : List Rng) (badWord : Bool) (addrs : List Nat) :
    Except FaultInfo Launch :=
  match g.tokens tok with
  | none => .error (operandFault 0x02 0)
  | some toks =>
    match firstFault ([(badWord, operandFault 0x02 0)] ++ addrs.map fun a => (a % 1024 != 0, operandFault 0x13 a)) with
    | some f => .error f
    | none =>
      match outsideFault rs with
      | some f => .error f
      | none => .ok { path := .nm, op := op, ranges := rs, rows := e.mask, toks := toks, resumable := true, busy := false }

/-- Two operands of one number of rows overlap (19 R354). -/
def rowsOverlap (a b rows : Nat) : Bool := a < b + 1024 * rows && b < a + 1024 * rows

/-- The range of an operand. -/
def rowsOf (wr : Bool) (a rows : Nat) : Rng := .whole false wr a (1024 * rows)

/-- `pim` (19 R352 to R355): a destination equal to a source takes the write lock alone. -/
def execPim (gd : Guard) (op : PimOp) (d a b : Reg) (tok : TokReg) (s : State) : Host.Outcome State Fault Refusal :=
  command (.pim gd op d a b tok) gd s fun g e =>
    let w := (g.rdS (b.toNat + 2)).toNat
    let x := g.rdS (b.toNat + 3)
    let rows := bitsOf w 0 16 + 1
    let dst := g.rdSs d.toNat 2
    let ra := g.rdSs a.toNat 2
    let rb := g.rdSs b.toNat 2
    let sources := if op = .scale then [ra] else [ra, rb]
    nearChecks g e tok (.pim op dst ra rb rows x)
      (((sources.filter (· != dst)).map fun r => rowsOf false r rows) ++ [rowsOf true dst rows])
      (bitsOf w 16 16 != 0 || bitsOf x.toNat 16 16 != 0 || (op == .scale && rb != 0) || (op == .add && x != 0) ||
        sources.any fun r => r != dst && rowsOverlap dst r rows)
      (dst :: sources)

/-- `rowcp` (19 R352 to R356). -/
def execRowcp (gd : Guard) (d a b : Reg) (tok : TokReg) (s : State) : Host.Outcome State Fault Refusal :=
  command (.rowcp gd d a b tok) gd s fun g e =>
    let w := (g.rdS b.toNat).toNat
    let rows := bitsOf w 0 16 + 1
    let dst := g.rdSs d.toNat 2
    let src := g.rdSs a.toNat 2
    nearChecks g e tok (.rowcp dst src rows) [rowsOf false src rows, rowsOf true dst rows]
      (bitsOf w 16 16 != 0 || rowsOverlap dst src rows) [dst, src]

/-- `rowz` (19 R352 to R356). -/
def execRowz (gd : Guard) (d b : Reg) (tok : TokReg) (s : State) : Host.Outcome State Fault Refusal :=
  command (.rowz gd d b tok) gd s fun g e =>
    let w := (g.rdS b.toNat).toNat
    let rows := bitsOf w 0 16 + 1
    let dst := g.rdSs d.toNat 2
    nearChecks g e tok (.rowz dst rows) [rowsOf true dst rows] (bitsOf w 16 16 != 0) [dst]

/-! ### Rows (19 R350, R351) -/

/-- The local address of a row: its page's conditions (19 R350), which are check 6 of 19 R354. -/
def State.nearPage (s : State) (c : Cmd) (wr : Bool) (va : Nat) : Try Nat :=
  (s.leafOf c.core c.queue va).bind fun s1 r =>
    let pa := leafPa r.1 r.2 va
    if !s1.paOk pa then .bad s1 0x10 0
    else if !bitOf r.1 7 || !(c.mon || bitOf r.1 5) || !(if wr then bitOf r.1 3 else bitOf r.1 2) || s1.remote pa then .bad s1 0x11 0
    else .ok s1 (lpaOf pa)

/-- The local addresses of rows, each a source or a destination, in order. -/
def State.nearPages (s : State) (c : Cmd) : List (Bool × Nat) → Chk (List Nat)
  | [] => .ok s []
  | (wr, va) :: rest =>
    match (s.nearPage c wr va).lane 255 va with
    | .wait s1 => .wait s1
    | .fault s1 f => .fault s1 f
    | .ok s1 l =>
      match s1.nearPages c rest with
      | .wait s2 => .wait s2
      | .fault s2 f => .fault s2 f
      | .ok s2 ls => .ok s2 (l :: ls)

/-- The granules of a row. -/
def rowGranules (lpa : Nat) : List Nat := (List.range 8).map fun k => lpa / 128 + k

/-- The conditions on a source row that hold on both paths: no granule of it is in state X (24 R421). -/
def State.lostRow (s : State) (lpa : Nat) : Bool := (rowGranules lpa).any fun g => ((s.dirEnt g).map fun e => e.st) == some .x

/-- A source row decoded (18 R343): its first sector that cannot be read gives the cause, with that sector's address. -/
def State.decodeRow (s : State) (va lpa : Nat) : Try Unit :=
  if s.lostRow lpa then .bad s 0x30 0
  else
    let s1 := (rowGranules lpa).foldl State.checkGranule s
    match (List.range 32).find? fun k => s1.mem.poisonOf (lpa / 32 + k) != 0 with
    | some k =>
      let p := poisonCause (s1.mem.poisonOf (lpa / 32 + k))
      .bad s1 p.1 p.2 (some (va + 32 * k))
    | none => .ok s1 ()

/-- The source rows decoded, in order. -/
def State.decodeRows (s : State) : List (Nat × Nat) → Chk Unit
  | [] => .ok s ()
  | (va, lpa) :: rest =>
    match (s.decodeRow va lpa).lane 255 va with
    | .wait s1 => .wait s1
    | .fault s1 f => .fault s1 f
    | .ok s1 _ => s1.decodeRows rest

/-- The package's cached copies of a row dropped, dirty ones too (19 R357). -/
def State.dropRow (s : State) (lpa : Nat) : State :=
  let pa := domAddr s.fabric.self lpa
  let s1 := (List.range 32).foldl (fun st k => st.l2Drop (pa / 32 + k)) s
  (List.range 8).foldl (fun st k => st.settleHome (pa / 128 + k)) s1

/-- A row written, the sectors that `keep` names, with the class and the symbols in error of each (18 R344, 24 R421): whole granules, the ones
of which a sector stays read first; the cache sectors of the row go (18 R336). -/
def State.writeRow (s : State) (lpa : Nat) (keep : Nat → Bool) (val cls syms : Nat → Nat) : State :=
  let s1 := ((rowGranules lpa).foldl State.reviveGranule s).dropRow lpa
  let gran (st : State) (k : Nat) : State :=
    let g := lpa / 128 + k
    let ks := (List.range 4).map fun i => 4 * k + i
    let st1 := (if ks.all keep then st else st.checkGranule g).recode g
    ks.foldl (fun u i =>
      if keep i then
        let u1 := u.sectorWrite (lpa + 32 * i) (val i) (cls i)
        u1.setMem { u1.mem with syms := Tbl.setD u1.mem.syms (lpa / 32 + i) (syms i) 0 }
      else u) st1
  (((List.range 8).foldl gran s1).dramRelease lpa true 4).unrelease 0 (domAddr s.fabric.self lpa) 1024

/-- The sectors of a `pim` row (19 R355): each BF16 element formed exactly and rounded to nearest even. -/
def pimSector (op : PimOp) (x a b : Nat) : Nat :=
  let f := fmtOf .bf16
  let r : RM := ⟨.rn, false⟩
  leValue ((List.range 16).flatMap fun e =>
    let u := f.decode (bitsOf a (16 * e) 16)
    let v := f.decode (bitsOf b (16 * e) 16)
    let k := f.decode (bitsOf x 0 16)
    leBytes 2 (match op with
      | .add => (f.add r u v).1
      | .fma => (f.fma r u k v).1
      | .scale => (f.mul r u k).1))

/-- Two rows lie in one bank, and one subarray of 1024 rows where `sub` (19 R351; 18). -/
def State.sameBank (s : State) (sub : Bool) (x y : Nat) : Bool :=
  let p := s.memsys.place x
  let q := s.memsys.place y
  p.linear && q.linear && s.mem.keyId x == 0 && s.mem.keyId y == 0 && p.chan == q.chan && p.bg == q.bg && p.bank == q.bank &&
    (!sub || p.row / 1024 == q.row / 1024)

/-- The source rows and the destination row of step `k` of a command (19 R353). -/
def CmdOp.nearOperands (k : Nat) : CmdOp → Option (List Nat × Nat)
  | .pim op dst a b _ _ => some ((if op = .scale then [a] else [a, b]).map (· + 1024 * k), dst + 1024 * k)
  | .rowcp dst a _ => some ([a + 1024 * k], dst + 1024 * k)
  | .rowz dst _ => some ([], dst + 1024 * k)
  | _ => none

/-- A channel of a row is in its retraining window (18 R346). -/
def State.rowWaits (s : State) (lpa : Nat) : Bool := (List.range 4).any fun k => s.inWindow (lpa + 256 * k)

/-- The rows of a step once their pages are known (19 R355 to R358): windows, the firewall (24 R425), the sources, the destination. `rows` are
the virtual and the local addresses of the sources and, last, of the destination. -/
def State.nearWork (s : State) (op : CmdOp) (srcs : List (Nat × Nat)) (ld : Nat) (all : List (Nat × Nat)) (keep : Nat → Bool) : Chk Unit :=
  if all.any fun r => s.rowWaits r.2 then .wait s
  else match all.find? fun r => s.fabric.en && s.fwShared (r.2 / 0x200000) with
  | some r => .fault s ⟨0x33, 255, 0, r.1, 0⟩
  | none =>
    let s1 := srcs.foldl (fun st r => st.dramRelease r.2 false 4) s
    let la := (srcs.head?.map fun r => r.2).getD 0
    let lb := ((srcs.drop 1).head?.map fun r => r.2).getD la
    let inBank : Bool := match op with
      | .rowcp .. => s1.sameBank true la ld
      | _ => false
    if inBank then
      match srcs.find? fun r => s1.lostRow r.2 with
      | some r => .fault s1 ⟨0x30, 255, 0, r.1, 0⟩
      | none => .ok (s1.writeRow ld keep (fun i => s1.mem.rd (la + 32 * i) 32) (fun i => s1.mem.poisonOf (la / 32 + i))
          fun i => s1.mem.symsOf (la / 32 + i)) ()
    else
      match s1.decodeRows srcs with
      | .wait s2 => .wait s2
      | .fault s2 f => .fault s2 f
      | .ok s2 _ =>
        let val (i : Nat) : Nat := match op with
          | .pim o _ _ _ _ x => pimSector o x.toNat (s2.mem.rd (la + 32 * i) 32) (s2.mem.rd (lb + 32 * i) 32)
          | .rowcp .. => s2.mem.rd (la + 32 * i) 32
          | _ => 0
        .ok (s2.writeRow ld keep val (fun _ => 0) fun _ => 0) ()

/-- Row `k` of a command: every page first (check 6 of 19 R354), then the work (check 7). -/
def State.nearRow (s : State) (c : Cmd) (k : Nat) (keep : Nat → Bool) : Chk Unit :=
  match c.op.nearOperands k with
  | none => .ok s ()
  | some (srcs, dst) =>
    match s.nearPages c (srcs.map (fun a => (false, a)) ++ [(true, dst)]) with
    | .wait s1 => .wait s1
    | .fault s1 f => .fault s1 f
    | .ok s1 las =>
      let all := (srcs ++ [dst]).zip las
      s1.nearWork c.op (all.take srcs.length) (las.getLastD 0) all keep

/-- The rows of a near-memory command; none of another command. -/
def CmdOp.nearRows : CmdOp → Option Nat
  | .pim _ _ _ _ rows _ => some rows
  | .rowcp _ _ rows => some rows
  | .rowz _ rows => some rows
  | _ => none

/-- The destination differs from every source, so later rows may be written before an earlier one (19 R358). -/
def CmdOp.apart : CmdOp → Bool
  | .pim op dst a b _ _ => dst != a && (op == .scale || dst != b)
  | _ => true

/-- `NEAR_MEMORY_ROW_COMPLETE` (19 R358): the next row of a dispatched command is written and its progress advances. -/
def execNearMemoryRowComplete (cmd : Nat) (s : State) : Host.Outcome State Fault Refusal :=
  event s <| do
    let c ← s.cmd? cmd
    let rows ← c.op.nearRows
    if c.disp && !c.suspended && !c.done && c.progress < rows then
      match s.nearRow c c.progress fun _ => true with
      | .ok s1 _ => some (s1.setCmd { c with progress := c.progress + 1 })
      | .wait s1 => some s1
      | .fault _ _ => none
    else none

/-- Rows above a faulting one, of the 16 in flight at once: which sectors of them are written is free (19 R358). -/
def State.rowsAbove (s : State) (c : Cmd) (rows : Nat) : Nat → Nat → State
  | _, 0 => s
  | k, n + 1 =>
    if rows ≤ k then s
    else
      let f := s.free
      let s0 := { s with free := s.free + 32 }
      let s1 := match s0.nearRow c k fun i => Config.freeBool (f + i) with
        | .ok t _ => t
        | .wait t => t
        | .fault t _ => t
      s1.rowsAbove c rows (k + 1) n

end Sys2Proof.Machine
end

