-- ==== Sys2Proof/Machine/EngineSteps.lean ====
section
/-! DEFINITION. The steps of engine commands: dispatch (16 R308, R313; 15 R276, R455), completion (16 R306, R312) and suspension by a
fault (14 R251). -/

namespace Sys2Proof.Machine

/-- The resumable commands (14 R250). -/
def CmdOp.resumable : CmdOp → Bool
  | .bload .. | .mma .. | .cpy .. | .gath .. | .scat .. | .fill .. | .pim .. | .rowcp .. | .rowz .. => true
  | _ => false

/-- A command that can move. -/
def State.moving (s : State) (c : Cmd) : Bool := c.disp && !c.suspended && !c.done && s.ctxMoves c.queue

/-- The checks of a bench command that waited for an earlier `srsv` or `srel` (15 R455): its resources and the bed format, then the row of raw
elements in checks 2 and 4. -/
def State.lateCheck (s : State) (c : Cmd) : Option FaultInfo :=
  let r := s.resvOf c
  let row := rawRow ((r.map fun r => r.wide).getD false)
  match c.path, c.op with
  | .mx, .srsv .. => none
  | .mx, op =>
    (resvFault r c (bedFormat r ((s.mxOf c.core c.slot).filter fun x => x.id < c.id))).or
      (match op with
        | .srd sp _ addr pitch => if pitch < row then some (operandFault 0x02 0) else outsideFault [rowsRange sp true c.rows addr pitch row]
        | .swr sp _ addr pitch => outsideFault [rowsRange sp false c.rows addr pitch row]
        | _ => none)
  | _, _ => none

/-- The slate port serves the commands that name no bed in order of entry (15 R277): none that is ready stands before the command. -/
def State.portTurn (s : State) (c : Cmd) : Bool := !c.copies.isEmpty || (s.entriesBefore c).all fun x => !x.copies.isEmpty || !s.moving x

/-- The waits of a command's own engine before its dispatch. -/
def State.engineReady (s : State) (c : Cmd) : Bool :=
  match c.path, c.op with
  | .mx, _ => s.benchReady c
  | _, .cstart .. => c.progress == 1
  | _, _ => true

/-- `COMMAND_DISPATCH` (16 R308): the input tokens are ready, and the waits of locks and engine are over. -/
def execCommandDispatch (cmd : Nat) (s : State) : Host.Outcome State Fault Refusal :=
  event s <| do
    let c ← s.cmd? cmd
    if c.disp || c.done || c.suspended || !s.ctxMoves c.queue || s.waitsToken c || !s.lockOrder c || !s.engineReady c then none
    else match s.lateCheck c with
      | some f => some (s.failCmd c f)
      | none =>
        match c.op with
        | .cstart .. =>
          match s.startStreams c with
          | .ok s1 _ => some (s1.markDispatched c)
          | .wait s1 => some s1
          | .bad s1 _ _ _ => some s1
        | .bload .. | .mma .. => some ((s.markDispatched c).setResv c ((s.resvOf c).map fun r => r.takeFormat c))
        | _ => some (s.markDispatched c)

/-- A command that has run to its end, waits on, or meets a fault that ends it; a resumable one is left to be suspended. -/
def State.afterRun (s : State) (c : Cmd) (r : State × Ran) : Option State :=
  let now (t : State) : Cmd := (t.cmd? c.id).getD c
  match r.2 with
  | .finished => some (r.1.finishCmd (now r.1))
  | .waiting => some r.1
  | .faulted f => if c.op.resumable then none else some (s.failCmd c f)

/-- `ENGINE_COMMAND_COMPLETE` (16 R306, R312): a dispatched command is carried to its end, its ranges are released and its token counts it. -/
def execEngineCommandComplete (cmd : Nat) (s : State) : Host.Outcome State Fault Refusal :=
  event s <| do
    let c ← s.cmd? cmd
    if !s.moving c then none
    else match c.path, c.op with
      | .cp, _ =>
        let r := s.runCopy c
        s.afterRun c (r.1.setCmd { c with progress := r.2.1 }, r.2.2)
      | .mx, _ => if s.portTurn c then s.afterRun c (s.runBench c) else none
      | .nm, op => if (op.nearRows.map fun n => decide (n ≤ c.progress)).getD false then some (s.finishCmd c) else none
      | _, .cgrp dst st =>
        let w := [RegWrite.sca dst st]
        some ((s.finishCmd c).updGroup c.core c.slot fun g =>
          let g1 := w.foldl Group.applyWrite g
          if g.shadow.isSome then { g1 with loadQueue := g1.loadQueue ++ [(.cl, w)] } else g1)
      | _, .cstart .. => if s.cstartDone c then some (s.finishCmd c) else none
      | _, .red op ty sc addr pa x =>
        match (s.runRed c op ty sc pa x).lane 255 addr with
        | .ok s1 _ => s1.afterRun c (s1, .finished)
        | .wait s1 => some s1
        | .fault s1 f => s1.afterRun c (s1, .faulted f)
      | _, _ => none

/-- `ENGINE_FAULT_SUSPEND` (14 R251): the next part of a resumable command meets a fault; it suspends with its progress (15 R290, 16 R321,
19 R358). -/
def execEngineFaultSuspend (cmd : Nat) (s : State) : Host.Outcome State Fault Refusal :=
  event s <| do
    let c ← s.cmd? cmd
    if !s.moving c || !c.op.resumable then none
    else match c.path with
      | .cp =>
        let r := s.runCopy c
        match r.2.2 with
        | .faulted f => some (r.1.fresh.suspendCmd c (copyProgress c r.2.1 r.1.free) f)
        | _ => none
      | .mx =>
        let r := if c.granted.isEmpty then
            let x := s.fetchA c (Nat.min 1 c.wantsA)
            (x.1, x.2.2)
          else s.runStep c
        match r.2 with
        | .faulted f =>
          let c1 := (r.1.cmd? c.id).getD c
          some (r.1.suspendCmd { c1 with granted := [], buf := [] } c1.progress f)
        | _ => none
      | .nm => do
        let rows ← c.op.nearRows
        if rows ≤ c.progress then none
        else match s.nearRow c c.progress fun _ => true with
          | .fault s1 f => some ((if c.op.apart then s1.rowsAbove c rows (c.progress + 1) 15 else s1).suspendCmd c c.progress f)
          | _ => none
      | _ => none

end Sys2Proof.Machine
end

