-- ==== Sys2Proof/Machine/Graph.lean ====
section
/-! DEFINITION. Kernel descriptors (04 R72, R73), graph nodes, `emit` and node launches (21 R375 to R377), and the event word (21 R380). -/

namespace Sys2Proof.Machine

/-! ### Work of a context (21 R371) -/

/-- A context has an entry or a record pending, a cluster that waits for placement, or a group. -/
def State.hasWork (s : State) (q : Nat) : Bool :=
  let c := s.ctx q
  c.ridx != c.widx || c.image.isSome || c.grids.any (fun d => !d.ended) || (Tbl.vals c.nodes).any (fun n => !n.pending.isEmpty) ||
    (Tbl.vals s.groups).any fun g => g.ids.queue == q

/-- An idle context with something pending becomes READY. -/
def State.wakeCtx (s : State) (q : Nat) : State :=
  let c := s.ctx q
  if c.st == .idle && s.hasWork q then s.setCtx q { c with st := .ready, readyAt := s.time } else s

/-! ### Kernel descriptors -/

/-- A kernel descriptor (04 R73). -/
structure Kernel where
  entryOff : Nat
  lanes : Nat
  groups : Nat
  rows : Nat
  cols : Nat
  vregs : Nat
  lease : Nat
  measured : Bool
  setts : Nat
deriving DecidableEq, Repr

/-- The cluster shapes of 04 R72. -/
def shapeOk (r c : Nat) : Bool :=
  1 ≤ r && 1 ≤ c && ((r == 1 && c ≤ 12) || (c == 1 && r ≤ 12) || (r == 2 && c ≤ 6) || (c == 2 && r ≤ 6) || (r == 3 && c == 4) || (r == 4 && c == 3))

/-- A descriptor's fields, when none breaks a limit of 04 R72 and R73. An entry clause at an address that is no multiple of 8 is taken as it stands: the spec
says nothing of it (log entry 104). -/
def kernelOf (d : List Byte) : Option Kernel :=
  let b (i n : Nat) : Nat := leValue ((d.drop i).take n)
  let k : Kernel :=
    { entryOff := b 0 8, lanes := b 8 1, groups := b 9 1, rows := b 10 1, cols := b 11 1, vregs := b 12 2, lease := bitsOf (b 14 2) 0 14,
      measured := bitOf (b 14 2) 15, setts := b 16 2 }
  if 1 ≤ k.lanes ∧ k.lanes ≤ 32 ∧ 1 ≤ k.groups ∧ k.groups ≤ 16 ∧ shapeOk k.rows k.cols ∧ k.vregs % 16 = 0 ∧ 16 ≤ k.vregs ∧ k.vregs ≤ 256 ∧
      !bitOf (b 14 2) 14 ∧ k.setts ≤ 2048 ∧ b 18 6 = 0 then some k
  else none

/-- A kernel within its context's allowances (21 R366). -/
def Kernel.allowed (k : Kernel) (d : QDesc) : Bool := k.vregs ≤ 16 * d.vmax && k.setts ≤ d.smax

/-! ### Nodes (21 R375) -/

/-- A node descriptor with its kernel. -/
structure Node where
  kernel : Kernel
  code : Nat
  logn : Nat
  ring : Nat
  rsize : Nat
  tmr : Nat
  chk : Bool
  args : List Word32
deriving DecidableEq, Repr

/-- The words of an argument area. -/
def argWords (d : List Byte) (off : Nat) : List Word32 := (List.range 8).map fun i => BitVec.ofNat 32 (leValue ((d.drop (off + 4 * i)).take 4))

/-- A core through which the scheduler reaches a context's memory: that of a group of it, if it has one. -/
def State.schedCore (s : State) (q : Nat) : Nat :=
  match List.find? (fun p : Nat × Group => p.2.ids.queue == q) s.groups with
  | some p => p.1 / 64
  | none => 0

/-- A valid node, read from the context's graph; none where the node table or the kernel cannot be read or breaks a limit. -/
def State.nodeOf (s : State) (q m : Nat) : Try (Option Node) :=
  let d := (s.ctx q).desc
  let core := s.schedCore q
  if d.graph = 0 ∨ d.nnodes < m then .ok s none
  else match s.vread core q (d.graph + 64 * m) 4 64 with
    | .wait s1 => .wait s1
    | .bad s1 _ _ _ => .ok s1 none
    | .ok s1 b =>
      let w1 := wordAt b 16
      let w2 := wordAt b 24
      match s1.vread core q (bitsOf (wordAt b 0) 5 52 * 32) 3 32 with
      | .wait s2 => .wait s2
      | .bad s2 _ _ _ => .ok s2 none
      | .ok s2 kb =>
        match kernelOf kb with
        | none => .ok s2 none
        | some k =>
          if bitOf w2 20 && 5 ≤ bitsOf w1 0 5 && bitsOf w1 0 5 ≤ 16 && k.groups == 1 && k.rows == 1 && k.cols == 1 && k.allowed d then
            .ok s2 (some { kernel := k, code := bitsOf (wordAt b 8) 3 54 * 8, logn := bitsOf w1 0 5, ring := bitsOf w1 6 51 * 64,
                           rsize := 16 * (bitsOf w2 0 4 + 1), tmr := bitsOf w2 4 16, chk := bitOf w2 21, args := argWords b 32 })
          else .ok s2 none

def State.nodeSt (s : State) (q m : Nat) : NodeSt := Tbl.getD (s.ctx q).nodes m .start
def State.setNode (s : State) (q m : Nat) (x : NodeSt) : State :=
  let c := s.ctx q
  s.setCtx q { c with nodes := Tbl.put c.nodes m x }

/-- The ring slot of a sequence number is free: no record that is pending or held by a group lies in it. -/
def NodeSt.slotFree (x : NodeSt) (logn n : Nat) : Bool :=
  (x.pending.map fun p => p.1).all (fun k => k % 2 ^ logn != n % 2 ^ logn) && x.used.all fun k => k % 2 ^ logn != n % 2 ^ logn

/-- The argument registers of a node launch (21 R370). -/
def Node.regs (x : Node) : List Word32 :=
  [BitVec.ofNat 32 x.ring, BitVec.ofNat 32 (x.ring / 2 ^ 32), BitVec.ofNat 32 x.rsize, BitVec.ofNat 32 (2 ^ x.logn - 1)] ++ x.args

/-- A group of a node's oldest `n` records launches: a grid of its own, to be placed (21 R375). -/
def State.launchNode (s : State) (q m : Nat) (x : Node) (n : Nat) : State :=
  let st := s.nodeSt q m
  let recs := st.pending.take n
  let seqs := recs.map fun p => p.1
  let s1 := s.setNode q m { st with pending := st.pending.drop n, used := st.used ++ seqs }
  let c := s1.ctx q
  let g : Grid :=
    { gridid := s1.sched.nextGrid, ridx := 0, chk := x.chk, mon := false, after := false, clusters := 1, entryPos := x.code + x.kernel.entryOff,
      done := 0, args := x.regs, lanes := recs.length, groups := 1, rows := 1, cols := 1, vregs := x.kernel.vregs, lease := x.kernel.lease,
      measured := x.kernel.measured, setts := x.kernel.setts, placed := 0, live := 1, ended := false, arr := 0, gen := 0,
      node := some (m, seqs), before := recs.flatMap fun p => p.2.2 }
  { s1.setCtx q { c with grids := c.grids ++ [g] } with sched := { s1.sched with nextGrid := (s1.sched.nextGrid + 1) % 2 ^ 32 } }

/-- `NODE_LAUNCH` (21 R375): groups launch while a full group of records is pending. -/
def State.launchFull (s : State) (q m : Nat) (x : Node) : Nat → State
  | 0 => s
  | n + 1 => if x.kernel.lanes ≤ (s.nodeSt q m).pending.length then (s.launchNode q m x x.kernel.lanes).launchFull q m x n else s

/-- A record counted as pending, and the launches that follows from it. -/
def State.addRecord (s : State) (q m : Nat) (before : List (Nat × Nat)) : State :=
  let st := s.nodeSt q m
  s.setNode q m { st with seq := st.seq + 1, pending := st.pending ++ [(st.seq, s.time, before)] }

/-- Records that a group's own write made, sequence by sequence; they fill a group. -/
def State.addRecords (s : State) (q m : Nat) (x : Node) (n : Nat) (before : List (Nat × Nat)) : State :=
  let s1 := (List.range n).foldl (fun st _ => st.addRecord q m before) s
  if (s1.ctx q).removing.isSome then s1 else s1.launchFull q m x (n + 1)

/-! ### `emit` (21 R376, R377) -/

/-- A piece of a record as an access of its lane, for the range locks (16 R314). -/
def recordAccess (lane va n : Nat) : Access :=
  { space := .cached, lane := lane, va := va, pa := 0, size := n, op := .store 0, tag := 0, section_ := false, locked := false, whole := false,
    policy := .dflt }

/-- The checks of a record's pieces with the group's own privilege (12 R210): space, translation, protection, range locks. -/
def State.checkRecord (s : State) (g : Group) (lane va : Nat) : Nat → Nat → Chk Unit
  | 0, _ => .ok s ()
  | fuel + 1, n =>
    if n = 0 then .ok s ()
    else if vaEnd ≤ va then .fault s ⟨0x11, lane, 0, va, 0⟩
    else
      let k := Nat.min n (32 - va % 32)
      match (s.translate s.cur.core g.ids.queue g.mon ⟨false, true, false, some .cached⟩ va).lane lane va with
      | .wait s1 => .wait s1
      | .fault s1 f => .fault s1 f
      | .ok s1 _ =>
        if s1.lockMet g (recordAccess lane va k) then .fault s1 ⟨0x21, lane, 0, va, 0⟩
        else s1.checkRecord g lane (va + k) fuel (n - k)

/-- Bytes written at issue with the group's own privilege, as cached stores: a fault names the lane and the piece it meets. -/
def State.userWrite (s : State) (core q : Nat) (mon : Bool) (lane va : Nat) : Nat → List Byte → Chk Unit
  | 0, _ => .ok s ()
  | fuel + 1, d =>
    if d.isEmpty then .ok s ()
    else
      let k := Nat.min d.length (32 - va % 32)
      match ((s.translate core q mon ⟨false, true, false, some .cached⟩ va).bind fun s1 p =>
          s1.cachedWrite (some q) (some core) p.1 k (leValue (d.take k))).lane lane va with
      | .wait s1 => .wait s1
      | .fault s1 f => .fault s1 f
      | .ok s1 _ => s1.userWrite core q mon lane (va + k) fuel (d.drop k)

/-- The place of the record with a sequence number. -/
def Node.recordAt (x : Node) (n : Nat) : Nat := x.ring + x.rsize * (n % 2 ^ x.logn)

/-- The checks of every lane's record, before any is written (12 R210). -/
def State.checkRecords (s : State) (g : Group) (x : Node) (seq : Nat) : List (Nat × Nat) → Chk Unit
  | [] => .ok s ()
  | (l, i) :: rest =>
    match s.checkRecord g l (x.recordAt (seq + i)) (x.rsize + 1) x.rsize with
    | .ok s1 _ => s1.checkRecords g x seq rest
    | .wait s1 => .wait s1
    | .fault s1 f => .fault s1 f

/-- The records of the active lanes written in ascending LANEID. -/
def State.writeRecords (s : State) (g : Group) (x : Node) (b seq : Nat) : List (Nat × Nat) → Chk Unit
  | [] => .ok s ()
  | (l, i) :: rest =>
    let data := leBytes x.rsize (g.rdVs l b (x.rsize / 4))
    match s.userWrite s.cur.core g.ids.queue g.mon l (x.recordAt (seq + i)) (x.rsize + 1) data with
    | .ok s1 _ => s1.writeRecords g x b seq rest
    | .wait s1 => .wait s1
    | .fault s1 f => .fault s1 f

/-- The records of an `emit`: all of them checked, then written. -/
def State.emitRecords (s : State) (g : Group) (x : Node) (b seq : Nat) (ls : List (Nat × Nat)) : Chk Unit :=
  match s.checkRecords g x seq ls with
  | .ok s1 _ => s1.writeRecords g x b seq ls
  | .wait s1 => .wait s1
  | .fault s1 f => .fault s1 f

/-- An operation that counts on a path until its completion and has no access left to perform. -/
def State.countOp (s : State) (g : Group) (e : Entry) (path : Path) (writes : List RegWrite) : Group :=
  { g with inflight := g.inflight ++
    [{ path := path, flag := s.cur.flag, todo := [], writes := writes, pos := e.pos, after := e.pos.next s.cur.len, born := s.nextId,
       entry := s.cur.entry, mask := e.mask, isLoad := false, posted := path = .gs, maint := false, fault := none, checked := true,
       bound := none, awaits := none, fromLeader := false }] }

/-- `emit` (21 R376, R377): the node and register checks, the wait for the group's earlier accesses and for free records, then the records of the
active lanes. Without an active lane the checks are all of it (02 R20). -/
def execEmit (gd : Guard) (a b : Reg) (s : State) : Host.Outcome State Fault Refusal :=
  lanewise (.emit gd a b) gd s fun g e ls =>
    let m := (g.rdS a.toNat).toNat
    let q := g.ids.queue
    match s.nodeOf q m with
    | .wait s1 => .stall s1 10 0
    | .bad _ c _ _ => .fault (operandFault c m)
    | .ok _ none => .fault (operandFault 0x11 m)
    | .ok s1 (some x) =>
      let st := s1.nodeSt q m
      if g.regs.nvr < b.toNat + x.rsize / 4 then .fault (.word 0x01)
      else if ls.isEmpty then .done s1
      else if g.inflight.any fun o => !o.todo.isEmpty && !o.fromLeader then .stall s1 10 0
      else if 255 ≤ g.ctr .gs then .stall s1 10 (1 + 256 * Path.gs.code.toNat)
      else if 2 ^ x.logn < ls.length ∨ !(List.range ls.length).all fun i => st.slotFree x.logn (st.seq + i) then .stall s1 10 (5 + 256 * m)
      else match s1.emitRecords g x b.toNat st.seq ls.zipIdx with
        | .wait s2 => .stall s2 10 0
        | .fault s2 f => .control ((s2.setNode q m { st with seq := st.seq + ls.length }).takeFault s.cur.core s.cur.slot s.cur.entry e.pos f)
        | .ok s2 _ =>
          let s3 := s2.addRecords q m x ls.length [(g.ids.uid, s2.track.now)]
          let s4 := s3.setTrack { s3.track with now := s3.track.now + 1 }
          .done ({ s4 with nextId := s4.nextId + 1 }.setCurGroup (s4.countOp g e .gs []))

/-- `NODE_COALESCING_TIMER` (21 R375): the oldest pending record has waited TMR. -/
def execNodeCoalescingTimer (queue node : Nat) (s : State) : Host.Outcome State Fault Refusal :=
  event s <| do
    let p ← (s.nodeSt queue node).pending.head?
    match s.nodeOf queue node with
    | .ok s1 (some x) =>
      if p.2.1 + 1000 * x.tmr ≤ s.time ∧ (s.ctx queue).removing.isNone then
        some (s1.launchNode queue node x (Nat.min (s1.nodeSt queue node).pending.length x.kernel.lanes))
      else none
    | _ => none

/-! ### Stores of the scheduler (21 R369, R378, R380) -/

/-- The stores that wait performed in order, as far as they can be; one whose address does not admit it is dropped, as nothing is reported of it
(log entry 50). -/
def State.performPosts (s : State) (q : Nat) : List (Nat × List Byte) → State
  | [] => s.setCtx q { s.ctx q with posts := [] }
  | p :: rest =>
    match s.vwrite (s.schedCore q) q p.1 (p.2.length + 1) p.2 with
    | .wait s1 => s1.setCtx q { s1.ctx q with posts := p :: rest }
    | .ok s1 _ | .bad s1 _ _ _ => s1.performPosts q rest

/-- A store of the scheduler into a context's memory, behind those that wait. -/
def State.post (s : State) (q va : Nat) (d : List Byte) : State := s.performPosts q ((s.ctx q).posts ++ [(va, d)])

/-- The stores of every context that wait are tried again. -/
def State.retryPosts (s : State) : State :=
  (s.ctxs.filter fun p : Nat × Ctx => !p.2.posts.isEmpty).foldl (fun t p => t.performPosts p.1 (t.ctx p.1).posts) s

/-- The event word written at EVT, as one 64-bit store (21 R380). -/
def State.eventWord (s : State) (q ev : Nat) (saved : Bool) (arg : Nat) : State :=
  s.post q (s.ctx q).desc.evt (leBytes 8 (ev + (if saved then 256 else 0) + bitsOf arg 0 32 * 2 ^ 32))

end Sys2Proof.Machine
end

