-- ==== Sys2Proof/Machine/Grace.lean ====
section
/-! DEFINITION. Read sections, grace periods and deferred freeing (22 R386 to R395). -/

namespace Sys2Proof.Machine

/-! ### Domains (22 R388) -/

/-- The name of a context's grace domain: its GDOM, or, for GDOM 0, a name of its own. -/
def State.domOf (s : State) (q : Nat) : Nat := if (s.ctx q).regs.gdom ≠ 0 then (s.ctx q).regs.gdom else 2 ^ 16 + q

def State.graceOf (s : State) (d : Nat) : Grace := Tbl.getD s.grace d .reset
def State.setGrace (s : State) (d : Nat) (x : Grace) : State := { s with grace := Tbl.setD s.grace d x .reset }

/-- The contexts of a domain on the package. -/
def State.members (s : State) (d : Nat) : List Nat := (Tbl.keys s.ctxs).filter fun q => s.domOf q == d

/-- The groups of a domain that are in a read section under a tag, over every member context. -/
def State.readers (s : State) (d : Nat) (tag : Bool) : Nat :=
  ((s.members d).map fun q => if tag then (s.ctx q).rc1 else (s.ctx q).rc0).sum

/-! ### Requests (22 R389, R390) -/

/-- The local count that a local period begun from now on reaches at its end. -/
def Grace.next (x : Grace) : Nat := x.gcp + (if x.busy then 2 else 1)

/-- The other packages of a scope that can answer: those of live cells (22 R390). -/
def State.scopePackages (s : State) (sc : Scope) : List Nat :=
  if !s.fabric.en then []
  else ((s.fabric.dom.filter fun p : Nat × DomEnt => p.1 != s.fabric.self && p.2.valid && !p.2.dead && (sc == .dom || p.2.cell == s.ownCell)).map
    fun p => p.1)

/-- A wider period begins: its requests go out and a local period is requested (22 R390). -/
def State.beginWide (s : State) (d : Nat) (sc : Scope) : State :=
  let x := s.graceOf d
  let run := some (s.scopePackages sc, x.next)
  (s.setGrace d (if sc = .dom then { x with request := true, dom := run, domReq := false } else { x with request := true, cell := run, cellReq := false })).emit
    (.graceRequest d sc)

/-- A grace period of a scope requested (22 R389, R390): the requests that are present when a period of the scope begins are served together, and one
that runs serves none that comes later. -/
def State.requestGrace (s : State) (d : Nat) (sc : Scope) : State :=
  let x := s.graceOf d
  s.setGrace d (match sc with
    | .dom => { x with domReq := true }
    | .cell => { x with cellReq := true }
    | _ => { x with request := true })

/-- The origin takes its waiting requests of the wider scopes of which no period runs: those periods begin (22 R390). -/
def State.takeWide (s : State) (d : Nat) : State :=
  let s1 := if (s.graceOf d).cellReq && (s.graceOf d).cell.isNone then s.beginWide d .cell else s
  if (s1.graceOf d).domReq && (s1.graceOf d).dom.isNone then s1.beginWide d .dom else s1

/-- The periods of a scope that have ended (22 R396). -/
def Grace.count (x : Grace) : Scope → Nat
  | .dom => x.gcd
  | .cell => x.gcc
  | _ => x.gcp

/-- The count that a period of a scope requested now reaches at its end. -/
def Grace.target (x : Grace) : Scope → Nat
  | .dom => x.gcd + (if x.dom.isSome then 2 else 1)
  | .cell => x.gcc + (if x.cell.isSome then 2 else 1)
  | _ => x.next

/-- A wider period has its reports and its local period. -/
def Grace.wideOver (x : Grace) : Option (List Nat × Nat) → Bool
  | some (ps, t) => ps.isEmpty && t ≤ x.gcp
  | none => false

/-- Wider periods that have all they wait for end; one that was requested meanwhile begins at the next `LOCAL_GRACE_BEGIN`. -/
def State.settleWide (s : State) (d : Nat) : State :=
  let x := s.graceOf d
  let y := if x.wideOver x.cell then { x with gcc := x.gcc + 1, cell := none } else x
  s.setGrace d (if y.wideOver y.dom then { y with gcd := y.gcd + 1, dom := none } else y)

/-- `LOCAL_GRACE_BEGIN` (22 R389, R390, R398): the waiting requests of the wider scopes are taken, and a local period that is requested begins if none
runs. -/
def execLocalGraceBegin (dom : Nat) (s : State) : Host.Outcome State Fault Refusal :=
  let s1 := s.takeWide dom
  let x := s1.graceOf dom
  event s (some (if x.request && !x.busy then s1.setGrace dom { x with request := false, busy := true, old := x.ph, ph := !x.ph } else s1))

/-- `LOCAL_GRACE_END` (22 R389, R390): requests of other packages that it serves are reported. -/
def execLocalGraceEnd (dom : Nat) (s : State) : Host.Outcome State Fault Refusal :=
  let x := s.graceOf dom
  event s <|
    if !x.busy || s.readers dom x.old != 0 then none
    else
      let n := x.gcp + 1
      let served := x.remote.filter fun r => r.2.2 ≤ n
      let s1 := s.setGrace dom { x with busy := false, gcp := n, remote := x.remote.filter fun r => n < r.2.2 }
      some ({ s1 with out := s1.out ++ served.map fun r : Nat × Scope × Nat => Msg.graceReport dom r.1 r.2.1 }.settleWide dom)

/-- `GRACE_REQUEST_MESSAGE` (22 R390): a package with no member context reports at once. -/
def execGraceRequestMessage (dom pkg : Nat) (scope : Scope) (s : State) : Host.Outcome State Fault Refusal :=
  event s <|
    if 2 ^ 16 ≤ dom || (s.members dom).isEmpty then some (s.emit (.graceReport dom pkg scope))
    else
      let x := s.graceOf dom
      some (s.setGrace dom { x with request := true, remote := x.remote ++ [(pkg, scope, x.next)] })

/-- A package no longer waited for. -/
def dropPackages (f : Nat → Bool) : Option (List Nat × Nat) → Option (List Nat × Nat)
  | some (ps, t) => some (ps.filter fun p => !f p, t)
  | none => none

/-- `GRACE_REPORT` (22 R390). -/
def execGraceReport (dom pkg : Nat) (scope : Scope) (s : State) : Host.Outcome State Fault Refusal :=
  let x := s.graceOf dom
  event s (some ((s.setGrace dom (match scope with
    | .dom => { x with dom := dropPackages (· == pkg) x.dom }
    | .cell => { x with cell := dropPackages (· == pkg) x.cell }
    | _ => x)).settleWide dom))

/-- Recovery starts for a dead cell: its packages are neither waited for nor reported to (22 R390, R395). -/
def State.graceDeath (s : State) (cell : Nat) : State :=
  let gone (p : Nat) : Bool := s.cellOf p == cell
  (Tbl.keys s.grace).foldl (fun st d =>
    let x := st.graceOf d
    (st.setGrace d { x with cell := dropPackages gone x.cell, dom := dropPackages gone x.dom,
                            remote := x.remote.filter fun r => !gone r.1 }).settleWide d) s

/-! ### Read sections (22 R386, R387) -/

/-- A boundary of scope .dom at a word that is followed by a region entry (22 R387). -/
def State.sectionEdge (s : State) (g : Group) (e : Entry) : Res :=
  .done ((s.boundary g.ids.uid 5).setCurGroup (g.takeRegion (e.pos.next s.cur.len)))

/-- `rdenter` (22 R387): the first section of a group takes its domain's phase as its tag and is counted. -/
def execRdenter (gd : Guard) (s : State) : Host.Outcome State Fault Refusal :=
  uniform (.rdenter gd) gd s fun g e =>
    if !g.single ∨ g.rdepth = 15 then .fault (.word 0x01)
    else if g.rdepth ≠ 0 then s.sectionEdge { g with rdepth := g.rdepth + 1 } e
    else
      let c := s.ctx g.ids.queue
      let tag := (s.graceOf (s.domOf g.ids.queue)).ph
      (s.setCtx g.ids.queue (if tag then { c with rc1 := c.rc1 + 1 } else { c with rc0 := c.rc0 + 1 })).sectionEdge
        { g with rdepth := 1, rtag := tag } e

/-- `rdexit` (22 R387): it waits for every earlier access. -/
def execRdexit (gd : Guard) (s : State) : Host.Outcome State Fault Refusal :=
  uniform (.rdexit gd) gd s fun g e =>
    if !g.single ∨ g.rdepth = 0 then .fault (.word 0x01)
    else if !g.inflight.isEmpty then .stall s 10 0
    else (if g.rdepth = 1 then s.uncount g.ids g.rtag else s).sectionEdge { g with rdepth := g.rdepth - 1 } e

/-! ### `gwait` (22 R391) -/

/-- A group blocks for a grace period requested now. -/
def State.blockGrace (s : State) (core slot : Nat) (g : Group) (sc : Scope) : State :=
  let d := s.domOf g.ids.queue
  (s.setGroup core slot { g with block := .gwait sc ((s.graceOf d).target sc) }).requestGrace d sc

/-- `gwait` (22 R391). -/
def execGwait (gd : Guard) (scope : Scope) (s : State) : Host.Outcome State Fault Refusal :=
  uniform (.gwait gd scope) gd s fun g _ =>
    if g.rdepth ≠ 0 then .fault (.word 0x01)
    else if !g.inflight.isEmpty then .stall s 10 0
    else .done (s.blockGrace s.cur.core s.cur.slot g scope)

/-- A group blocked in `gwait` goes on when its period has ended, at a boundary of its scope. -/
def State.passGwait (s : State) (core slot : Nat) (g : Group) (sc : Scope) (target : Nat) : Option State :=
  if target ≤ (s.graceOf (s.domOf g.ids.queue)).count sc then
    some ((s.setGroup core slot { g with block := .none }).boundary g.ids.uid (scopeLevel sc))
  else none

/-! ### Deferred freeing (22 R392 to R394) -/

/-- The scope that DSCOPE names (22 R392). -/
def dfScope (n : Nat) : Scope := if n = 2 then .dom else if n = 1 then .cell else .pkg

/-- FULL of DFQ_STAT (22 R392). -/
def CtxRegs.dfFull (r : CtxRegs) : Bool := (r.dfTail + 2 ^ 17 - r.dfHead) % 2 ^ 17 == 2 ^ r.dfLogn

/-- The address of a record of the deferred-free queue. -/
def CtxRegs.dfRecord (r : CtxRegs) (i : Nat) : Nat := r.dfRing + 16 * (i % 2 ^ r.dfLogn)

/-- The groups of a domain in a read section, live or saved. -/
def State.readersInside (s : State) (d : Nat) : List Nat :=
  (s.everyGroup.filter fun p => p.2.rdepth != 0 && p.2.leader.isNone && s.domOf p.2.ids.queue == d).map fun p => p.2.ids.uid

/-- The record appended, its grace period requested (22 R393). -/
def State.appended (s : State) (g : Group) (e : Entry) (d : Nat) (sc : Scope) : State :=
  let q := g.ids.queue
  let c := s.ctx q
  let seen : DfSeen := ⟨g.ids.uid, s.track.now, s.readersInside d, [], (s.graceOf d).target sc⟩
  let s1 := s.setCtx q { c with regs := { c.regs with dfTail := (c.regs.dfTail + 1) % 2 ^ 17 }, dfSeen := c.dfSeen ++ [seen] }
  let s2 := (s1.setTrack { s1.track with now := s1.track.now + 1 }).requestGrace d sc
  ({ s2 with nextId := s2.nextId + 1 }).setCurGroup ((s2.countOp g e .gs []).takeRegion (e.pos.next s.cur.len))

/-- `dfree` (22 R393): the record is appended by a store of the context; it counts as a store. -/
def execDfree (gd : Guard) (a b : Reg) (s : State) : Host.Outcome State Fault Refusal :=
  uniform (.dfree gd a b) gd s fun g e =>
    let x := g.rdSs a.toNat 2
    let q := g.ids.queue
    let r := (s.ctx q).regs
    if !g.single then .fault (.word 0x01)
    else if vaEnd ≤ x then .fault (operandFault 0x11 x)
    else if !r.rvalid then .fault (operandFault 0x11 r.rnode)
    else match s.nodeOf q r.rnode with
      | .wait s1 => .stall s1 10 0
      | .bad _ _ _ _ => .fault (operandFault 0x11 r.rnode)
      | .ok _ none => .fault (operandFault 0x11 r.rnode)
      | .ok s1 (some _) =>
        if !g.inflight.isEmpty then .stall s1 10 0
        else if r.dfFull then .stall s1 6 (10 - r.dscope)
        else
          let d := s1.domOf q
          let sc := dfScope r.dscope
          let at_ := r.dfRecord r.dfTail
          let data := leBytes 8 x ++ leBytes 4 (g.rdS b.toNat).toNat ++ leBytes 2 ((s1.graceOf d).target sc) ++ leBytes 1 r.dscope ++ leBytes 1 0
          match s1.vwrite s.cur.core q at_ 3 data with
          | .wait s2 => .stall s2 10 0
          | .bad _ c y _ => .fault ⟨c, 255, y, at_, 0⟩
          | .ok s2 _ => .done (s2.appended g e d sc)

/-- The record at HEAD may post: the count of its scope has reached its target (22 R392, R394). TARGET holds that count modulo 2^16, so the whole
of it is kept beside the ring. -/
def graceReached (count target : Nat) : Bool := target ≤ count

/-- A record that could not be read or written stops the posting (22 R394). -/
def State.postStop (s : State) (q : Nat) : State :=
  let c := s.ctx q
  if c.postStopped then s
  else (s.setCtx q { c with postStopped := true }).eventWord q 6 c.image.isSome c.regs.dfHead

/-- The record at HEAD posted to the reclaim node, if its period has ended and the node's ring has room (22 R394). -/
def State.postHead (s : State) (q : Nat) : Option State :=
  let c := s.ctx q
  let r := c.regs
  let core := s.schedCore q
  if r.dfHead = r.dfTail ∨ c.removing.isSome ∨ c.st = .removed then none
  else match s.vread core q (r.dfRecord r.dfHead) 2 16 with
    | .wait s1 => some s1
    | .bad s1 _ _ _ => some (s1.postStop q)
    | .ok s1 d =>
      let sc := dfScope (bitsOf (leValue (d.drop 14)) 0 2)
      if !graceReached ((s1.graceOf (s1.domOf q)).count sc) ((c.dfSeen.head?.map DfSeen.target).getD 0) then none
      else match s1.nodeOf q r.rnode with
        | .ok s2 (some x) =>
          let st := s2.nodeSt q r.rnode
          if !st.slotFree x.logn st.seq then none
          else match s2.vwrite core q (x.ring + x.rsize * (st.seq % 2 ^ x.logn)) (x.rsize + 1) (d.take 12 ++ List.replicate (x.rsize - 12) 0) with
            | .wait s3 => some s3
            | .bad s3 _ _ _ => some (s3.postStop q)
            | .ok s3 _ =>
              let c3 := s3.ctx q
              let before := match c3.dfSeen with
                | f :: _ => (f.party, f.at_) :: f.left_
                | [] => []
              let c4 := { c3 with regs := { c3.regs with dfHead := (r.dfHead + 1) % 2 ^ 17 }, dfSeen := c3.dfSeen.drop 1, postStopped := false }
              some (((s3.setCtx q c4).addRecords q r.rnode x 1 before).wakeCtx q)
        | .wait s2 => some s2
        | _ => none

/-- `DFREE_POST` (22 R394). -/
def execDfreePost (queue : Nat) (s : State) : Host.Outcome State Fault Refusal :=
  event s (if (s.ctx queue).postStopped then none else s.postHead queue)

/-- `DFREE_POST_RETRY` (22 R394): a post that has failed is tried again. -/
def execDfreePostRetry (queue : Nat) (s : State) : Host.Outcome State Fault Refusal :=
  event s (if (s.ctx queue).postStopped then s.postHead queue else none)

end Sys2Proof.Machine
end

