-- ==== Sys2Proof/Machine/Regroup.lean ====
section
/-! DEFINITION. Quarters, group slots and their freeing (11 R187 to R189, R197), and `regroup` (07 R138, R139). -/

namespace Sys2Proof.Machine

/-! ### Quarters (11 R187) -/

/-- The column banks that a lane count fills. -/
def banksOf (lanes : Nat) : Nat := (lanes + 3) / 4

/-- The 256-byte units that a group takes in a bank. -/
def unitsIn (lanes nvr bank : Nat) : Nat := if bank < banksOf lanes then nvr / 16 else 0

/-- The groups of a core with their slots. -/
def State.groupsOn (s : State) (core : Nat) : List (Nat × Group) :=
  (List.filter (fun p : Nat × Group => p.1 / 64 == core) s.groups).map fun p => (p.1 % 64, p.2)

/-- What stands on a core: the slots taken, each with its lane count and its registers. -/
abbrev Occ : Type := List (Nat × Nat × Nat)

/-- The occupancy of a core. -/
def State.occ (s : State) (core : Nat) : Occ := (s.groupsOn core).map fun p => (p.1, p.2.regs.nlanes, p.2.regs.nvr)

/-- The units taken in a bank of a quarter. -/
def takenIn (o : Occ) (quarter bank : Nat) : Nat :=
  ((o.filter fun p => p.1 / 16 == quarter).map fun p => unitsIn p.2.1 p.2.2 bank).sum

/-- `n` more groups of a lane count fit in a quarter's banks. -/
def banksFit (o : Occ) (quarter lanes nvr n : Nat) : Bool :=
  (List.range 8).all fun b => takenIn o quarter b + n * unitsIn lanes nvr b ≤ 64

/-! ### Freeing a slot (11 R189, R197) -/

/-- A group's slot and registers are freed: its tags become invalid, its commands and its place as a party go. -/
def State.freeSlot (s : State) (core slot : Nat) : State :=
  match s.group? core slot with
  | none => s
  | some g =>
    let c := s.coreSt core
    let nobody (x : Sett) : Sett := if x.filler = slot then { x with filler := 64, fillFault := none } else x
    let s1 := { s.setCore core { c with tags := c.tags.filter fun t => t.2 != slot
                                        lines := c.lines.map fun l => if l.slot = slot then { l with slot := 64 } else l } with
                groups := Tbl.del s.groups (gkey core slot)
                cmds := s.cmds.filter fun x => !(x.core == core && x.slot == slot) }
    let s2 := match s1.team? core g.ids.teamSlot with
      | some t => s1.setTeam core g.ids.teamSlot { t with setts := Tbl.mapV nobody t.setts }
      | none => s1
    if g.leader.isSome then s2
    else s2.setTrack { s2.track with parties := Tbl.upd s2.track.parties g.ids.uid fun p => { p with resident := false } }

/-! ### `regroup` (07 R138, R139) -/

/-- The slot of a group of the same team by its GRPID. -/
def State.teamMate (s : State) (core : Nat) (i : Ids) (grpid : Nat) : Option (Nat × Group) :=
  (s.groupsOn core).find? fun p => p.2.leader.isNone && sameTeam p.2.ids i && p.2.ids.grpid == grpid && !p.2.over

/-- `regroup` (07 R138 steps 1 and 2): with no partner, status 2; else the group waits in REGROUP. -/
def execRegroup (gd : Guard) (d a : Reg) (s : State) : Host.Outcome State Fault Refusal :=
  lanewise (.regroup gd d a) gd s fun g e ls =>
    let p := (g.rdS a.toNat).toNat
    if !g.single then .fault (.word 0x01)
    else if ls.isEmpty then .done s
    else if p = g.ids.grpid ∨ (s.teamMate s.cur.core g.ids p).isNone then
      if !g.inflight.isEmpty then .stall s 10 0
      else .done ((s.setCurGroup (g.regroupStatus d.toNat (maskOf ls) 2)).boundary g.ids.uid 5)
    else
      .control (s.setCurGroup { g.setEnt s.cur.entry { e with st := .regroup } with
        meet := some (p, maskOf ls, d.toNat, s.fall e), blockPos := e.pos })

/-- A group waits in REGROUP, stopped by nothing, with nothing in flight. -/
def State.meets (s : State) (core slot : Nat) (g : Group) : Bool :=
  (g.ent 0).st == .regroup && g.leader.isNone && g.meet.isSome && g.dbg.run == .running && g.stops.unwritten.isEmpty && g.stops.unserved.isEmpty &&
    g.trace.isEmpty && g.toksets.isEmpty && s.drained core slot g && (s.ctxMoves g.ids.queue) &&
    (match g.shadow.bind fun h => s.group? core h with
    | some x => x.inflight.isEmpty && x.statuses.isEmpty
    | none => true)

/-- The group goes on after its `regroup` unchanged, with a status. -/
def Group.unfused (g : Group) (m : BitVec 32 × Nat × Nat) (st : Nat) : Group :=
  let g1 := g.regroupStatus m.2.1 m.1 st
  { g1.setEnt 0 { g1.ent 0 with st := .running, pos := ⟨m.2.2, 0⟩ } with meet := none }

/-- Entries of a table of lane registers, `w` to a lane, moved from one lane to another. -/
def moveLane {β : Type} (t : Tbl β) (w old new : Nat) : Tbl β :=
  (List.filter (fun p : Nat × β => p.1 / w == old) t).map fun p => (new * w + p.1 % w, p.2)

/-- The registers of the fused group: the moved lanes numbered densely (07 R139). -/
def fusedRegs (a b : Regs) (la lb : List Nat) : Regs :=
  let src := (la.map fun l => (a, l)) ++ lb.map fun l => (b, l)
  let places := src.zipIdx
  { a with
    nlanes := src.length
    v := places.flatMap fun p => moveLane p.1.1.v 256 p.1.2 p.2
    p := places.flatMap fun p => moveLane p.1.1.p 16 p.1.2 p.2
    orig := places.flatMap fun p => moveLane p.1.1.orig 1 p.1.2 p.2
    badV := places.flatMap fun p => (p.1.1.badV.filter fun k => k / 256 == p.1.2).map fun k => p.2 * 256 + k % 256 }

/-- The survivor after a fuse with another group (07 R139): its lanes, its root entry, its region entry, status 1. -/
def Group.fuse (g h : Group) (mg mh : BitVec 32) (d fall : Nat) : Group :=
  let regs := fusedRegs g.regs h.regs (lanesOf mg) (lanesOf mh)
  let all := BitVec.ofNat 32 (2 ^ regs.nlanes - 1)
  let root : Entry := { g.ent 0 with st := .running, pos := ⟨fall, 0⟩, mask := all, reconv := 0 }
  let g1 := { g with regs := regs, ents := Tbl.setD [] 0 root .freed, meet := none }
  { ((g1.takeRegion ⟨fall, 0⟩).regroupStatus d all 1) with again := true }

/-- The survivor's quarter can hold the fused group, and its shadow beside it (11 R189). -/
def State.fuseFits (s : State) (core slotS slotR : Nat) (gs gr : Group) (lanes : Nat) : Bool :=
  let gone := [slotS, slotR] ++ gs.shadow.toList ++ gr.shadow.toList
  banksFit ((s.occ core).filter fun p => !gone.contains p.1) (slotS / 16) lanes gs.regs.nvr (if gs.shadow.isSome then 2 else 1)

/-- A reservation that holds slates. -/
def Group.holdsSlates (g : Group) : Bool := (g.resv.map fun r => decide (0 < r.nsl)).getD false

/-- A leader and its shadow changed alike. -/
def State.updPair (s : State) (core slot : Nat) (g : Group) (f : Group → Group) : State :=
  let s1 := s.setGroup core slot (f g)
  match g.shadow with
  | some h => s1.updGroup core h f
  | none => s1

/-- The two groups fuse: `slotS` survives with its shadow, `slotR` retires with its own and leaves its barriers and bindings. -/
def State.fuseGroups (s : State) (core slotS slotR : Nat) (gs gr : Group) (ms mr : BitVec 32 × Nat × Nat) : State :=
  let s1 := match gs.shadow, gr.shadow.bind fun h => s.group? core h with
    | some h, some x => s.updGroup core h fun y => y.fuse x ms.1 mr.1 ms.2.1 ms.2.2
    | _, _ => s
  let s2 := s1.setGroup core slotS (gs.fuse gr ms.1 mr.1 ms.2.1 ms.2.2)
  let s3 := ((s2.endBindings core slotR false).freeSlot core slotR).leaveBars core gr.ids .none
  match gr.shadow with
  | some h => s3.freeSlot core h
  | none => s3

/-- `REGROUP_RENDEZVOUS` (07 R138 steps 3 to 5): both groups wait for one another with nothing in flight. -/
def execRegroupRendezvous (core slotA slotB : Nat) (s : State) : Host.Outcome State Fault Refusal :=
  event s <| do
    let ga ← s.group? core slotA
    let gb ← s.group? core slotB
    let ma ← ga.meet
    let mb ← gb.meet
    if !s.meets core slotA ga || !s.meets core slotB gb || !sameTeam ga.ids gb.ids || ma.1 != gb.ids.grpid || mb.1 != ga.ids.grpid then none
    else
      let s1 := (s.boundary ga.ids.uid 5).boundary gb.ids.uid 5
      let n := (lanesOf ma.2.1).length + (lanesOf mb.2.1).length
      let no (st : Nat) : State :=
        ((s1.updPair core slotA ga fun g => g.unfused ma.2 st).updPair core slotB gb fun g => g.unfused mb.2 st)
      let low := decide (ga.ids.grpid < gb.ids.grpid)
      let fits := if low then s.fuseFits core slotA slotB ga gb n else s.fuseFits core slotB slotA gb ga n
      if ga.rdepth ≠ 0 ∨ gb.rdepth ≠ 0 ∨ ga.holdsSlates ∨ gb.holdsSlates then some (no 3)
      else if 32 < n then some (no 0)
      else if !fits then some (no 4)
      else if low then some (s1.fuseGroups core slotA slotB ga gb ma.2 mb.2)
      else some (s1.fuseGroups core slotB slotA gb ga mb.2 ma.2)

end Sys2Proof.Machine
end

