-- ==== Sys2Proof/Machine/Resume.lean ====
section
/-! DEFINITION. Fault records and their writing (14 R254 to R257), `resume` (14 R260), and the asking for a removal (21 R384). -/

namespace Sys2Proof.Machine

/-- A removal of a context is asked for (21 R384). -/
def State.askRemoval (s : State) (q : Nat) : State :=
  let c := s.ctx q
  if c.st = .idle ∨ c.st = .removed ∨ c.removing.isSome then s else s.setCtx q { c with removing := some false }

/-! ### Records (14 R256) -/

/-- A fault record of a group as bytes (14 R256). -/
def Rec.bytes (r : Rec) (core slot : Nat) (i : Ids) : List Byte :=
  let f := r.info
  leBytes 8 (f.cause + (if r.resumable then 2 ^ 8 else 0) + bitsOf f.lane 0 8 * 2 ^ 16 + bitsOf f.synd 0 8 * 2 ^ 24 + r.regcnt.toNat * 2 ^ 32) ++
  leBytes 8 r.faultPos.code ++ leBytes 8 r.restart.code ++
  leBytes 8 (r.mask.toNat + slot * 2 ^ 32 + core * 2 ^ 38 + r.entry * 2 ^ 47) ++
  leBytes 8 f.addr0 ++ leBytes 8 f.addr1 ++
  leBytes 8 (bitsOf r.progress 0 32 + i.grpid * 2 ^ 32 + i.teamid * 2 ^ 36) ++
  leBytes 8 (i.cluid + i.gridid * 2 ^ 32)

/-- The group is the context's handler (14 R254, R257). -/
def State.isHandler (s : State) (core slot : Nat) (g : Group) : Bool :=
  let r := (s.ctx g.ids.queue).regs
  r.fqEn && g.mon && r.handler == gkey core slot

/-- The indices between HEAD and TAIL (14 R255). -/
def CtxRegs.fqUsed (r : CtxRegs) : Nat := (r.tail + 2 ^ 17 - r.head) % 2 ^ 17

/-- No record of the context was taken before one (14 R255). -/
def State.firstRecord (s : State) (q tick : Nat) : Bool :=
  (Tbl.vals s.groups).all fun g => g.ids.queue != q || g.stops.unwritten.all fun r => tick ≤ r.tick

/-- A group with nothing issued under way: its operations and its shadow have come to its position (14 R257, R268). -/
def State.settled (s : State) (core : Nat) (g : Group) : Bool :=
  g.inflight.isEmpty && g.statuses.isEmpty && g.trace.isEmpty && match g.shadow.bind fun h => s.group? core h with
    | some x => x.inflight.isEmpty && x.statuses.isEmpty
    | none => true

/-- `FAULT_RECORD_WRITE` (14 R254 to R257): the oldest waiting record of the context is written when its group's issued instructions have
completed; where it cannot be, the context ends. -/
def execFaultRecordWrite (core slot : Nat) (s : State) : Host.Outcome State Fault Refusal :=
  event s <| do
    let g ← s.group? core slot
    let r ← g.stops.unwritten.head?
    let q := g.ids.queue
    let c := s.ctx q
    let written (s : State) : State := s.updGroup core slot fun g => { g with stops := { g.stops with unwritten := g.stops.unwritten.drop 1 } }
    if !s.settled core g || !s.firstRecord q r.tick || c.removing.isSome then none
    else if !c.regs.fqEn then
      if r.stop then
        some ((written s).updGroup core slot fun g =>
          { g.holdAll with dbg := { g.dbg with run := .halted }, stops := { g.stops with unserved := g.stops.unserved.drop 1 } })
      else some ((written s).askRemoval q)
    else if c.regs.fqUsed = 2 ^ c.regs.fqLogn then some (s.setCtx q { c with regs := { c.regs with full := true } })
    else match s.vwrite core q (c.regs.fqBase + 64 * (c.regs.tail % 2 ^ c.regs.fqLogn)) 3 (r.bytes core slot g.ids) with
      | .wait s1 => some s1
      | .bad s1 _ _ _ => some ((written s1).askRemoval q)
      | .ok s1 _ =>
        let c1 := s1.ctx q
        let s2 := written (s1.setCtx q { c1 with regs := { c1.regs with tail := (c1.regs.tail + 1) % 2 ^ 17, full := false } })
        some (if !r.stop && s.isHandler core slot g then s2.askRemoval q else s2)

/-! ### `resume` (14 R260) -/

/-- A group stands stopped (14 R257, R263, R266). -/
def Group.stopped (g : Group) : Bool := g.dbg.run != .running

/-- A failed spill whose record is served: its sett may be chosen again (12 R216). -/
def State.serveSpill (s : State) (core ts : Nat) (f : FaultInfo) : State :=
  match s.team? core ts with
  | none => s
  | some t =>
    let clear (x : Sett) : Sett :=
      if x.raised && (x.spillFault.map fun y => y.cause == f.cause && y.addr0 == f.addr0).getD false then { x with spillFault := none, raised := false } else x
    s.setTeam core ts { t with setts := Tbl.mapV clear t.setts }

/-- A fragment that stopped at the faulting instruction goes on after it (14 R260 action SKIP); one that had issued beyond it stays. -/
def Group.skipPast (r : Rec) (g : Group) : Group :=
  let e := g.ent r.entry
  if !r.late && e.st != .free && e.pos == r.faultPos then g.setEnt r.entry { e with pos := r.after } else g

/-- One record served by RESTART or SKIP (14 R251, R252, R260). -/
def State.serveRecord (s : State) (core slot : Nat) (g : Group) (r : Rec) (skip : Bool) : State :=
  let s0 := (s.updGroup core slot fun g => { g with stops := { g.stops with unserved := g.stops.unserved.drop 1 } }).serveSpill core g.ids.teamSlot r.info
  if r.resumable then
    match r.cmd.bind fun k => s0.cmd? k with
    | some c => if skip then s0.finishCmd c else s0.setCmd { c with suspended := false, start := s.cycle }
    | none => s0
  else if r.stop then s0
  else if skip then (s0.updGroup core slot (Group.skipPast r)).updGroup core (g.shadow.getD slot) (Group.skipPast r)
  else (s0.rewindPair core slot g).updGroup core slot fun g => if r.info.cause = 0x51 then { g with restarts := 0 } else g

/-- A group with no record left to serve goes on: STOPPED entries return to their states, those of its shadow too; a group that was blocked
in `gwait` waits afresh (14 R260, R263; 17 R326; 22 R391). -/
def State.goOn (s : State) (core slot : Nat) : State :=
  match s.group? core slot with
  | none => s
  | some g =>
    if !g.stops.unserved.isEmpty then s
    else
      let g1 := { g.releaseAll with stops := { g.stops with back := [] }, dbg := { g.dbg with run := .running, stepping := none } }
      let s1 := match g1.block with
        | .gwait sc _ => s.blockGrace core slot g1 sc
        | _ => s.setGroup core slot g1
      match g.shadow with
      | some h => s1.updGroup core h fun x => { x.releaseAll with dbg := { x.dbg with run := .running } }
      | none => s1

/-- Action END (14 R260): suspended commands are abandoned and their batches complete, and every lane ends as by `exit`. -/
def State.endStopped (s : State) (core slot : Nat) (g : Group) : State :=
  let dead := (s.cmdsOf core slot).filter fun c => c.suspended || (match c.op with
    | .cstart .. => c.progress == 0
    | _ => false)
  let close (g : Group) : Group :=
    { g with batches := g.batches.map fun b => { b with closed := b.closed || b.cmds.any fun k => dead.any fun c => c.id == k }
             stops := { g.stops with unserved := [], back := [] }, dbg := { g.dbg with run := .running } }
  let s1 := dead.foldl State.finishCmd (s.endBindings core slot true)
  let s2 := (s1.updGroup core slot close).endGroup core slot
  match g.shadow with
  | some h => s2.endGroup core h
  | none => s2

/-- A stopped group is resumed by an action (14 R260). -/
def State.resumeGroup (s : State) (core slot action : Nat) : State :=
  match s.group? core slot with
  | none => s
  | some g =>
    if action = 2 then s.endStopped core slot g
    else match g.stops.unserved with
      | [] => s.goOn core slot
      | r :: _ => (s.serveRecord core slot g r (action == 1)).goOn core slot

/-! ### Handles (14 R258) -/

/-- What a handle names: a live group's leader, or a group of a saved context. -/
inductive Named where
  | live (core slot : Nat) (g : Group)
  | saved (queue place : Nat) (g : Group)

/-- The partition that a context belongs to. -/
def State.partNo (s : State) (q : Nat) : Nat := if s.sched.partEn then (s.ctx q).desc.part else 0

/-- The group that a monitor group may name by a handle: a handler one of its own context, a debug monitor any of its partition (14 R258). -/
def State.named (s : State) (g : Group) (h : Nat) : Option Named :=
  let handler := s.isHandler s.cur.core s.cur.slot g
  let reach (q : Nat) : Bool := if handler then q == g.ids.queue else s.partNo q == s.partNo g.ids.queue
  if 2 ^ 15 ≤ h then none
  else match s.group? (h / 64) (h % 64) with
    | some x => if reach x.ids.queue then
        let slot := x.leader.getD (h % 64)
        (s.group? (h / 64) slot).map fun y => .live (h / 64) slot y
      else none
    | none =>
      (List.find? (fun p : Nat × Ctx => reach p.1 && (p.2.image.map fun im => im.groups.any fun x => gkey x.core x.slot == h).getD false)
          s.ctxs).bind fun p =>
        p.2.image.bind fun im => (im.groups.zipIdx.find? fun x => gkey x.1.core x.1.slot == h).map fun x => .saved p.1 x.2 x.1.g

/-- A status for a scalar register of the issuing group, written when the instruction completes (03 R42); its shadow takes it from the
group (14 R270). -/
def Res.status (s : State) (d st : Nat) : Res :=
  .done (s.updGroup s.cur.core s.cur.slot fun g =>
    let g1 := { g with statuses := g.statuses ++ [⟨s.cur.flag, d, BitVec.ofNat 32 st⟩] }
    if g.shadow.isSome then { g1 with readQueue := g1.readQueue ++ [st] } else g1)

/-- The oldest record to serve is of a fault whose RESTART sets the group back to its region entry, and the group's issued instructions have
not all completed: the restart waits for them (14 R252 step 1). -/
def State.restartWaits (s : State) (core action : Nat) (g : Group) : Bool :=
  action == 0 && (g.stops.unserved.head?.map fun r => !r.resumable && !r.stop).getD false && !s.settled core g

/-- `resume` (14 R260). -/
def execResume (gd : Guard) (d a b : Reg) (s : State) : Host.Outcome State Fault Refusal :=
  uniform (.resume gd d a b) gd s fun g _ =>
    let action := (g.rdS b.toNat).toNat
    match s.named g (g.rdS a.toNat).toNat with
    | none => .status s d.toNat 1
    | some (.live core slot x) =>
      if !x.stopped || (core == s.cur.core && slot == s.cur.slot) then .status s d.toNat 2
      else if 2 < action then .status s d.toNat 3
      else if s.restartWaits core action x then .stall s 10 0
      else .status (s.resumeGroup core slot action) d.toNat 0
    | some (.saved q place x) =>
      if !x.stopped then .status s d.toNat 2
      else if 2 < action then .status s d.toNat 3
      else
        let c := s.ctx q
        .status (s.setCtx q { c with resumes := c.resumes ++ [(place, action)] }) d.toNat 0

end Sys2Proof.Machine
end

