-- ==== Sys2Proof/Machine/Place.lean ====
section
/-! DEFINITION. Where clusters, teams and groups go (11 R187, R188; 16 R299; 21 R373, R374) and the state they start with (02 R23, R33; 12
R213; 21 R370). -/

namespace Sys2Proof.Machine

/-! ### Free choices -/

/-- A free choice of a list's element (log entry 4), with the state that has made it. -/
def State.choose {α : Type} (s : State) (l : List α) : State × Option α :=
  (s.fresh, l[Config.freeNat s.free % l.length]?)

/-! ### Needs and fits (11 R187, R188) -/

/-- What a group needs of a quarter. -/
structure GroupNeed where
  lanes : Nat
  nvr : Nat
  /-- It has a shadow. -/
  paired : Bool
deriving DecidableEq, Repr

/-- What a team needs of a core: its groups, whether it declares scratchpad, frames it needs at once, its reservations. -/
structure TeamNeed where
  groups : List GroupNeed
  setts : Nat
  frames : Nat
  resvs : List Resv
deriving DecidableEq, Repr

/-- The free slots of a quarter. -/
def freeSlots (o : Occ) (quarter : Nat) : List Nat :=
  ((List.range 16).map fun k => 16 * quarter + k).filter fun k => !o.any fun p => p.1 == k

/-- The lowest quarter that can hold a group, with its shadow (11 R188). -/
def quarterFor (o : Occ) (n : GroupNeed) : Option Nat :=
  let k := if n.paired then 2 else 1
  (List.range 4).find? fun q => k ≤ (freeSlots o q).length && banksFit o q n.lanes n.nvr k

/-- Slots for groups in order, a shadow directly after its leader; which free slot of the quarter is open (log entry 4). -/
def placeGroups (seed : Nat) : Occ → List GroupNeed → Option (List (Nat × Option Nat))
  | _, [] => some []
  | o, n :: rest => do
    let q ← quarterFor o n
    let free := freeSlots o q
    let l ← free[Config.freeNat seed % free.length]?
    let more := free.filter (· != l)
    let h := if n.paired then more[Config.freeNat (seed + 1) % more.length]? else none
    let o1 := (l, n.lanes, n.nvr) :: (h.toList.map fun k => (k, n.lanes, n.nvr)) ++ o
    let r ← placeGroups (seed + 2) o1 rest
    some ((l, h) :: r)

/-- A bench can hold reservations of a context beside those it holds, each with its beds on distinct faces, within the context's slate
allowance (15 R274, R275, R283, R295). -/
def State.benchFits (s : State) (q core : Nat) (rs : List Resv) : Bool :=
  let b := benchOf core
  let held := (s.benchGroups b).filterMap fun p => p.2.resv
  let own := ((s.benchGroups b).filter fun p => p.2.ids.queue == q).filterMap fun p => p.2.resv
  rs.isEmpty || (((held ++ rs).map Resv.slatesHeld).sum ≤ 64 && ((held ++ rs).map fun r => r.ncb).sum ≤ 64 &&
    bedsFit (s.bedsUsed b) (rs.map fun r => r.nbed) && ((own ++ rs).map Resv.slatesHeld).sum ≤ (s.ctx q).desc.slmax)

/-- The team slots of a core in use. -/
def State.teamSlots (s : State) (core : Nat) : List Nat := (List.range 8).filter fun t => (s.team? core t).isSome

/-- The core can take a team beside an occupancy and so many further teams (11 R188, 12 R202, 15 R295). -/
def State.coreTakes (s : State) (q core : Nat) (o : Occ) (more : Nat) (n : TeamNeed) : Bool :=
  (s.teamSlots core).length + more < 8 && (n.setts == 0 || 32 ≤ (s.coreSt core).nframe) &&
    s.framesUsed core + n.frames ≤ (s.coreSt core).nframe && s.benchFits q core n.resvs && (placeGroups s.free o n.groups).isSome

/-! ### Partitions and rectangles (16 R299, 21 R381) -/

/-- A context's partition. -/
def State.partRec (s : State) (q : Nat) : Part :=
  if s.sched.partEn then Tbl.getD s.sched.parts (s.ctx q).desc.part .reset else ⟨0xFF, 0, 64, true⟩

/-- The core lies in a partition. -/
def Part.has (p : Part) (core : Nat) : Bool := p.en && core < 384 && p.halves.getLsbD (core / 96 * 2 + core % 12 / 6)

/-- The cores of a rectangle in TEAMID order (16 R299). -/
def rectCores (rows cols : Nat) (trans : Bool) (origin : Nat) : List Nat :=
  (List.range rows).flatMap fun i => (List.range cols).map fun j => origin + (if trans then 12 * j + i else 12 * i + j)

/-- A rectangle of a shape lies within its corner's die and the partition. -/
def Part.hasRect (p : Part) (rows cols : Nat) (trans : Bool) (origin : Nat) : Bool :=
  let h := if trans then cols else rows
  let w := if trans then rows else cols
  origin % 96 / 12 + h ≤ 8 && origin % 12 + w ≤ 12 && (rectCores rows cols trans origin).all p.has

/-- The rectangles of a shape in a partition, by ORIGIN and then direct before transposed. -/
def Part.rects (p : Part) (rows cols : Nat) : List (Nat × Bool) :=
  (List.range 384).flatMap fun o => ([false, true].filter fun t => p.hasRect rows cols t o).map fun t => (o, t)

/-! ### Pending clusters (21 R373, R374) -/

/-- What a grid's team needs. -/
def Grid.need (d : Grid) : TeamNeed :=
  { groups := List.replicate d.groups ⟨d.lanes, d.vregs, d.chk⟩, setts := d.setts, frames := 0, resvs := [] }

/-- The pending clusters but that of context `own`, where it is the one being placed, with their grids. -/
def State.pendings (s : State) (own : Option Nat) : List (Pending × Grid) :=
  s.ctxs.filterMap fun c => if some c.1 = own then none else c.2.pending.bind fun p => c.2.grids[p.grid]?.map fun d => (p, d)

/-- The occupancy of a core with the teams that other pending clusters have reserved it for, and their number. -/
def State.occFor (s : State) (own : Option Nat) (core : Nat) : Occ × Nat :=
  (s.pendings own).foldl (fun o x =>
    if x.1.reserved.contains core then
      match placeGroups s.free o.1 x.2.need.groups with
      | some l => ((l.flatMap fun p => (p.1, x.2.lanes, x.2.vregs) :: p.2.toList.map fun h => (h, x.2.lanes, x.2.vregs)) ++ o.1, o.2 + 1)
      | none => (o.1, o.2 + 1)
    else o) (s.occ core, 0)

/-- An aged cluster bars other teams from its target, but those of an aged cluster that has waited longer (21 R374). -/
def State.barred (s : State) (own : Option Nat) (core : Nat) : Bool :=
  let mine := own.bind fun q => (s.ctx q).pending
  (s.pendings own).any fun x => x.1.aged && (rectCores x.2.rows x.2.cols x.1.trans x.1.origin).contains core &&
    !((mine.map fun p => p.aged && p.since < x.1.since).getD false)

/-- A core can take a team of context `q` (11 R188, 21 R374), `own` as in `State.pendings`. -/
def State.canTake (s : State) (own : Option Nat) (q core : Nat) (n : TeamNeed) : Bool :=
  let o := s.occFor own core
  !s.barred own core && s.coreTakes q core o.1 o.2 n

/-- The rectangles that can take a cluster now. -/
def State.fitting (s : State) (q : Nat) (d : Grid) : List (Nat × Bool) :=
  ((s.partRec q).rects d.rows d.cols).filter fun r => (rectCores d.rows d.cols r.2 r.1).all fun c => s.canTake none q c d.need

/-- The target of a cluster that fits nowhere: the rectangle with the fewest cores unable to take the team, the first of equals. -/
def State.targetFor (s : State) (q : Nat) (d : Grid) : Option (Nat × Bool) :=
  let lacking (r : Nat × Bool) : Nat := ((rectCores d.rows d.cols r.2 r.1).filter fun c => !s.canTake none q c d.need).length
  ((s.partRec q).rects d.rows d.cols).foldl (fun m r => match m with
    | none => some r
    | some b => if lacking r < lacking b then some r else some b) none

/-! ### The start of groups and teams (02 R23, R33; 12 R213; 21 R370) -/

/-- ORIGID of a lane (02 R33). -/
def Grid.origid (d : Grid) (cluid teamid grpid lane : Nat) : Word32 :=
  match d.node with
  | some (_, seqs) => BitVec.ofNat 32 (seqs.getD lane 0)
  | none => BitVec.ofNat 32 (lane + 32 * (((cluid * (d.rows * d.cols) + teamid) * d.groups + grpid) % 2 ^ 27))

/-- A group as its launch leaves it (02 R23, 21 R370). -/
def State.newGroup (s : State) (d : Grid) (ids : Ids) : Group :=
  let g := Group.start ids d.lanes d.vregs d.entryPos d.mon (if d.measured then 1 else d.lease) d.measured ⟨.parked, false, s.cycle, 0, none, s.time⟩
  let g1 := d.args.zipIdx.foldl (fun g p => g.wrS p.2 p.1) g
  { g1 with regs := { g1.regs with orig := (List.range d.lanes).foldl (fun t l => Tbl.setD t l (d.origid ids.cluid ids.teamid ids.grpid l) 0) [] },
            records := d.node }

/-- A group placed in a slot, with its shadow; its party begins (13 R229, 21 R377); a context without a handler takes the first at monitor
privilege (21 R370). -/
def State.startGroup (s : State) (core : Nat) (d : Grid) (ids : Ids) (place : Nat × Option Nat) : State :=
  let g := s.newGroup d { ids with uid := s.nextId }
  let s1 := s.setGroup core place.1 { g with shadow := place.2 }
  let s2 := match place.2 with
    | some h => s1.setGroup core h { g with leader := some place.1 }
    | none => s1
  let party : Party :=
    { core := core, slot := place.1, team := teamKeyOf ids, cluster := clusterKeyOf ids, resident := true, born := s.track.now, after := d.before }
  let s3 := { (s2.setTrack { s2.track with parties := Tbl.put s2.track.parties s.nextId party, now := s2.track.now + 1 }) with nextId := s.nextId + 1 }
  let c := s3.ctx ids.queue
  if d.mon && c.regs.handler == 0 then s3.setCtx ids.queue { c with regs := { c.regs with handler := gkey core place.1 } } else s3

/-- The entries of a new sett map (12 R213): ZERO with their backing, then UNBACKED. -/
def mapEntries (backs : List Nat) : List Byte :=
  (List.range 2048).flatMap fun n => leBytes 8 ((backs[n]?.map fun b => b % 2 ^ 46 * 2048 + 1).getD 0)

/-- The teams of a context, those of its saved image included. -/
def State.allTeams (s : State) (q : Nat) : List Team :=
  ((Tbl.vals s.teams).filter fun t => t.queue == q) ++ ((s.ctx q).image.map fun im => im.teams.map fun t => t.2).getD []

/-- The place of a team's sett map and its backing blocks: the first of the context's allocation that no team of it has (12 R213; log entry
97). -/
def State.takeBacking (s : State) (q nsett : Nat) (taken : List (Nat × List Nat)) : Option (Nat × List Nat) :=
  if nsett = 0 then some (0, [])
  else
    let used := ((s.allTeams q).map fun t => (t.map / 2 ^ 14, t.backs)) ++ taken
    let blocks := (Config.backing q).dedup.filter fun b => !(used.any fun u => u.2.contains b) && !(Config.mapSpace q).contains (b / 8)
    match (Config.mapSpace q).find? fun m => m < 2 ^ 43 && !used.any fun u => u.1 == m && !u.2.isEmpty with
    | some m => if nsett ≤ blocks.length then some (m, blocks.take nsett) else none
    | none => none

/-- The sett maps of a cluster's teams written, one for each core (12 R213): a launch waits for them, and for backing to be free. -/
def State.writeMaps (s : State) (q nsett : Nat) : List Nat → List (Nat × List Nat) → Try (List (Nat × List Nat))
  | [], taken => .ok s taken
  | core :: rest, taken =>
    match s.takeBacking q nsett taken with
    | none => .wait s
    | some m =>
      if nsett = 0 then s.writeMaps q nsett rest (taken ++ [m])
      else (s.vwrite core q (m.1 * 2 ^ 14) 513 (mapEntries m.2)).bind fun s1 _ => s1.writeMaps q nsett rest (taken ++ [m])

/-- A team placed on a core with its sett map and its groups (12 R213, 16 R306), where the core can take it. -/
def State.startTeam (s : State) (own : Option Nat) (q k : Nat) (d : Grid) (cluid teamid core : Nat) (m : Nat × List Nat) : Option State := do
  let r := s.choose ((List.range 8).filter fun t => (s.team? core t).isNone)
  let ts ← r.2
  let places ← placeGroups s.free (s.occFor own core).1 d.need.groups
  let s1 := { r.1 with free := r.1.free + 2 * d.groups }
  let c := s1.coreSt core
  let s2 := s1.setCore core { c with past := Tbl.del c.past ts }
  let team : Team :=
    { queue := q, grid := k, cluster := cluid, teamid := teamid, nsett := d.setts, map := m.1 * 2 ^ 14, backs := m.2, setts := [], rdy := 0,
      pend := [], arr := 0, memb := BitVec.ofNat 16 (2 ^ d.groups - 1), gen := 0 }
  some (places.zipIdx.foldl (fun st p =>
    st.startGroup core d { grpid := p.2, teamid := teamid, cluid := cluid, gridid := d.gridid, queue := q, teamSlot := ts, grid := k, uid := 0 } p.1)
    (s2.setTeam core ts team))

/-- A grid's next cluster placed on a rectangle (16 R299, 21 R373), once the sett maps of its teams are written. -/
def State.startCluster (s : State) (own : Option Nat) (q k : Nat) (d : Grid) (origin : Nat) (trans : Bool) : State :=
  let cores := rectCores d.rows d.cols trans origin
  match s.writeMaps q d.setts cores [] with
  | .wait s1 | .bad s1 _ _ _ => s1
  | .ok s1 maps =>
    let x : Cluster :=
      { origin := origin, queue := q, grid := k, cluid := d.placed, rows := d.rows, cols := d.cols, trans := trans, arr := [], gen := 0, locks := [] }
    let s2 := { s1 with clusters := Tbl.put s1.clusters s1.nextId x, nextId := s1.nextId + 1 }
    match (cores.zip maps).zipIdx.foldlM (fun st p => st.startTeam own q k d d.placed p.2 p.1.1 p.1.2) s2 with
    | none => s1
    | some s3 => s3.updGrid q k fun d => { d with placed := d.placed + 1 }

end Sys2Proof.Machine
end

