-- ==== Sys2Proof/Machine/Sched.lean ====
section
/-! DEFINITION. The package scheduler: queues and their entries (21 R366 to R369), hardware slots (R371, R372), placement (R373, R374), the
waiting budget and its snapshot (R378, R379), the end of groups and grids (07 R120, 21 R369). -/

namespace Sys2Proof.Machine

/-! ### Descriptors (21 R366) -/

/-- The local address of a queue's descriptor. -/
def State.descAddr (s : State) (q : Nat) : Nat := domAddr s.fabric.self (s.sched.qdtBase + 64 * q)

/-- A queue descriptor; one that breaks a limit is not valid. -/
def qdescOf (d : List Byte) : QDesc :=
  let w (i : Nat) : Nat := wordAt d (8 * i)
  let slice := if bitsOf (w 0) 4 7 = 0 then 8 else bitsOf (w 0) 4 7
  let x : QDesc :=
    { valid := bitOf (w 0) 0, prio := bitsOf (w 0) 1 3, slice := slice, part := bitsOf (w 0) 11 3, monOk := bitOf (w 0) 14,
      budget := bitsOf (w 0) 15 10, slmax := bitsOf (w 0) 25 7, vmax := bitsOf (w 0) 32 5, smax := bitsOf (w 0) 37 12,
      root := bitsOf (w 1) 12 48 * 4096, logn := bitsOf (w 2) 0 5, ring := bitsOf (w 2) 6 51 * 64, widx := bitsOf (w 3) 3 54 * 8,
      evt := bitsOf (w 5) 3 54 * 8, snap := bitsOf (w 6) 6 51 * 64, nnodes := bitsOf (w 7) 0 12, graph := bitsOf (w 7) 12 45 * 4096 }
  let zeros : Bool :=
    bitsOf (w 0) 49 15 == 0 && bitsOf (w 1) 0 12 == 0 && bitsOf (w 1) 60 4 == 0 && !bitOf (w 2) 5 && bitsOf (w 2) 57 7 == 0 &&
      bitsOf (w 3) 0 3 == 0 && bitsOf (w 3) 57 7 == 0 && bitsOf (w 5) 0 3 == 0 && bitsOf (w 5) 57 7 == 0 && bitsOf (w 6) 0 6 == 0 &&
      bitsOf (w 6) 57 7 == 0 && bitsOf (w 7) 57 7 == 0
  { x with valid := x.valid && zeros && slice ≤ 64 && x.slmax ≤ 64 && 1 ≤ x.vmax && x.vmax ≤ 16 && x.smax ≤ 2048 && 4 ≤ x.logn && x.logn ≤ 16 }

/-- The descriptor and the read index in memory. -/
def State.readDesc (s : State) (q : Nat) : QDesc × Nat :=
  let d := s.peekBytes (s.descAddr q) 64
  (qdescOf d, wordAt d 32)

/-! ### States of a context (21 R371) -/

/-- A context gives up its hardware slot; the translations cached under it go. -/
def State.unmap (s : State) (q : Nat) : State :=
  let c := s.ctx q
  match c.hw with
  | none => s
  | some h =>
    let drop (x : CoreSt) : CoreSt := { x with tlb := x.tlb.filter fun t => t.ctx != h }
    { s.setCtx q { c with hw := none } with cores := Tbl.mapV drop s.cores }

/-- A resident context with no work becomes IDLE (21 R371). -/
def State.idleIfDone (s : State) (q : Nat) : State :=
  if (s.ctx q).st == .resident && !s.hasWork q && (s.ctx q).removing.isNone then
    let s1 := s.unmap q
    s1.setCtx q { s1.ctx q with st := .idle, grids := [] }
  else s

/-- The host has written bytes of the package's memory: a queue stopped by a ring overflow whose RIDX lies in them goes on from there (21 R380
event 5). -/
def State.ridxWritten (s : State) (lpa n : Nat) : State :=
  (Tbl.keys s.ctxs).foldl (fun t q =>
    let c := t.ctx q
    let a := lpaOf (t.descAddr q) + 0x20
    if c.overflow && a < lpa + n && lpa < a + 8 then t.setCtx q { c with overflow := false, ridx := (t.readDesc q).2, widx := (t.readDesc q).2 } else t) s

/-- `WRITE_INDEX_NOTIFY` (21 R366, R367): the scheduler reads the descriptor of an idle queue and the write index; a ring overflow stops the
queue until the host has written RIDX (21 R380 event 5). -/
def execWriteIndexNotify (queue : Nat) (s : State) : Host.Outcome State Fault Refusal :=
  event s <|
    let c0 := s.ctx queue
    let d := s.readDesc queue
    if !s.sched.qdtEn || s.ctl.step != 5 || 16384 ≤ queue || c0.st == .removed || c0.removing.isSome || (c0.st == .idle && c0.answer.isSome) then none
    else
      let c := if c0.st == .idle then { c0 with desc := d.1, ridx := d.2, widx := d.2, overflow := c0.overflow } else c0
      if !c.desc.valid || c.overflow then none
      else
        let s1 := s.setCtx queue c
        match s1.vread (s1.schedCore queue) queue c.desc.widx 2 8 with
        | .wait s2 => some s2
        | .bad _ _ _ _ => none
        | .ok s2 b =>
          let w := leValue b
          let c2 := s2.ctx queue
          if w < c2.ridx ∨ c2.ridx + 2 ^ c2.desc.logn < w then
            some ((s2.setCtx queue { c2 with overflow := true }).eventWord queue 5 c2.image.isSome c2.ridx)
          else some ((s2.setCtx queue { c2 with widx := w }).wakeCtx queue)

/-- An entry skipped as a bad one (21 R368, R380 event 3). -/
def State.badEntry (s : State) (q ridx : Nat) : State := s.eventWord q 3 false ridx

/-- A launch entry becomes a grid, or is a bad entry (21 R368); `kb` is its kernel descriptor, where that could be read. -/
def State.launchEntry (s : State) (q ridx : Nat) (b : List Byte) (kb : Option (List Byte)) : State :=
  let w0 := wordAt b 0
  let c := s.ctx q
  let chk := bitOf w0 8
  let mon := bitOf w0 9
  let n := bitsOf w0 32 32
  match kb.bind kernelOf with
  | none => s.badEntry q ridx
  | some k =>
    if bitsOf w0 0 8 ≠ 1 ∨ n = 0 ∨ (mon && !c.desc.monOk) ∨ !k.allowed c.desc ∨ (chk && k.groups == 16) ∨
        ((s.partRec q).rects k.rows k.cols).isEmpty then s.badEntry q ridx
    else
      let g : Grid :=
        { gridid := s.sched.nextGrid, ridx := ridx, chk := chk, mon := mon, after := bitOf w0 10, clusters := n,
          entryPos := bitsOf (wordAt b 16) 3 54 * 8 + k.entryOff, done := bitsOf (wordAt b 24) 3 54 * 8,
          args := List.replicate 4 0 ++ argWords b 32, lanes := k.lanes, groups := k.groups, rows := k.rows, cols := k.cols,
          vregs := k.vregs, lease := k.lease, measured := k.measured, setts := k.setts, placed := 0,
          live := n * (k.rows * k.cols) * k.groups, ended := false, arr := 0, gen := 0, node := none, before := [] }
      { s.setCtx q { c with grids := c.grids ++ [g] } with sched := { s.sched with nextGrid := (s.sched.nextGrid + 1) % 2 ^ 32 } }

/-- `QUEUE_ENTRY_READ` (21 R367, R368): the next pending entry is copied with its kernel descriptor, and RIDX rises; a no-op is skipped. -/
def execQueueEntryRead (queue : Nat) (s : State) : Host.Outcome State Fault Refusal :=
  event s <|
    let c := s.ctx queue
    if c.st != .resident || c.image.isSome || !s.sched.qdtEn || s.ctl.step != 5 || s.ctl.held || c.overflow || c.ridx == c.widx ||
        !s.ctxMoves queue then none
    else
      let i := c.ridx
      let core := s.schedCore queue
      let up (s : State) : State := (s.setCtx queue { s.ctx queue with ridx := i + 1 }).poke (s.descAddr queue + 0x20) (leBytes 8 (i + 1))
      match s.vread core queue (c.desc.ring + 64 * (i % 2 ^ c.desc.logn)) 4 64 with
      | .wait s1 => some s1
      | .bad s1 _ _ _ => some (((up s1).badEntry queue i).idleIfDone queue)
      | .ok s1 b =>
        if bitsOf (wordAt b 0) 0 8 = 0 then some ((up s1).idleIfDone queue)
        else match s1.vread core queue (bitsOf (wordAt b 8) 5 52 * 32) 3 32 with
          | .wait s2 => some s2
          | .bad s2 _ _ _ => some (((up s2).launchEntry queue i b none).idleIfDone queue)
          | .ok s2 kb => some (((up s2).launchEntry queue i b (some kb)).idleIfDone queue)

/-! ### Placement (21 R369, R373, R374) -/

/-- The next grid of the queue's entries with a cluster to place, if those before it let it. -/
def nextQueueGrid (gs : List Grid) : Option Nat :=
  let ks := (gs.zipIdx.filter fun p => p.1.node.isNone)
  match ks.find? fun p => p.1.placed < p.1.clusters with
  | none => none
  | some p => if p.1.after && !(ks.all fun x => p.2 ≤ x.2 || x.1.ended) then none else some p.2

/-- The grids that may place a cluster now: the next of the queue, and the oldest launch of a graph node. -/
def nextGrids (gs : List Grid) : List Nat :=
  (nextQueueGrid gs).toList ++ ((gs.zipIdx.find? fun p => p.1.node.isSome && p.1.placed < p.1.clusters).map fun p => p.2).toList

/-- `CLUSTER_PLACEMENT` (21 R373): a cluster is placed on a rectangle that can take it, or becomes pending with its target. -/
def execClusterPlacement (queue : Nat) (s : State) : Host.Outcome State Fault Refusal :=
  event s <| do
    let c := s.ctx queue
    if c.st != .resident || c.image.isSome || !s.ctxMoves queue || s.ctl.held then none
    else
      let r := s.choose ((nextGrids c.grids).filter fun k => (c.pending.map fun p => p.grid != k).getD true)
      let k ← r.2
      let d ← c.grids[k]?
      match r.1.fitting queue d with
      | [] =>
        if c.pending.isSome then none
        else do
          let t ← r.1.targetFor queue d
          some (r.1.setCtx queue { c with pending := some ⟨k, t.1, t.2, [], s.time, false⟩ })
      | fits =>
        let x := r.1.choose fits
        x.2.map fun y => x.1.startCluster none queue k d y.1 y.2

/-- `CLUSTER_RESERVE` (21 R374): a core of the target that can take the team is reserved; with the last one the cluster is placed. A core that
cannot take it any more, by a change of its L1, is no longer reserved. -/
def execClusterReserve (queue core : Nat) (s : State) : Host.Outcome State Fault Refusal :=
  event s <| do
    let c := s.ctx queue
    let p ← c.pending
    let d ← c.grids[p.grid]?
    let cores := rectCores d.rows d.cols p.trans p.origin
    let kept := p.reserved.filter fun k => s.canTake (some queue) queue k d.need
    if !s.ctxMoves queue || c.st != .resident || !cores.contains core ||
        (s.pendings (some queue)).any (fun x => x.1.reserved.contains core) || !s.canTake (some queue) queue core d.need then none
    else
      let reserved := if kept.contains core then kept else kept ++ [core]
      let s1 := s.setCtx queue { c with pending := some { p with reserved := reserved } }
      if cores.all fun k => reserved.contains k then
        let s2 := s1.startCluster (some queue) queue p.grid d p.origin p.trans
        let started := ((s2.ctx queue).grids[p.grid]?.map fun x => x.placed != d.placed).getD false
        some (if started then s2.setCtx queue { s2.ctx queue with pending := none } else s2)
      else some s1

/-- `CLUSTER_AGED` (21 R374). -/
def execClusterAged (queue : Nat) (s : State) : Host.Outcome State Fault Refusal :=
  event s <| do
    let c := s.ctx queue
    let p ← c.pending
    if !p.aged && p.since + 1000 * s.sched.age < s.time then some (s.setCtx queue { c with pending := some { p with aged := true } }) else none

/-! ### Hardware slots (21 R372) -/

/-- A context holds up a running grace period: a group of its saved image holds the tag that the period waits for (22 R395). -/
def State.holdsGrace (s : State) (q : Nat) : Bool :=
  let x := s.graceOf (s.domOf q)
  x.busy && ((s.ctx q).image.map fun im => im.groups.any fun p => p.g.rdepth != 0 && p.g.rtag == x.old && p.g.leader.isNone).getD false

/-- The priority in effect (21 R372). -/
def State.effPrio (s : State) (q : Nat) : Nat := if s.holdsGrace q then 7 else (s.ctx q).desc.prio

/-- The contexts of a partition in a state. -/
def State.ctxsIn (s : State) (part : Nat) (st : CtxSt) : List (Nat × Ctx) :=
  List.filter (fun p : Nat × Ctx => p.2.st == st && s.partNo p.1 == part) s.ctxs

/-- The free hardware slots of a context's partition. -/
def State.freeHw (s : State) (p : Part) : List Nat :=
  if p.en then ((List.range p.nslot).map fun k => p.slot0 + k).filter fun h => h < 64 && !(Tbl.vals s.ctxs).any fun c => c.hw == some h
  else []

/-- A context takes a hardware slot. -/
def State.mapCtx (s : State) (q h : Nat) : State :=
  s.setCtx q { s.ctx q with st := .resident, hw := some h, residentAt := s.time, sliceAt := s.time }

/-- `SLOT_MAPPING` (21 R372): a free slot goes to the READY context of the highest priority, the one READY longest among equals. -/
def execSlotMapping (part : Nat) (s : State) : Host.Outcome State Fault Refusal :=
  event s <| do
    let best ← (s.ctxsIn part .ready).foldl (fun m x => match m with
      | none => some x
      | some y => if s.effPrio y.1 < s.effPrio x.1 || (s.effPrio y.1 == s.effPrio x.1 && x.2.readyAt < y.2.readyAt) then some x else some y) none
    if s.ctl.held then none
    else
      let r := s.choose (s.freeHw (s.partRec best.1))
      r.2.map fun h => r.1.mapCtx best.1 h

/-- The waiting budget of a context is spent (21 R378): its budget event comes before any other save (R384). -/
def Ctx.overBudget (c : Ctx) : Bool := c.desc.budget != 0 && c.desc.budget * 1000000 ≤ c.waiting

/-- `SLICE_EXPIRY` (21 R372): with a contender of the same priority or higher the context is to be saved, else its slice starts again. With
PARTEN 0 no context is saved (21 R381). -/
def execSliceExpiry (queue : Nat) (s : State) : Host.Outcome State Fault Refusal :=
  event s <|
    let c := s.ctx queue
    if c.st != .resident || c.image.isSome || !s.ctxMoves queue || c.saveDue || c.overBudget || s.time < c.sliceAt + 250000 * c.desc.slice then none
    else if s.sched.partEn && (s.ctxsIn (s.partNo queue) .ready).any fun x => c.desc.prio ≤ s.effPrio x.1 then
      some (s.setCtx queue { c with save := some false })
    else some (s.setCtx queue { c with sliceAt := s.time })

/-- `MINIMUM_RESIDENCY_REACHED` (21 R372): the lowest-priority resident gives way to a READY context of higher priority. -/
def execMinimumResidencyReached (queue : Nat) (s : State) : Host.Outcome State Fault Refusal :=
  event s <|
    let c := s.ctx queue
    let part := s.partNo queue
    let ready := s.ctxsIn part .ready
    let res := s.ctxsIn part .resident
    let stays := res.filter fun x => x.2.save.isNone && !x.2.saveDue
    let long (x : Ctx) : Bool := x.residentAt + 250000 ≤ s.time
    if c.st != .resident || c.image.isSome || !s.ctxMoves queue || c.saveDue || c.overBudget || !s.sched.partEn || !long c || !(s.freeHw (s.partRec queue)).isEmpty then none
    else if stays.any (fun x => x.2.desc.prio < c.desc.prio) ||
        stays.any (fun x => x.2.desc.prio == c.desc.prio && long x.2 &&
          (x.2.residentAt < c.residentAt || (x.2.residentAt == c.residentAt && x.2.hw.getD 0 < c.hw.getD 0))) then none
    else if (res.filter fun x => x.2.save.isSome || x.2.saveDue).length < (ready.filter fun x => c.desc.prio < s.effPrio x.1).length then
      some (s.setCtx queue { c with save := some false })
    else none

/-! ### The end of a group and of a grid (07 R120, 21 R369) -/

/-- TTOK of a team (16 R310). -/
def Team.tokWord (t : Team) : Nat := t.rdy.toNat + ((List.range 8).map fun k => fieldAt (t.pendOf k) (8 + 6 * k) 6).sum

/-- TBAR of a team (16 R305). -/
def Team.barWord (t : Team) : Nat := t.arr.toNat + fieldAt t.memb.toNat 16 16 + fieldAt t.gen 32 16

/-- The team of an ended group goes with its last group, its setts unspilled; the cluster with its last team (12 R217). -/
def State.freeTeam (s : State) (core : Nat) (i : Ids) : State :=
  if (s.groupsOn core).any fun p => sameTeam p.2.ids i then s
  else
    let c := s.coreSt core
    let s0 := match s.team? core i.teamSlot with
      | some t => s.setCore core { c with past := Tbl.put c.past i.teamSlot (t.tokWord, t.barWord) }
      | none => s
    let s1 := { s0 with teams := Tbl.del s0.teams (tkey core i.teamSlot) }
    if (Tbl.vals s1.teams).any fun t => t.queue == i.queue && t.grid == i.grid && t.cluster == i.cluid then s1
    else { s1 with clusters := List.filter (fun x : Nat × Cluster => !(x.2.queue == i.queue && x.2.grid == i.grid && x.2.cluid == i.cluid)) s1.clusters }

/-- A grid whose groups have all ended ends: DONE is written, unless its context is being removed (21 R369, R384). -/
def State.endGrid (s : State) (q k : Nat) : State :=
  match (s.ctx q).grids[k]? with
  | none => s
  | some d =>
    if d.live ≠ 0 ∨ d.ended ∨ (Tbl.vals s.groups).any (fun g => g.ids.queue == q && g.ids.grid == k) then s
    else
      let s1 := s.updGrid q k fun d => { d with ended := true }
      if d.done = 0 ∨ d.node.isSome ∨ (s.ctx q).removing.isSome then s1
      else s1.post q d.done (leBytes 8 (d.ridx + 1))

/-- The node records that a group held are freed (21 R375). -/
def State.freeRecords (s : State) (q : Nat) : Option (Nat × List Nat) → State
  | none => s
  | some (m, seqs) =>
    let x := s.nodeSt q m
    s.setNode q m { x with used := x.used.filter fun k => !seqs.contains k }

/-- `GROUP_END` (07 R120): a group with no lane left and nothing in flight frees its slot, its shadow's, its reservation, and what it was the
last of. -/
def execGroupEnd (core slot : Nat) (s : State) : Host.Outcome State Fault Refusal :=
  event s <| do
    let g ← s.group? core slot
    let q := g.ids.queue
    let removing := (s.ctx q).removing.isSome
    let shadowDone := match g.shadow.bind fun h => s.group? core h with
      | some x => x.over && x.inflight.isEmpty
      | none => true
    if g.leader.isSome || !g.over || !g.inflight.isEmpty || !g.batches.isEmpty || !g.toksets.isEmpty || !shadowDone ||
        !(g.stops.unwritten.isEmpty || removing) then none
    else
      let s1 := (s.endBindings core slot false).freeSlot core slot
      let s2 := match g.shadow with
        | some h => s1.freeSlot core h
        | none => s1
      some ((((s2.freeTeam core g.ids).freeRecords q g.records).endGrid q g.ids.grid).idleIfDone q)

end Sys2Proof.Machine
end

