-- ==== Sys2Proof/Machine/Swap.lean ====
section
/-! DEFINITION. The synchronisation snapshot (21 R379), the save of a context (14 R268, 21 R382), its restore (14 R269, 21 R383), its removal
(21 R384), team migration (11 R188, 12 R217), and the partition registers (21 R381). -/

namespace Sys2Proof.Machine

/-! ### What a group waits on (21 R378, R379) -/

/-- The token that holds back a command of the batches that a wait for a path's counter to fall to a threshold waits for: its number and its
PEND. -/
def State.heldToken (s : State) (core slot : Nat) (g : Group) (p : Path) (thr : Nat) : Option (Nat × Nat) :=
  let bs := g.batches.filter fun b => b.path == p
  let waited := (bs.take (bs.length - thr)).flatMap fun b => b.cmds
  (((s.cmdsOf core slot).filter fun c => waited.contains c.id && !c.done && s.waitsToken c).head?).bind fun c =>
    let k := if s.tokReady c c.in0 then c.in1 else c.in0
    k.map fun k => (k, ((s.team? core g.ids.teamSlot).map fun t => t.pendOf k).getD 0)

/-- WKIND and OBJ of a group (21 R379). -/
def State.waitKind (s : State) (core slot : Nat) (g : Group) : Nat × Nat :=
  if g.stopped ∨ (g.act.st != .active && g.act.st != .forced) then (0, 0)
  else match g.block with
    | .bar l gen => (1, l.code.toNat + 4 * gen)
    | .wait p thr => match s.heldToken core slot g p thr with
      | some t => (4, p.code.toNat + 8 * t.1 + 64 * t.2)
      | none => (2, p.code.toNat + 8 * bitsOf thr 0 8 + 2 ^ 11 * bitsOf (g.ctr p) 0 8)
    | .gwait sc _ => (6, sc.code.toNat)
    | .cstart h _ _ | .cwait h _ => match Tbl.find? g.binds h with
      | some b =>
        let n := match g.block with
          | .cstart .. => b.seq
          | _ => ((List.range b.seq).find? fun n => !s.instComplete b n).getD 0
        (5, b.gid + 2 ^ 40 * (n % 2 ^ 16) + 2 ^ 56 * h)
      | none => (5, 0)
    | .sleep _ dl => (8, bitsOf ((dl.map fun t => (t - s.time) / 1000).getD 0) 0 20)
    | .stall 3 m => (3, m + 2 ^ 12 * ((List.range 12).filter fun f => s.flagSet core slot g f).foldl (fun x f => x + 2 ^ f) 0)
    | .stall k o => (k, o)
    | .none =>
      if (g.ent 0).st == .regroup then (7, (g.meet.map fun m => bitsOf m.1 0 4).getD 0)
      else match g.live.find? fun k => (g.ent k).st == .regang with
        | some k => if g.live.all fun j => (g.ent j).st != .running then (9, (g.ent k).pos.caddr) else (0, 0)
        | none => (0, 0)

/-- An access of the group waits for a fill that has no frame, as every sett that could be evicted has a failed spill (12 R216). -/
def State.fillStuck (s : State) (core : Nat) (g : Group) : Bool :=
  (s.coreSt core).nframe ≤ s.framesUsed core && (s.victimSett core).isNone && (s.settsOf core).any (fun x => x.2.2.spillFault.isSome) &&
    g.inflight.any fun o => (o.todo.head?.map fun a => a.space == .scratch && !(s.sett core g.ids.teamSlot (a.va / 2048)).st.framed).getD false

/-- The group is charged for waiting (21 R378): a user group that is blocked in one of the waits that R378 lists, or waits as 12 R216 charges. -/
def State.charged (s : State) (core slot : Nat) (g : Group) : Bool :=
  let k := s.waitKind core slot g
  !g.mon && g.leader.isNone &&
    ((k.1 != 0 && !(k.1 == 10 && k.2 == 0)) || (!g.stopped && (g.act.st == .active || g.act.st == .forced) && s.fillStuck core g))

/-- The groups of a context with their cores and slots, in handle order. -/
def State.groupsOf (s : State) (q : Nat) : List (Nat × Nat × Group) :=
  s.groups.filterMap fun p => if p.2.ids.queue = q then some (p.1 / 64, p.1 % 64, p.2) else none

/-- The synchronisation snapshot as bytes (21 R379). -/
def State.snapshot (s : State) (q : Nat) : List Byte :=
  let gs := s.groupsOf q
  leBytes 8 (gs.length + 2 ^ 32 * (s.time % 2 ^ 32)) ++ leBytes 8 0 ++ gs.flatMap fun p =>
    let k := s.waitKind p.1 p.2.1 p.2.2
    let i := p.2.2.ids
    leBytes 8 (gkey p.1 p.2.1 + 2 ^ 15 * i.grpid + 2 ^ 19 * i.teamid + 2 ^ 23 * k.1 + 2 ^ 32 * i.cluid) ++ leBytes 8 k.2

/-! ### The save (14 R268, 12 R217, 21 R382) -/

/-- The parked time of a group, kept in its image (11 R191). -/
def Group.parkedTime (g : Group) (cycle : Nat) : Nat := if g.act.st = .parked then cycle - g.act.since else 0

/-- A group as it is saved (02 R35, 14 R268): a wait in REGROUP starts again at its `regroup` (07 R138), a single step not yet made is not
saved. -/
def Group.forImage (g : Group) (cycle : Nat) : Group :=
  let g1 := match g.dbg.stepping with
    | some (k, _) => g.holdEntry k
    | none => g
  let g2 := if (g1.ent 0).st = .regroup then { g1.setEnt 0 { g1.ent 0 with st := .running } with meet := none } else g1
  { g2 with act := { g2.act with since := g.parkedTime cycle, aged := 0, byAge := none, sole := false }, dbg := { g2.dbg with stepping := none },
            block := match g2.block with
              | .stall _ _ => .none
              | b => b }

/-- The bytes of an image (21 R382). -/
def Image.bytes (im : Image) : Nat :=
  let resv (r : Resv) : Nat := 8192 * r.slatesHeld + 163840 * r.nbed + 32 * r.ncb
  let groups := (im.groups.map fun x => 16 * x.g.regs.nvr * banksOf x.g.regs.nlanes + 4096 + (x.g.resv.map resv).getD 0).sum
  let setts := (im.teams.map fun t => 2048 * (Tbl.vals t.2.setts).length).sum
  (groups + 65536 + setts + 65535) / 65536 * 65536

/-- The shadow storage in use (21 R382). -/
def State.shadowUsed (s : State) : Nat := ((Tbl.vals s.ctxs).filterMap fun c => c.image.map Image.bytes).sum

/-- The setts of a team spilled and freed; one whose spill faults stays DIRTY, to be carried with the team (12 R217). -/
def State.spillTeam (s : State) (core ts : Nat) (t : Team) : Try Unit :=
  t.setts.foldl (fun acc x => acc.bind fun s1 _ =>
    if x.2.st = .dirty ∨ x.2.st = .spill then
      match s1.spillSett core t x.1 x.2 with
      | .ok s2 _ => .ok (s2.setSett core ts x.1 .absent) ()
      | .wait s2 => .wait s2
      | .bad s2 c y a => .ok (s2.setSett core ts x.1 { x.2 with st := .dirty, spillFault := some (pagerFault c y a), raised := false }) ()
    else .ok (s1.setSett core ts x.1 .absent) ()) (.ok s ())

/-- The setts of the context's teams spilled and freed. -/
def State.spillTeams (s : State) (q : Nat) : Try Unit :=
  (s.teams.filter fun p : Nat × Team => p.2.queue == q).foldl (fun acc p => acc.bind fun s1 _ => s1.spillTeam (p.1 / 8) (p.1 % 8) p.2) (.ok s ())

/-- A command as it is saved or moved: a bench's grants and row buffers do not go with it (15 R295). -/
def Cmd.forImage (c : Cmd) : Cmd := if c.path = .mx then { c with granted := [], buf := [] } else c

/-- A context's image as it stands. -/
def State.imageOf (s : State) (q : Nat) : Image :=
  { groups := (s.groupsOf q).map fun p => ⟨p.1, p.2.1, p.2.2.forImage s.cycle⟩
    teams := s.teams.filter fun p : Nat × Team => p.2.queue == q
    clusters := s.clusters.filter fun p : Nat × Cluster => p.2.queue == q
    cmds := (s.cmds.filter fun c => c.queue == q).map Cmd.forImage }

/-- The groups, teams, clusters and commands of a context leave the cores; its image is kept. -/
def State.store (s : State) (q : Nat) (im : Image) (st : CtxSt) : State :=
  let s1 := im.groups.foldl (fun t x => t.freeSlot x.core x.slot) s
  let s2 := { s1 with teams := s1.teams.filter fun p : Nat × Team => p.2.queue != q
                      clusters := s1.clusters.filter fun p : Nat × Cluster => p.2.queue != q
                      cmds := s1.cmds.filter fun c => c.queue != q }
  let s3 := s2.unmap q
  s3.setCtx q { s3.ctx q with st := st, image := some im, save := none, saveDue := false, snapped := false, pending := none, readyAt := s.time }

/-- The synchronisation snapshot stored at SNAP (21 R379). -/
def State.writeSnapshot (s : State) (q : Nat) : State := s.post q (s.ctx q).desc.snap (s.snapshot q)

/-- A budget event that saves nothing: event 1 with SAVED clear, and the removal, which ends with event 2 (21 R378, R384). -/
def State.budgetRemoval (s : State) (q : Nat) : State := (s.eventWord q 1 false (s.groupsOf q).length).askRemoval q

/-- `WAITING_BUDGET_EXCEEDED` (21 R378): the context is to be saved with a snapshot; where no context is saved it is removed (21 R381). -/
def execWaitingBudgetExceeded (queue : Nat) (s : State) : Host.Outcome State Fault Refusal :=
  event s <|
    let c := s.ctx queue
    if c.st != .resident || !c.overBudget || c.removing.isSome || c.save == some true then none
    else if s.sched.partEn then some (s.setCtx queue { c with save := some true, saveDue := false, waiting := 0 })
    else some ((s.writeSnapshot queue).budgetRemoval queue)

/-- The shadow storage has room for a context's image, its setts spilled (21 R382). -/
def State.shadowRoom (s : State) (q : Nat) : Bool := s.shadowUsed + { s.imageOf q with teams := [] }.bytes ≤ 768 * 2 ^ 20

/-- `PREEMPTION` (14 R268): every group stands at a boundary with nothing issued under way; its state and the context's are saved. A budget
event stores its snapshot first and the event word after, and removes the context where the shadow storage has no room (21 R378); another save is
then deferred, and begins once there is room (21 R372). A budget event comes before it (21 R384). -/
def execPreemption (queue : Nat) (s : State) : Host.Outcome State Fault Refusal :=
  event s <|
    let c := s.ctx queue
    let gs := s.groupsOf queue
    if c.st != .resident || c.image.isSome || c.removing.isSome then none
    else match c.save with
      | none => if c.saveDue && s.shadowRoom queue then some (s.setCtx queue { c with save := some false, saveDue := false }) else none
      | some budget =>
        if !gs.all (fun p => p.2.2.leader.isSome || (s.settled p.1 p.2.2 && (p.2.2.stops.unwritten.isEmpty || c.regs.full))) ||
            (!budget && c.overBudget) then none
        else if budget && !c.snapped then some ((s.setCtx queue { c with snapped := true }).writeSnapshot queue)
        else if !c.posts.isEmpty then none
        else match s.spillTeams queue with
          | .wait s1 | .bad s1 _ _ _ => some s1
          | .ok s1 _ =>
            let im := s1.imageOf queue
            if 768 * 2 ^ 20 < s1.shadowUsed + im.bytes then
              let s2 := s1.setCtx queue { s1.ctx queue with save := none, snapped := false, saveDue := !budget }
              some (if budget then s2.budgetRemoval queue else s2)
            else if budget then some ((s1.store queue im .saved).eventWord queue 1 true gs.length)
            else some (s1.store queue im .ready)

/-! ### The restore (14 R269, 21 R383) -/

/-- The leaders of a saved team, in GRPID order. -/
def Image.leaders (im : Image) (t : Team) : List SavedGroup :=
  (List.range 16).filterMap fun k => im.groups.find? fun x =>
    x.g.leader.isNone && x.g.ids.grid == t.grid && x.g.ids.cluid == t.cluster && x.g.ids.teamid == t.teamid && x.g.ids.grpid == k

/-- What a team needs of its new core: its groups, its setts that are carried, its reservations. -/
def Image.need (im : Image) (t : Team) : TeamNeed :=
  let ls := im.leaders t
  { groups := ls.map fun x => ⟨x.g.regs.nlanes, x.g.regs.nvr, x.g.shadow.isSome⟩, setts := t.nsett, frames := t.setts.length,
    resvs := ls.filterMap fun x => x.g.resv }

/-- The teams of a saved cluster. -/
def Image.teamsOf (im : Image) (c : Cluster) : List Team :=
  (im.teams.filter fun t => t.2.grid == c.grid && t.2.cluster == c.cluid).map fun t => t.2

/-- A group as it goes on after its restore or migration: PARKED with the parked time it had; the rest as saved (11 R190, R191). -/
def Group.arriveAt (g : Group) (cycle : Nat) (ts : Nat) : Group :=
  { g with ids := { g.ids with teamSlot := ts }, act := { g.act with st := if g.over then .ending else .parked, since := cycle - g.act.since, sole := false } }

/-- A leader and its shadow put into the slots of a core; the reservation takes faces of the new bench (15 R295). The party moves with it. -/
def State.adopt (s : State) (core ts : Nat) (x : SavedGroup) (shadow : Option Group) (place : Nat × Option Nat) : State :=
  let faces (r : Resv) : List Nat := ((takeFaces (s.bedsUsed (benchOf core)) r.nbed).map fun x => x.1).getD []
  let g := { x.g.arriveAt s.cycle ts with shadow := place.2, resv := x.g.resv.map fun r => { r with faces := faces r } }
  let s1 := s.setGroup core place.1 g
  let s2 := match place.2, shadow with
    | some h, some y => s1.setGroup core h { y.arriveAt s.cycle ts with leader := some place.1 }
    | _, _ => s1
  s2.setTrack { s2.track with parties := Tbl.upd s2.track.parties g.ids.uid fun p => { p with core := core, slot := place.1, resident := true } }

/-- A saved team placed on a core: the moves of its groups, by their old places. -/
def State.adoptTeam (s : State) (q : Nat) (im : Image) (t : Team) (core : Nat) : Option (State × List (Nat × Nat)) :=
  let n := im.need t
  if !s.canTake none q core n then none
  else do
    let places ← placeGroups s.free (s.occFor none core).1 n.groups
    let r := { s with free := s.free + 2 * n.groups.length }.choose ((List.range 8).filter fun k => (s.team? core k).isNone)
    let ts ← r.2
    let ls := im.leaders t
    let shadowOf (x : SavedGroup) : Option SavedGroup := x.g.shadow.bind fun h => im.groups.find? fun y => y.core == x.core && y.slot == h
    let s1 := (ls.zip places).foldl (fun st p => st.adopt core ts p.1 ((shadowOf p.1).map fun y => y.g) p.2) ((r.1.setCore core { r.1.coreSt core with past := Tbl.del (r.1.coreSt core).past ts }).setTeam core ts t)
    some (s1, (ls.zip places).flatMap fun p =>
      (gkey p.1.core p.1.slot, gkey core p.2.1) :: ((shadowOf p.1).bind fun y => p.2.2.map fun h => (gkey y.core y.slot, gkey core h)).toList)

/-- A saved cluster placed on a rectangle, every team of it, or nothing. -/
def State.adoptAt (s : State) (q : Nat) (im : Image) (c : Cluster) (r : Nat × Bool) : Option (State × List (Nat × Nat)) :=
  let cores := rectCores c.rows c.cols r.2 r.1
  let s1 := { s with clusters := Tbl.put s.clusters s.nextId { c with origin := r.1, trans := r.2 }, nextId := s.nextId + 1 }
  (im.teamsOf c).foldlM (fun acc t => (acc.1.adoptTeam q im t (cores.getD t.teamid 0)).map fun x => (x.1, acc.2 ++ x.2)) (s1, [])

/-- A saved cluster placed on some rectangle of the partition that can take its teams together. -/
def State.adoptCluster (s : State) (q : Nat) (p : Part) (im : Image) (c : Cluster) : Option (State × List (Nat × Nat)) := do
  let r := s.choose ((p.rects c.rows c.cols).filter fun r => (s.adoptAt q im c r).isSome)
  r.1.adoptAt q im c (← r.2)

/-- A place after the moves. -/
def movedTo (ms : List (Nat × Nat)) (core slot : Nat) : Nat × Nat :=
  match ms.find? fun m => m.1 == gkey core slot with
  | some m => (m.2 / 64, m.2 % 64)
  | none => (core, slot)

/-- The commands of moved groups and their locks follow them. -/
def State.moveCmds (s : State) (cmds : List Cmd) (ms : List (Nat × Nat)) : State :=
  let moved := cmds.map fun c =>
    let p := movedTo ms c.core c.slot
    { c with core := p.1, slot := p.2, start := s.cycle
             ids := { c.ids with teamSlot := ((s.group? p.1 p.2).map fun g => g.ids.teamSlot).getD c.ids.teamSlot } }
  let slotOf (l : Lock) : Nat := ((moved.find? fun c => c.id == l.cmd).map fun c => c.slot).getD l.slot
  { s with cmds := s.cmds ++ moved
           clusters := Tbl.mapV (fun c : Cluster => { c with locks := c.locks.map fun l => { l with slot := slotOf l } }) s.clusters }

/-- No bench's command table holds more than its entries (15 R276). -/
def State.tablesHold (s : State) : Bool := (List.range 96).all fun b => (s.benchCmds b).length ≤ 64

/-- The machine with nothing placed on its cores. -/
def State.emptied (s : State) : State :=
  { s with groups := [], teams := [], clusters := [], cmds := [], ctxs := Tbl.mapV (fun c : Ctx => { c with pending := none }) s.ctxs }

/-- Saved clusters can be placed together, whichever rectangles they take. -/
def State.placeable (s : State) (q : Nat) (p : Part) (im : Image) (ms : List (Nat × Nat)) : List (Nat × Cluster) → Bool
  | [] => (s.moveCmds im.cmds ms).tablesHold
  | c :: rest => (p.rects c.2.rows c.2.cols).any fun r =>
    match s.adoptAt q im c.2 r with
    | some x => x.1.placeable q p im (ms ++ x.2) rest
    | none => false

/-- The saved image could be placed in the partition were it empty, and no allowance is broken (14 R269, 15 R283, 21 R383). -/
def State.feasible (s : State) (q : Nat) (p : Part) (im : Image) : Bool :=
  let d := (s.ctx q).desc
  im.groups.all (fun x => x.g.regs.nvr ≤ 16 * d.vmax) && im.teams.all (fun t => t.2.nsett ≤ d.smax) && s.emptied.placeable q p im [] im.clusters

/-- A restored group's wait begins again: a `sleep` for its full timeout, a `gwait` afresh (14 R264, 22 R391). -/
def State.rewait (s : State) (core slot : Nat) : State :=
  match s.group? core slot with
  | none => s
  | some g =>
    match g.block with
    | .sleep imm _ =>
      s.setGroup core slot { g with block := .sleep imm (if bitsOf imm.toNat 0 20 = 0 then none else some (s.time + 1000 * bitsOf imm.toNat 0 20)) }
    | .gwait sc _ => if g.stopped then s else s.blockGrace core slot g sc
    | _ => s

/-- The whole image placed, or nothing (14 R269). -/
def State.adoptAll (s : State) (q : Nat) (p : Part) (im : Image) : Option State := do
  let r ← im.clusters.foldlM (fun acc c => (acc.1.adoptCluster q p im c.2).map fun x => (x.1, acc.2 ++ x.2)) (s, ([] : List (Nat × Nat)))
  let s1 ← if (r.1.moveCmds im.cmds r.2).tablesHold then some (r.1.moveCmds im.cmds r.2) else none
  let s2 := r.2.foldl (fun st m => st.rewait (m.2 / 64) (m.2 % 64)) s1
  let resumes := (s2.ctx q).resumes
  let s3 := resumes.foldl (fun st x => match im.groups[x.1]? with
    | some y => let p := movedTo r.2 y.core y.slot
      st.resumeGroup p.1 p.2 x.2
    | none => st) s2
  some (s3.setCtx q { s3.ctx q with image := none, resumes := [], restorePart := none })

/-- The answer to a management command that waited (23 R403). -/
def State.answerCtx (s : State) (q status : Nat) : State :=
  let c := s.ctx q
  match c.answer with
  | some (qp, tag) => (s.setCtx q { c with answer := none }).emit (.answer qp tag status [])
  | none => s

/-- `CONTEXT_RESTORE` (21 R383): a saved context is placed whole in its partition, or refused with event 4 where that could never be. -/
def execContextRestore (queue : Nat) (s : State) : Host.Outcome State Fault Refusal :=
  event s <| do
    let c := s.ctx queue
    let im ← c.image
    let part := c.restorePart.getD c.desc.part
    let s0 := s.setCtx queue { c with desc := { c.desc with part := part } }
    let p := s0.partRec queue
    if c.removing.isSome || s.ctl.held || !(c.st == .resident || (c.st == .saved && c.restorePart.isSome)) then none
    else if !s.feasible queue p im then
      let s1 := s.unmap queue
      some (((s1.setCtx queue { s1.ctx queue with st := .saved, restorePart := none }).answerCtx queue 6).eventWord queue 4 true 0)
    else do
      let s1 ← if c.st == .resident then some s0 else
        let r := s0.choose (s0.freeHw p)
        r.2.map fun h => r.1.mapCtx queue h
      match s1.adoptAll queue p im with
      | some s2 => some (s2.answerCtx queue 0)
      | none => some s.fresh

/-! ### Removal (21 R384) -/

/-- Steps 1 to 4 of a removal on a group: exit of every lane, its commands and instances abandoned, its reservation freed. -/
def State.killGroup (s : State) (core slot : Nat) : State :=
  let free (g : Group) : Group :=
    { g with resv := none, toksets := [], stops := ⟨[], [], []⟩, batches := g.batches.map fun b => { b with closed := true }, block := .none,
             trace := [], loadQueue := [], readQueue := [], inflight := g.inflight.filter fun o => !o.fromLeader }
  let s1 := (s.cmdsOf core slot).foldl (fun t c => if c.done then t else t.finishCmd c) (s.endBindings core slot true)
  (s1.updGroup core slot free).endGroup core slot

/-- A saved image discarded: its readers are counted out, its instances and its commands are abandoned, and the regions of its groups and
commands end (13 R230, R244; 22 R391). -/
def State.discardImage (s : State) (q : Nat) : State :=
  match (s.ctx q).image with
  | none => s
  | some im =>
    let bs := im.groups.flatMap fun x => Tbl.vals x.g.binds
    let s1 := im.groups.foldl (fun t x =>
      let t1 := (Tbl.vals x.g.binds).foldl (fun u b => u.endBinding true b) t
      let t2 := if x.g.rdepth ≠ 0 ∧ x.g.leader.isNone then t1.uncount x.g.ids x.g.rtag else t1
      if x.g.leader.isNone then t2.boundary x.g.ids.uid 5 else t2) s
    let ended (c : CmdTrack) : CmdTrack :=
      if c.stop.isNone ∧ im.cmds.any fun x => x.id == c.cmd then { c with stop := some s1.track.now } else c
    let s2 := s1.setTrack { s1.track with cmds := s1.track.cmds.map ended, now := s1.track.now + 1 }
    bs.foldl State.forgetInsts (s2.setCtx q { s2.ctx q with image := none })

/-- Steps 1 to 4 of a removal (21 R384). -/
def State.beginRemoval (s : State) (q : Nat) : State :=
  let c := s.ctx q
  let s1 := s.setCtx q { c with removing := some true, save := none, saveDue := false, snapped := false, pending := none, widx := c.ridx, nodes := [], dfSeen := [],
                                regs := { c.regs with dfHead := c.regs.dfTail }, resumes := [], restorePart := none }
  let s2 := (s1.discardImage q)
  let s3 := (s2.groupsOf q).foldl (fun t p => t.killGroup p.1 p.2.1) s2
  let free (t : Team) : Team := if t.queue = q then { t with setts := [], rdy := 0, pend := [] } else t
  let unlock (x : Cluster) : Cluster := if x.queue = q then { x with locks := [] } else x
  { s3 with teams := Tbl.mapV free s3.teams, clusters := Tbl.mapV unlock s3.clusters }

/-- `CONTEXT_REMOVAL` (21 R384): its steps begin; once the last group has ended, event 2 is written and the context is REMOVED. -/
def execContextRemoval (queue : Nat) (s : State) : Host.Outcome State Fault Refusal :=
  event s <| do
    let begun ← (s.ctx queue).removing
    if !begun then some (s.beginRemoval queue)
    else if !(s.groupsOf queue).isEmpty then none
    else
      let s0 := (s.eventWord queue 2 false 0).unmap queue
      let s1 := { s0 with fabric := { s0.fabric with reqs := s0.fabric.reqs.filter fun x => x.queue != some queue || !(s0.ctx queue).posts.isEmpty } }
      some ((s1.setCtx queue { s1.ctx queue with st := .removed, removing := none, grids := [], nodes := [] }).answerCtx queue 0)

/-! ### Migration (11 R188, 12 R217, 15 R295) -/

/-- `TEAM_MIGRATION` (11 R188): a team of a cluster of one core, stopped with nothing issued under way, is placed on another core of its
partition. Its setts go with it where the target has the frames, and else are spilled first (12 R217). -/
def execTeamMigration (core team target : Nat) (s : State) : Host.Outcome State Fault Refusal :=
  event s <| do
    let t ← s.team? core team
    let q := t.queue
    let gs := (s.groupsOn core).filter fun p => sameTeam p.2.ids { p.2.ids with queue := q, grid := t.grid, cluid := t.cluster, teamid := t.teamid }
    let cl ← List.find? (fun c : Nat × Cluster => c.2.queue == q && c.2.grid == t.grid && c.2.cluid == t.cluster) s.clusters
    if core == target || cl.2.rows * cl.2.cols != 1 || !(s.partRec q).has target || !s.ctxMoves q || (s.ctx q).st != .resident ||
        (Tbl.vals t.setts).any (fun x => x.st == .fill || x.st == .spill) ||
        !gs.all (fun p => p.2.leader.isSome || (s.settled core p.2 && p.2.stops.unwritten.isEmpty)) then none
    else
      let framed := ((Tbl.vals t.setts).filter fun x => x.st.framed).length
      let spilled : Try Unit := if s.framesUsed target + framed ≤ (s.coreSt target).nframe then .ok s () else s.spillTeam core team t
      match spilled with
      | .wait s1 | .bad s1 _ _ _ => some s1
      | .ok s1 _ => do
        let s2 := gs.foldl (fun st p => st.freeSlot core p.1) s1
        let t1 ← s2.team? core team
        let im : Image :=
          { groups := gs.map fun p => ⟨core, p.1, p.2.forImage s1.cycle⟩, teams := [(tkey core team, t1)], clusters := [],
            cmds := (s1.cmds.filter fun c => gs.any fun p => c.core == core && c.slot == p.1).map Cmd.forImage }
        let s3 := { s2 with teams := Tbl.del s2.teams (tkey core team), clusters := Tbl.put s2.clusters cl.1 { cl.2 with origin := target } }
        let r ← s3.adoptTeam q im t1 target
        if (r.1.moveCmds im.cmds r.2).tablesHold then some (r.1.moveCmds im.cmds r.2) else none

/-! ### Partition registers (21 R381) -/

/-- The word of a PART register. -/
def Part.word (p : Part) : Nat := p.halves.toNat + p.slot0 * 2 ^ 8 + p.nslot * 2 ^ 14 + p.en.toNat * 2 ^ 21

/-- A partition has a RESIDENT context or one with a saved image. -/
def State.partBusy (s : State) (part : Nat) : Bool :=
  s.sched.partEn && s.ctxs.any fun p => s.partNo p.1 == part && (p.2.st == .resident || p.2.image.isSome)

/-- The slot ranges of two partitions overlap; a range of no slot overlaps none. -/
def slotsMeet (a b : Part) : Bool := a.nslot != 0 && b.nslot != 0 && a.slot0 < b.slot0 + b.nslot && b.slot0 < a.slot0 + a.nslot

/-- A write of a PART register: refused with ERR where R381 says so. -/
def State.writePart (s : State) (part : Nat) (v : Nat) : State :=
  let p : Part := ⟨BitVec.ofNat 8 v, bitsOf v 8 6, bitsOf v 14 7, bitOf v 21⟩
  let others := List.filter (fun x : Nat × Part => x.1 != part && x.2.en) s.sched.parts
  if 64 < p.slot0 + p.nslot ∨ s.partBusy part ∨ (p.en && others.any fun x => x.2.halves &&& p.halves != 0 || slotsMeet x.2 p) then
    { s with sched := { s.sched with partErr := true } }
  else { s with sched := { s.sched with parts := Tbl.setD s.sched.parts part p .reset } }

/-- A write of PARTCTL: PARTEN changes only while no context is RESIDENT or holds a saved image; ERR clears where 1 is written. -/
def State.writePartctl (s : State) (v : Nat) : State :=
  let d := s.sched
  let err := d.partErr && !bitOf v 1
  if bitOf v 0 != d.partEn && (Tbl.vals s.ctxs).any (fun c => c.st == .resident || c.image.isSome) then { s with sched := { d with partErr := true } }
  else
    let s1 := { s with sched := { d with partEn := bitOf v 0, partErr := err } }
    if bitOf v 0 && !d.partEn then s1.dramShadow else s1

/-- `PART_WRITE` (21 R381). -/
def execPartWrite (part : Nat) (value : BitVec 64) (s : State) : Host.Outcome State Fault Refusal :=
  event s (if part < 8 then some (s.writePart part value.toNat) else none)

/-- `PARTCTL_WRITE` (21 R381; 18 R336). -/
def execPartctlWrite (value : BitVec 64) (s : State) : Host.Outcome State Fault Refusal := event s (some (s.writePartctl value.toNat))

end Sys2Proof.Machine
end

