-- ==== Sys2Proof/Machine/Fabric.lean ====
section
/-! DEFINITION. The fabric's steps: requests of other packages to this home (24 R418 to R424, R427, R429), answers to this package's
requests (24 R427, R428), the firewall, recovery from a cell's death (24 R431 to R433), extents (24 R434 to R436). -/

namespace Sys2Proof.Machine

/-! ### Requests of other packages -/

/-- A request is taken from a live package of the domain for data of this home (24 R415, R416, R432). -/
def State.admits (s : State) (pkg lpa : Nat) : Bool := s.fabric.en && (s.domEnt pkg).valid && !(s.domEnt pkg).dead && lpa < dirBase

/-- An extent of 1 GiB (24 R434). -/
def State.extent (s : State) (e : Nat) : Extent := Tbl.getD s.fabric.extents e .reset

/-- The cause with which a request is refused: the firewall's, or that of an extent in release (24 R424, R435). -/
def State.refuses (s : State) (pkg lpa : Nat) (rd wr : Bool) : Option Nat :=
  let k := s.cellOf pkg
  let m := s.fwMasks (lpa / 2 ^ 21)
  let x := s.extent (lpa / 2 ^ 30)
  if pkg != s.fabric.self && ((rd && !m.1.getLsbD k) || (wr && !m.2.getLsbD k)) then some 0x33
  else if x.st = 2 ∧ x.cell = k then some 0x36
  else none

/-- The home's limit for a cell admits `n` bytes (24 R427). -/
def State.withinRate (s : State) (cell n : Nat) : Bool :=
  Tbl.getD s.fabric.rate cell 0 == 0 || Tbl.getD s.fabric.bucket cell 0 + n ≤ 65536

/-- A response sent: its bytes come out of the cell's bucket, its load level is open (24 R427). -/
def State.respond (s : State) (pkg lpa cause : Nat) (data : List Byte) : State :=
  let f := s.fabric
  let k := s.cellOf pkg
  let used := if Tbl.getD f.rate k 0 = 0 then f.bucket else Tbl.setD f.bucket k (Tbl.getD f.bucket k 0 + data.length) 0
  ({ s with fabric := { f with bucket := used } }.fresh).emit (.response pkg lpa cause (Config.freeNat s.free % 4) data)

/-- What the response to a request that was not performed carries: of a conflict the word (13 R235). -/
def State.refusalData (s : State) (cause word : Nat) : List Byte := if cause = 0x20 then s.conflictData word else []

/-- A request checked and served; one that waits for a holder or for the rate limit is presented again by the fabric. -/
def State.answer (s : State) (pkg lpa n : Nat) (rd wr : Bool) (body : State → Try (List Byte)) : Option State :=
  if !s.admits pkg lpa then none
  else match s.refuses pkg lpa rd wr with
    | some c => some (s.respond pkg lpa c [])
    | none =>
      if !s.withinRate (s.cellOf pkg) n then none
      else match body s with
        | .ok s1 d => some (s1.respond pkg lpa 0 d)
        | .wait s1 => some s1
        | .bad s1 c _ a => some (s1.respond pkg lpa c (s1.refusalData c (a.getD 0)))

/-- A request of another package performed against the tracking (13 R235): nothing of it is performed where it completes a conflict. -/
def State.farAccess {α : Type} (s : State) (pkg : Nat) (k : TrackKind) (sec : Bool) (words : List Nat) (body : Try α) : Try α :=
  match body with
  | .ok s1 a =>
    if pkg = s.fabric.self then .ok s1 a
    else match s1.farMeet pkg k sec words with
      | .ok s2 => .ok s2 a
      | .error w => .bad s 0x20 0 (some w)
  | t => t

/-- The words of a domain granule that a request names, by their place in it. -/
def State.farWords (s : State) (lpa : Nat) (words : List Nat) : List Nat := words.map fun w => domAddr s.fabric.self (lpa / 128 * 128) / 4 + w % 32

/-- The words of `n` bytes of this home. -/
def State.homeWords (s : State) (lpa n : Nat) : List Nat :=
  let a := domAddr s.fabric.self lpa
  (List.range ((a + n - 1) / 4 + 1 - a / 4)).map fun i => a / 4 + i

/-- A granule served: its bytes and poison codes, and 1 where the requester holds it in E (24 R420). What the L2 does not hold and no owner has
supplied is read from the stack with its checks (18 R343), outside its channel's retraining window (18 R346). -/
def State.giveGranule (s : State) (pkg lpa : Nat) (w : Want) : Try (List Byte) :=
  let lg := lpa / 128
  (s.serve pkg lg w).bind fun s1 _ =>
    let own := if ((s1.dirEnt lg).map fun e => e.st == .e && e.owner == pkg).getD false then 1 else 0
    let give (s2 : State) (d : List Byte) : Try (List Byte) := .ok (s2.setSupplied lg none) (d ++ [own])
    match w, Tbl.find? s.fabric.supplied lg with
    | .read, some d => give s1 d
    | .fold _, _ => .ok (s1.setSupplied lg none) []
    | _, _ =>
      if (secsOf (s.pgOf lg)).all fun k => (s1.l2? k).isSome then give s1 (s1.granuleData (s.pgOf lg))
      else if s.inWindow (lg * 128) then .wait s
      else give (s1.stackRead lg) ((s1.stackRead lg).granuleData (s.pgOf lg))

/-- `RS` (24 R420); a `.ms` load reads memory (24 R421). -/
def execRs (pkg : Nat) (reach : Reach) (ms : Option Nat) (s : State) : Host.Outcome State Fault Refusal :=
  let lpa := reach.lpa
  event s <| match ms with
    | none => s.answer pkg lpa 128 true false fun s => s.farAccess pkg .read reach.sec (s.farWords lpa reach.words) (s.giveGranule pkg lpa .read)
    | some n => s.answer pkg lpa n true false fun s =>
        (s.msRead none 0 (domAddr s.fabric.self lpa) n (.load .b32 0 0)).bind fun s1 x => .ok s1 (leBytes n x)

/-- `RX` (24 R420); a `.ms` store writes memory (24 R421). -/
def execRx (pkg : Nat) (reach : Reach) (ms : Option (List Byte)) (s : State) : Host.Outcome State Fault Refusal :=
  let lpa := reach.lpa
  event s <| match ms with
    | none => s.answer pkg lpa 128 true true fun s => s.farAccess pkg .write false (s.farWords lpa reach.words) (s.giveGranule pkg lpa .write)
    | some d => s.answer pkg lpa 0 true true fun s =>
        (s.msWrite none 0 (domAddr s.fabric.self lpa) d.length (leValue d) (.store 0)).bind fun s1 _ => .ok s1 []

/-- Replay entries younger than 200 µs (24 R429). -/
def State.youngReplays (s : State) : List Replay := s.fabric.replay.filter fun r => decide (s.time < r.at_ + 200000)

/-- `AT` (24 R420, R429): one whose token is known is answered from the replay table; with a full table it is turned away busy; else it is
performed at the home and its old value kept. -/
def execAtHome (pkg lpa seq : Nat) (op : AtomOp) (t : RedTy) (b c : BitVec 64) (form : AtomForm) (s : State) :
    Host.Outcome State Fault Refusal :=
  let n := redW t / 8
  let pa := domAddr s.fabric.self lpa
  let f (old : Nat) : Nat := atomicNew op t old b.toNat c.toNat
  event s <|
    if !s.admits pkg lpa then none
    else match s.fabric.replay.find? fun r => r.pkg == pkg && r.seq == seq with
      | some r => some (s.respond pkg lpa 0 (leBytes n r.old))
      | none =>
        let kept := if s.fabric.replay.length < 4096 then s.fabric.replay else s.youngReplays
        if 4096 ≤ kept.length then some (s.respond pkg lpa 0xFF [])
        else s.answer pkg lpa n true true fun s =>
          (if form.ms then s.msAtomic none 0 pa n (.store 0) f
            else s.farAccess pkg (atomKind form.order) false (s.homeWords lpa n) (s.cachedAtomic none none 0 pa n (.store 0) f)).bind fun s1 old =>
              .ok { s1 with fabric := { s1.fabric with replay := kept ++ [⟨pkg, seq, old, s.time⟩] } } (leBytes n old)

/-- `CB` (24 R420): the package may hold a partial. -/
def execCb (pkg : Nat) (reach : Reach) (op : RedOp) (t : RedTy) (s : State) : Host.Outcome State Fault Refusal :=
  let lpa := reach.lpa
  event s (s.answer pkg lpa 0 false true fun s =>
    s.farAccess pkg .fold false (s.farWords lpa reach.words) (s.giveGranule pkg lpa (.fold (copCode op t))))

/-- `UPGRADE_NOTICE` (24 R418): the owner in E becomes M; a notice that comes too late changes nothing (24 R437). -/
def execUpgradeNotice (pkg gran : Nat) (s : State) : Host.Outcome State Fault Refusal :=
  event s <| do
    let e ← s.dirEnt gran
    if e.st == .e && e.owner == pkg && !(s.domEnt pkg).dead then some (s.setDir gran { e with st := .m }) else none

/-! ### Copies that come home (24 R418, R420) -/

/-- A granule that travelled, written into memory with its poison codes (18 R340, R344). -/
def State.storeGranule (s : State) (lg : Nat) (data : List Byte) : State :=
  if data.length < 128 then s
  else s.memWriteGran lg ([0, 1, 2, 3].map fun i => (leValue ((data.drop (32 * i)).take 32), (data.getD (128 + i) 0).toNat))

/-- The entry after a package's copy has gone: a bit of another cell falls when none of its packages can hold one. -/
def State.unhold (s : State) (lg : Nat) (e : DirEnt) (pkg : Nat) (sole : Bool) : DirEnt :=
  let k := s.cellOf pkg
  let awaited := s.fabric.recalled.any fun r => r.1 == lg && r.2.1 != pkg && s.cellOf r.2.1 == k
  if k = s.ownCell ∨ (if sole then decide ((s.packagesOf k).length ≤ 1) else !awaited) then s.markHolder e pkg false else e

/-- A holder's answer to a recall (24 R420): a partial is merged; an owner's bytes supply the request, or, where the copy has gone, reach
memory. -/
def State.recallAnswered (s : State) (lg pkg : Nat) (share : Bool) (data : List Byte) : State :=
  match s.dirEnt lg with
  | none => s
  | some e =>
    match e.st with
    | .x => s
    | .c => (if data.length < 128 then s else s.mergePartial lg e.cop (data.take 132)).putDir lg (s.unhold lg e pkg false)
    | .s => if share then s else s.putDir lg (s.unhold lg e pkg false)
    | _ =>
      if e.owner = pkg then
        if share then
          if data.length < 128 then s.setDir lg { e with st := .s, owner := 0 } else s.setSupplied lg (some (data.take 132))
        else ((s.storeGranule lg data).setSupplied lg none).putDir lg { s.unhold lg e pkg false with st := .s, owner := 0 }
      else if share then s else s.putDir lg (s.unhold lg e pkg false)

/-- A copy written back without a recall (24 R418, R420). -/
def State.copyReturned (s : State) (lg pkg : Nat) (keep : Bool) (data : List Byte) : State :=
  match s.dirEnt lg with
  | none => s
  | some e =>
    match e.st with
    | .x | .s => s
    | .c =>
      if data.length < 128 then s else (s.mergePartial lg e.cop (data.take 132)).putDir lg (s.unhold lg e pkg true)
    | st =>
      if e.owner ≠ pkg ∨ data.length < 128 then s
      else
        let s1 := (s.storeGranule lg data).setSupplied lg none
        if keep then s1.setDir lg (if st = .o then { e with st := .s, owner := 0 } else { e with st := .e })
        else if st = .o then s1.putDir lg { s.unhold lg e pkg true with st := .s, owner := 0 }
        else s1.delDir lg

/-- `WRITE_BACK` (24 R418, R420): the answer to a recall of the granule, or else a copy that its holder drops or cleans. The home answers
it. -/
def execWriteBack (pkg gran : Nat) (keep : Bool) (data : List Byte) (s : State) : Host.Outcome State Fault Refusal :=
  event s <|
    if !s.admits pkg (gran * 128) then none
    else
      let s0 := s.sweepFirst gran
      let s1 := match s0.fabric.recalled.find? fun r => r.1 == gran && r.2.1 == pkg with
        | some r => { s0 with fabric := { s0.fabric with recalled := s0.fabric.recalled.filter (· != r) } }.recallAnswered gran pkg r.2.2 data
        | none => s0.copyReturned gran pkg keep data
      some (s1.emit (.response pkg (gran * 128) 0 0 []))

/-! ### This package as a holder (24 R418, R419) -/

/-- A granule leaves the L2 and every L1. -/
def State.dropCopies (s : State) (pg : Nat) : State := (secsOf pg).foldl State.l2Drop s

/-- `RECALL` (24 R418, R420): a copy is dropped, or kept shared; an owner's bytes or a partial go home; a package that holds nothing
acknowledges. -/
def execRecall (pa : Nat) (share : Bool) (s : State) : Host.Outcome State Fault Refusal :=
  let pg := pa / 128
  event s <|
    if !s.remote pa then none
    else some <| match s.holderOf pg with
      | some .m | some .o =>
        let s1 := s.sendBack (pg * 128) share (s.granuleData pg)
        if share then s1.setHolder pg .o else s1.dropCopies pg
      | some .c => (s.sendBack (pg * 128) false (s.partialData pg)).dropCopies pg
      | some .e | some .s =>
        let s1 := s.sendBack (pg * 128) share []
        if share then s1.setHolder pg .s else s1.dropCopies pg
      | _ => s.sendBack (pg * 128) share []

/-! ### Reading the directory -/

/-- The code of a directory state (24 R417). -/
def DirSt.code : DirSt → Nat
  | .s => 1
  | .e => 2
  | .m => 3
  | .o => 4
  | .c => 5
  | .x => 6

/-- Word 0 of an entry (24 R417). -/
def DirEnt.word0 (e : DirEnt) (lg : Nat) : Nat := e.st.code + e.cop * 2 ^ 3 + e.owner * 2 ^ 11 + e.pmask.toNat * 2 ^ 20 + lg * 2 ^ 28

/-- `DIRQ_LOOKUP`: the entry of the granule that DIRQ_ADDR names. -/
def execDirqLookup (s : State) : Host.Outcome State Fault Refusal :=
  event s <|
    if !s.fabric.dirqGo then none
    else
      let lg := s.fabric.dirqAddr
      let w := match s.dirEnt lg with
        | some e => (BitVec.ofNat 64 (e.word0 lg), e.cvec)
        | none => (0, 0)
      some { s with fabric := { s.fabric with dirqW0 := w.1, dirqW1 := w.2, dirqDone := true, dirqGo := false } }

/-! ### The firewall (24 R426) -/

/-- A write of FWCMD: BLOCK is stored; with GO, while no change is in progress, the masks of a block change at once, and copies are recalled
before the change completes. -/
def State.writeFwcmd (s : State) (v : Nat) : State :=
  let f := { s.fabric with fwBlock := bitsOf v 0 19 }
  if !bitOf v 62 ∨ f.fwBusy ∨ 368639 < f.fwBlock then { s with fabric := f }
  else
    let own : BitVec 64 := BitVec.ofNat 64 (2 ^ s.ownCell)
    { s with fabric := { f with masks := Tbl.setD f.masks f.fwBlock (f.fwRm, f.fwWm) (own, own), fwChanging := f.fwBlock, fwBusy := true } }

/-- `FIREWALL_CHANGE` (24 R426). -/
def execFirewallChange (value : BitVec 64) (s : State) : Host.Outcome State Fault Refusal := event s (some (s.writeFwcmd value.toNat))

/-- The directory entries of a local range. -/
def State.entriesIn (s : State) (lo n : Nat) : List (Nat × DirEnt) :=
  List.filter (fun p : Nat × DirEnt => lo ≤ p.1 * 128 && p.1 * 128 < lo + n) s.fabric.dir

/-- A package's copy that the block's masks no longer allow (24 R426): whether it may stay shared. -/
def State.fwRecall (s : State) (e : DirEnt) (p : Nat) : Option Bool :=
  let m := s.fwMasks s.fabric.fwChanging
  let k := s.cellOf p
  if p = s.fabric.self then none
  else if !m.1.getLsbD k then some false
  else if !m.2.getLsbD k then
    if e.st = .c then some false else if e.owner = p ∧ (e.st = .e ∨ e.st = .m ∨ e.st = .o) then some true else none
  else none

/-- An owner's bytes that a firewall change has fetched reach memory, and its copy stays shared. -/
def State.settleShared (s : State) (lg : Nat) : State :=
  match s.dirEnt lg, Tbl.find? s.fabric.supplied lg with
  | some e, some d => ((s.storeGranule lg d).setSupplied lg none).setDir lg { e with st := .s, owner := 0 }
  | _, _ => s

/-- `FIREWALL_CHANGE_COMPLETE` (24 R426): the copies are recalled; once none is left that the masks do not allow, BUSY clears. -/
def execFirewallChangeComplete (s : State) : Host.Outcome State Fault Refusal :=
  event s <|
    if !s.fabric.fwBusy then none
    else
      let blk := s.fabric.fwChanging * 2 ^ 21
      let s0 := (s.entriesIn blk (2 ^ 21)).foldl (fun st p =>
        if (st.holders p.2).any fun q => st.fwRecall p.2 q == some true then st.settleShared p.1 else st) s
      let asks := (s0.entriesIn blk (2 ^ 21)).flatMap fun p => (s0.holders p.2).filterMap fun q => (s0.fwRecall p.2 q).map fun sh => (p.1, q, sh)
      if asks.isEmpty then some { s0 with fabric := { s0.fabric with fwBusy := false } }
      else some (asks.foldl (fun st a => (st.askHolders (α := Unit) a.1 [a.2.1] a.2.2).state) s0)

/-! ### Answers to this package's requests (24 R427 to R429) -/

/-- The window toward a home after a response (24 R427). -/
def newWindow (w level : Nat) : Nat :=
  let x := match level with
    | 0 => w + 1
    | 1 => w
    | 2 => w - 1
    | _ => w / 2
  Nat.min 256 (Nat.max 4 x)

/-- What a response does to its request: a granule is installed, another response waits for the access that made it. -/
def State.takeResponse (s : State) (r : Req) (cause : Nat) (data : List Byte) : State :=
  let pg := r.pa / 128
  let keep : State := { s with fabric := { s.fabric with reqs := s.fabric.reqs.map fun q => if q.id = r.id then { q with resp := some (cause, data) } else q } }
  if cause ≠ 0 then keep
  else
    let marks := [128, 129, 130, 131].map fun i => (data.getD i 0).toNat
    match r.kind, r.op with
    | 0, _ => (s.dropReq r.id).install pg (if data.getD 132 0 = 1 then .e else .s) 0 (data.take 128) marks
    | 1, _ => (s.dropReq r.id).install pg .m 0 (data.take 128) marks
    | 3, some (.fold op t _) => (s.dropReq r.id).install pg .c (copCode op t) [] []
    | _, _ => keep

/-- `REMOTE_RESPONSE` (24 R427): the window toward the home follows its load level; a request ends, or a write-back is answered. -/
def execRemoteResponse (req level cause : Nat) (data : List Byte) (s : State) : Host.Outcome State Fault Refusal :=
  event s <|
    match s.fabric.reqs.find? fun r => r.id == req && r.sent && (r.resp.map fun x => x.1 == 0xFF).getD true with
    | some r =>
      let h := homeOf r.pa
      let s1 := { s with fabric := { s.fabric with window := Tbl.setD s.fabric.window h (newWindow (s.windowOf h) level) 64 } }
      some (s1.takeResponse r cause data)
    | none =>
      if s.fabric.backs.any fun b => b.id == req then some { s with fabric := { s.fabric with backs := s.fabric.backs.filter fun b => b.id != req } }
      else none

/-- A request sent again over another route, with its own number (24 R428). -/
def State.sendAgain (s : State) (r : Req) (retry : Bool) : State :=
  { (s.emit (.request r.kind r.id r.pa r.size r.seq retry r.op)) with
    fabric := { s.fabric with reqs := s.fabric.reqs.map fun q => if q.id = r.id then { q with retried := q.retried || retry, resp := none } else q } }

/-- `REMOTE_RETRY` (24 R428): once, after min(RTMO ÷ 2, 100 µs). -/
def execRemoteRetry (req : Nat) (s : State) : Host.Outcome State Fault Refusal :=
  event s <| do
    let r ← s.fabric.reqs.find? fun r => r.id == req
    if r.queue.isSome && r.sent && !r.retried && r.resp.isNone && r.at_ + Nat.min (r.timer / 2) 100000 ≤ s.time then some (s.sendAgain r true) else none

/-- `REMOTE_TIMEOUT` (24 R428, R429): the request ends with cause 0x34, an atomic's with 0x35. -/
def execRemoteTimeout (req : Nat) (s : State) : Host.Outcome State Fault Refusal :=
  event s <| do
    let r ← s.fabric.reqs.find? fun r => r.id == req
    if r.queue.isSome && (r.resp.map fun x => x.1 == 0xFF).getD true && r.at_ + r.timer ≤ s.time then
      some (s.takeResponse r (if r.isAtomic then 0x35 else 0x34) [])
    else none

/-- `ATOMIC_BUSY_RESEND` (24 R429): an atomic answered busy is sent again; this is not the retry of R428. -/
def execAtomicBusyResend (req : Nat) (s : State) : Host.Outcome State Fault Refusal :=
  event s <| do
    let r ← s.fabric.reqs.find? fun r => r.id == req
    if r.isAtomic && (r.resp.map fun x => x.1) == some 0xFF then some (s.sendAgain r false) else none

/-- `REPLAY_ENTRY_EXPIRY` (24 R429). -/
def execReplayEntryExpiry (pkg seq : Nat) (s : State) : Host.Outcome State Fault Refusal :=
  event s <| do
    let r ← s.fabric.replay.find? fun r => r.pkg == pkg && r.seq == seq
    if r.at_ + 200000 ≤ s.time then some { s with fabric := { s.fabric with replay := s.fabric.replay.filter (· != r) } } else none

/-- `WRITE_BACK_RESEND` (24 R428): a write-back that its home has not answered is sent again. -/
def execWriteBackResend (req : Nat) (s : State) : Host.Outcome State Fault Refusal :=
  event s <| do
    let b ← s.fabric.backs.find? fun b => b.id == req
    some (s.emit (.writeBack b.id b.pa b.keep b.data))

/-- `PACKET_DROP` (24 R428): a packet older than 150 µs is dropped at its arrival, so nothing of it reaches the package. -/
def execPacketDrop (_idx : Nat) (s : State) : Host.Outcome State Fault Refusal := event s none

/-- `RATE_LIMIT_RELEASE` (24 R427): the cell's bucket refills, by how much is a matter of time (log entry 4). -/
def execRateLimitRelease (cell : Nat) (s : State) : Host.Outcome State Fault Refusal :=
  let used := Tbl.getD s.fabric.bucket cell 0
  event s (if used = 0 then none
    else some { s.fresh with fabric := { s.fabric with bucket := Tbl.setD s.fabric.bucket cell (Config.freeNat s.free % used) 0 } })

/-! ### Cell death (24 R431 to R433) -/

/-- The bindings of groups, live or saved, that a dead cell's packages are members of are broken (25 R447). -/
def State.breakBindings (s : State) (k : Nat) : State :=
  let saved := (Tbl.vals s.ctxs).flatMap fun c => match c.image with
    | some im => im.groups.map fun x => x.g
    | none => []
  let bs := (Tbl.vals s.groups ++ saved).flatMap fun g => Tbl.vals g.binds
  (bs.filter fun b => b.members.any fun p => s.cellOf p == k).foldl (fun st b =>
    st.abortInst b.gid (((List.range b.seq).find? fun n => !st.instComplete b n).getD b.seq) 0x42 false) s

/-- Recovery starts for a dead cell (24 R432, R433, R436). -/
def State.startRecovery (s : State) (k : Nat) : State :=
  let f := s.fabric
  let inK (p : Nat) : Bool := s.cellOf p == k
  let gone := (Tbl.keys s.memsys.l2).filter fun sec => s.remote (sec * 32) && inK (homeOf (sec * 32))
  let s1 := gone.foldl (fun st sec => st.dropCopies (sec / 4)) s
  let ended (r : Req) : Req := if inK (homeOf r.pa) && (r.resp.map fun x => x.1 == 0xFF).getD true then { r with resp := some (if r.isAtomic then 0x35 else 0x34, []) } else r
  let free (x : Extent) : Extent := if x.st ≠ 0 ∧ x.cell = k then { x with st := 0, ack := true } else x
  let s2 := { s1 with fabric := { f with
    dom := Tbl.mapV (fun d : DomEnt => if d.cell = k then { d with dead := true } else d) f.dom
    deadMask := withBit f.deadMask k true
    reqs := f.reqs.map ended
    backs := f.backs.filter fun b => !inK (homeOf b.pa)
    recalled := f.recalled.filter fun r => !inK r.2.1
    extents := Tbl.mapV free f.extents
    recCell := k, recActive := true, sweep := Tbl.keys f.dir } }
  let s3 := s2.setTrack { s2.track with far := s2.track.far.filter fun f => !inK f.pkg }
  (s3.graceDeath k).breakBindings k

/-- The death interval of a cell has passed since it was last heard (24 R431). -/
def State.silent (s : State) (k : Nat) : Bool := decide (Tbl.getD s.fabric.heard k 0 + 1000 * s.fabric.tdead ≤ s.time)

/-- `CELL_DEATH_DECLARE` (24 R431): a cell that has been silent, its links down, is declared dead. -/
def execCellDeathDeclare (cell : Nat) (s : State) : Host.Outcome State Fault Refusal :=
  event s <|
    if s.fabric.en && cell < 64 && cell != s.ownCell && !s.fabric.deadMask.getLsbD cell && s.silent cell then
      some ((s.emit (.death cell)).startRecovery cell)
    else none

/-- `DEATH_MESSAGE` (24 R431): recovery starts with the first notice of a death. -/
def execDeathMessage (cell : Nat) (s : State) : Host.Outcome State Fault Refusal :=
  event s (if s.fabric.en && cell < 64 && cell != s.ownCell && !s.fabric.deadMask.getLsbD cell then some (s.startRecovery cell) else none)

/-- `DIRECTORY_SWEEP` (24 R433): up to 64 entries on each of four dies; with none left the sweep ends. -/
def execDirectorySweep (s : State) : Host.Outcome State Fault Refusal :=
  event s <|
    if !s.fabric.recActive then none
    else
      let s1 := (s.fabric.sweep.take 256).foldl State.sweepFirst s
      some { s1 with fabric := { s1.fabric with recActive := !s1.fabric.sweep.isEmpty } }

/-- `HEARTBEAT` (24 R431): the package's own is sent, another cell's is noted and relayed. -/
def execHeartbeat (cell : Nat) (s : State) : Host.Outcome State Fault Refusal :=
  event s <|
    if !s.fabric.en then none
    else if cell = s.ownCell then some (s.emit .heartbeat)
    else some ({ s with fabric := { s.fabric with heard := Tbl.setD s.fabric.heard cell s.time 0 } }.emit .heartbeat)

/-- `LINK_DOWN_OR_RETURN` (24 R431). -/
def execLinkDownOrReturn (port : Nat) (up : Bool) (s : State) : Host.Outcome State Fault Refusal :=
  event s (if port < 24 then some { s with fabric := { s.fabric with ports := Tbl.setD s.fabric.ports port up true } } else none)

/-- `SELF_ISOLATION` (24 R431): no package outside the own cell has been heard for TDEAD: issue stops on every die, and every context is
removed with event 2. -/
def execSelfIsolation (s : State) : Host.Outcome State Fault Refusal :=
  event s <|
    let outside := (s.fabric.dom.filter fun p : Nat × DomEnt => p.2.valid && p.2.cell != s.ownCell).map fun p => p.2.cell
    if !s.fabric.en || outside.isEmpty || !outside.all s.silent then none
    else
      let k := s.ownCell
      let f := s.fabric
      let s1 := [0, 1, 2, 3].foldl (fun st d => st.setDie d { st.die d with stopped := true }) s
      let s2 := { s1 with fabric := { f with deadMask := withBit f.deadMask k true, dom := Tbl.mapV (fun d : DomEnt => if d.cell = k then { d with dead := true } else d) f.dom } }
      some ((Tbl.keys s2.ctxs).foldl (fun st q => st.askRemoval q) s2)

/-! ### Extents (24 R434 to R436) -/

def State.setExtent (s : State) (e : Nat) (x : Extent) : State :=
  { s with fabric := { s.fabric with extents := Tbl.setD s.fabric.extents e x .reset } }

/-- A write of EXT (24 R434, R436): ACK clears where 1 is written; LEND in HOME, WITHDRAW in LENT; of a dead borrower the extent is HOME at
once. -/
def State.writeExt (s : State) (ext v : Nat) : State :=
  let x := s.extent ext
  let x1 := if bitOf v 10 then { x with ack := false } else x
  let x2 := if bitOf v 8 && x.st == 0 then { x1 with st := 1, cell := bitsOf v 2 6 }
    else if bitOf v 9 && x.st == 1 then
      if s.fabric.deadMask.getLsbD x.cell then { x1 with st := 0, ack := true } else { x1 with st := 2 }
    else x1
  if 696 < ext then s else s.setExtent ext x2

/-- `LEND` (24 R434). -/
def execLend (ext : Nat) (value : BitVec 64) (s : State) : Host.Outcome State Fault Refusal :=
  event s (some (s.writeExt ext (value.toNat % 2 ^ 8 + 2 ^ 8)))

/-- `WITHDRAW` (24 R435). -/
def execWithdraw (ext : Nat) (s : State) : Host.Outcome State Fault Refusal := event s (some (s.writeExt ext (2 ^ 9)))

/-- `WITHDRAW_COMPLETE` (24 R435): copies held outside the own cell are recalled; with none left the extent becomes HOME and ACK is set. -/
def execWithdrawComplete (ext : Nat) (s : State) : Host.Outcome State Fault Refusal :=
  let x := s.extent ext
  event s <|
    if x.st ≠ 2 then none
    else
      let asks := (s.entriesIn (ext * 2 ^ 30) (2 ^ 30)).filterMap fun p =>
        let qs := (s.holders p.2).filter fun q => s.cellOf q != s.ownCell
        if qs.isEmpty then none else some (p.1, qs)
      if asks.isEmpty then some (s.setExtent ext { x with st := 0, ack := true })
      else some (asks.foldl (fun st a => (st.askHolders (α := Unit) a.1 a.2 false).state) s)

end Sys2Proof.Machine
end

