-- ==== Sys2Proof/Machine/Escape.lean ====
section
/-! DEFINITION. The escapement (11 R190 to R195). -/

namespace Sys2Proof.Machine

/-- CAP of a core (11 R190). -/
def State.capOf (s : State) (core : Nat) : Nat := (s.coreSt core).l1Lines

/-- The units of a core: its groups that are no shadows, by slot. -/
def State.units (s : State) (core : Nat) : List (Nat × Group) := (s.groupsOn core).filter fun p => p.2.leader.isNone

/-- The weight of a unit (11 R190). -/
def State.weight (s : State) (core : Nat) (g : Group) : Nat := Nat.min g.lease (s.capOf core)

/-- SUM of a core (11 R190). -/
def State.sumOf (s : State) (core : Nat) : Nat :=
  (((s.units core).filter fun p => p.2.act.st != .parked).map fun p => s.weight core p.2).sum

/-- A member of a barrier instance that others have arrived at, and it has not (11 R195 cause 1). -/
def State.barrierCause (s : State) (core : Nat) (g : Group) : Bool :=
  let i := g.ids
  let inGrid : Bool := match g.block, s.gridOf i with
    | .bar .grid gen, some d => gen == d.gen
    | _, _ => false
  ((s.team? core i.teamSlot).map fun t => t.arr != 0 && !t.arr.getLsbD i.grpid).getD false ||
    ((s.clusterOf i).map fun c => !c.2.arr.isEmpty && !c.2.arr.contains (i.teamid, i.grpid)).getD false ||
    ((s.gridOf i).map fun d => d.arr != 0 && !inGrid).getD false

/-- A running group of its team waits for a command that a token holds back (11 R195 cause 2). -/
def State.tokenCause (s : State) (core : Nat) (g : Group) : Bool :=
  (s.units core).any fun p => sameTeam p.2.ids g.ids && (p.2.act.st == .active || p.2.act.st == .forced) && match p.2.block with
    | .wait path thr => (s.heldToken core p.1 p.2 path thr).isSome
    | .cwait _ _ => (s.heldToken core p.1 p.2 .cl 0).isSome
    | _ => false

/-- A group in REGROUP names it (11 R195 cause 3). -/
def State.regroupCause (s : State) (core : Nat) (g : Group) : Bool :=
  (s.units core).any fun p => sameTeam p.2.ids g.ids && (p.2.ent 0).st == .regroup && (p.2.meet.map fun m => m.1) == some g.ids.grpid

/-- The lowest forcing cause that holds for a unit; 0 for none (11 R195). -/
def State.forcing (s : State) (core : Nat) (g : Group) : Nat :=
  if s.barrierCause core g then 1 else if s.tokenCause core g then 2 else if s.regroupCause core g then 3 else if g.act.sole then 4 else 0

/-- A unit's activation state set. -/
def State.setAct (s : State) (core slot : Nat) (f : Act → Act) : State := s.updGroup core slot fun g => { g with act := f g.act }

/-- Forcing causes that have arisen or ended (11 R195). -/
def State.applyForcing (s : State) (core : Nat) : State :=
  (s.units core).foldl (fun t p =>
    let c := s.forcing core p.2
    match p.2.act.st with
    | .parked | .active => if c ≠ 0 then t.setAct core p.1 fun a => { a with st := .forced, aged := 0 } else t
    | .forced => if c = 0 then t.setAct core p.1 fun a => { a with st := .active } else t
    | .ending => t) s

/-- One unit stands before another: an aged one that is the oldest, then by priority, then by age stamp (11 R191, R194). -/
def State.unitBefore (s : State) (oldest : Option Nat) (a b : Nat × Group) : Bool :=
  let pa := s.prioOf a.2.ids.queue
  let pb := s.prioOf b.2.ids.queue
  if oldest = some a.1 then true
  else if oldest = some b.1 then false
  else if pa ≠ pb then pb < pa
  else a.2.act.stamp < b.2.act.stamp

/-- The unit of a list with the lowest age stamp. -/
def oldestOf (l : List (Nat × Group)) : Option (Nat × Group) :=
  l.foldl (fun m p => match m with
    | none => some p
    | some q => if p.2.act.stamp < q.2.act.stamp then some p else some q) none

/-- An element put into a list before the first that it stands before. -/
def insertBy {α : Type} (before : α → α → Bool) (x : α) : List α → List α
  | [] => [x]
  | y :: t => if before x y then x :: y :: t else y :: insertBy before x t

/-- Units in the order of R191 and R194; those of one priority and one age stamp in the order of their slots (log entry 98). -/
def State.inOrder (s : State) (l : List (Nat × Group)) : List (Nat × Group) :=
  let oldest := (oldestOf (l.filter fun p => p.2.act.st == .parked && p.2.act.aged != 0)).map fun p => p.1
  l.foldl (fun acc x => insertBy (s.unitBefore oldest) x acc) []

/-- A unit is activated. -/
def State.activate (s : State) (core slot : Nat) (byAge : Option Nat) : State :=
  s.setAct core slot fun a => { a with st := .active, aged := 0, byAge := byAge }

/-- ACTIVE units parked, the last in order first, until a unit fits or none is left that may be parked (11 R194). -/
def State.parkFor (s : State) (core w : Nat) : Nat → State
  | 0 => s
  | n + 1 =>
    if s.sumOf core + w ≤ s.capOf core then s
    else
      let age := (s.coreSt core).escAge * 256
      let may := (s.units core).filter fun p => p.2.act.st == .active && !((p.2.act.byAge.map fun t => decide (s.cycle < t + age)).getD false)
      match (s.inOrder may).getLast? with
      | none => s
      | some p => (s.setAct core p.1 fun a => { a with st := .parked, since := s.cycle, aged := 0, byAge := none }).parkFor core w n

/-- The overdue units, oldest age stamp first (11 R194). -/
def State.admitOverdue (s : State) (core : Nat) : Nat → State
  | 0 => s
  | n + 1 =>
    match oldestOf ((s.units core).filter fun p => p.2.act.st == .parked && p.2.act.aged == 2) with
    | none => s
    | some p => ((s.parkFor core (s.weight core p.2) 64).activate core p.1 (some s.cycle)).admitOverdue core n

/-- The pass of R192 over the PARKED units in order: the first that does not fit ends it. -/
def State.letIn (s : State) (core : Nat) : List (Nat × Group) → State
  | [] => s
  | p :: rest => if s.sumOf core + s.weight core p.2 ≤ s.capOf core then (s.activate core p.1 none).letIn core rest else s

/-- The PARKED units of a core in order. -/
def State.parkedUnits (s : State) (core : Nat) : List (Nat × Group) := s.inOrder ((s.units core).filter fun p => p.2.act.st == .parked)

/-- The sole-group rule (11 R193): where no unit may issue, the first PARKED one is activated whatever its weight. -/
def State.soleRule (s : State) (core : Nat) : State :=
  if (s.units core).any fun p => p.2.act.st == .active || p.2.act.st == .forced then s
  else match s.parkedUnits core with
    | [] => s
    | p :: _ => s.setAct core p.1 fun a => { a with st := .forced, sole := true, aged := 0 }

/-- `ESCAPEMENT_EVALUATION` (11 R191 to R195). -/
def execEscapementEvaluation (core : Nat) (s : State) : Host.Outcome State Fault Refusal :=
  let s1 := (s.applyForcing core).admitOverdue core 64
  event s (some ((s1.letIn core (s1.parkedUnits core)).soleRule core))

/-- `AGEING_TIME_REACHED` (11 R194): a PARKED unit becomes aged, then overdue. -/
def execAgeingTimeReached (core slot : Nat) (s : State) : Host.Outcome State Fault Refusal :=
  event s <| do
    let g ← s.group? core slot
    let age := (s.coreSt core).escAge * 256
    let parked := s.cycle - g.act.since
    if g.act.st != .parked || g.leader.isSome then none
    else if 2 * age ≤ parked ∧ g.act.aged ≠ 2 then some (s.setAct core slot fun a => { a with aged := 2 })
    else if age ≤ parked ∧ g.act.aged = 0 then some (s.setAct core slot fun a => { a with aged := 1 })
    else none

end Sys2Proof.Machine
end

