-- ==== Sys2Proof/Machine/Fetch.lean ====
section
/-! DEFINITION. What a turn of issue does before and after the word itself: whether the fragment may issue (11 R190, R199; 14 R257), the
clause start (03 R39; 07 R119), the fetch (03 R52, R53), comparators and single steps (14 R266, R267). -/

namespace Sys2Proof.Machine

/-- The group may issue or go on from what it is blocked on: it is activated, it is not stopped, no record of it waits, no fault of it has
been found and not yet taken, a restart waits for nothing, no save or removal of its context is under way, and its die issues (11 R190; 12 R210;
14 R252, R255, R257, R268; 23 R412, R413). In a single step one entry alone issues (14 R267). A shadow runs on to its leader's position,
after its leader's end too (11 R190; 14 R268, R270). -/
def State.mayIssue (s : State) (core : Nat) (g : Group) (k : Nat) : Bool :=
  let lead := (g.leader.bind fun l => s.group? core l).getD g
  let active := lead.act.st == .active || lead.act.st == .forced || (g.leader.isSome && lead.act.st == .ending && !lead.trace.isEmpty)
  let free (x : Group) : Bool :=
    (x.dbg.stepping.map fun y => y.1) == some k || (x.dbg.nonstop && x.dbg.run == .debugger) ||
      (x.dbg.run == .running && x.stops.unwritten.isEmpty && x.stops.unserved.isEmpty)
  let issues : Bool := s.ctxMoves g.ids.queue && !s.ctl.held && !(s.die (core / 96)).stopped
  active && free g && (g.ent k).st == .running && !(g.inflight.any fun o => o.fault.isSome) && !(g.again && !g.inflight.isEmpty) &&
    (if g.leader.isNone then issues else !lead.trace.isEmpty || (free lead && issues))

/-- A wake condition of a `sleep` holds (14 R264). -/
def State.awake (s : State) (g : Group) (imm : BitVec 32) (deadline : Option Nat) : Bool :=
  let r := (s.ctx g.ids.queue).regs
  (deadline.map fun d => decide (d ≤ s.time)).getD false || (bitOf imm.toNat 20 && r.head != r.tail) || (bitOf imm.toNat 21 && s.ctl.inFull)

/-- The fragment's group with what it is blocked on passed, if the block is over (12 R227, 14 R264, 22 R391, 25 R443, R445). A barrier's
release is an event of its own. -/
def State.passBlock (s : State) (core slot : Nat) (g : Group) : Option State :=
  match g.block with
  | .none | .stall _ _ => some s
  | .wait p thr =>
    if g.ctr p ≤ thr then
      let g1 := { g with block := .none }
      some ((s.setGroup core slot g1).passWait g1 p)
    else none
  | .gwait sc target => s.passGwait core slot g sc target
  | .cstart h cmd _ => s.passCstart core slot g h cmd
  | .cwait h _ => s.passCwait core slot g h
  | .sleep imm d => if s.awake g imm d then some (s.setGroup core slot { g with block := .none }) else none
  | .bar _ _ => none

/-- A word of the program, read as a cached fetch of the context (12 R206, R208). -/
def State.fetch (s : State) (core q : Nat) (mon : Bool) (addr : Nat) : Chk Nat :=
  if vaEnd ≤ addr then .fault s (.addr 0x11 addr)
  else
    Try.lane ((s.translate core q mon ⟨false, false, true, some .cached⟩ addr).bind fun s1 p => s1.cachedRead (some q) p.1 8) 255 addr

/-- A fragment of a group that a breakpoint in non-stop mode leaves running waits on a stopped one (14 R266): in ARRIVED for a join that
needs it, or in REGANG. -/
def Group.waitsOnStopped (g : Group) (k : Nat) : Bool :=
  let e := g.ent k
  let held (j : Nat) : Bool := (g.ent j).st == .stopped
  match e.st with
  | .regang => g.live.any held
  | .arrived => (e.join && held e.keeper) || g.live.any fun j => (g.ent j).join && (g.ent j).keeper == k && held j
  | _ => false

/-- The fragments that wait on stopped ones become STOPPED, one after another (14 R266). -/
def Group.holdWaiters : Nat → Group → Group
  | 0, g => g
  | n + 1, g =>
    match g.live.find? g.waitsOnStopped with
    | some k => Group.holdWaiters n (g.holdEntry k)
    | none => g

/-- In a group that a breakpoint in non-stop mode leaves running, the fragments that wait on a stopped one become STOPPED (14 R266). -/
def Group.settleStops (g : Group) : Group := if g.dbg.nonstop && g.dbg.run == .debugger then g.holdWaiters 32 else g

/-- A fragment at its RECONV becomes ARRIVED and joins (07 R119, R127). -/
def Group.arrive (g : Group) (k : Nat) : Group :=
  (((g.setEnt k { g.ent k with st := .arrived }).joins 32).collapse).settleStops

/-- The start of a clause (03 R39, R52; 07 R119): arrival, the header's fetch and checks, then WAIT. -/
def State.startClause (s : State) (core slot k : Nat) : State :=
  match s.group? core slot with
  | none => s
  | some g =>
    let e := g.ent k
    if e.reconv ≠ 0 ∧ e.reconv = e.pos.caddr then s.setGroup core slot (g.arrive k)
    else
      match s.fetch core g.ids.queue g.mon e.pos.caddr with
      | .wait s1 => s1
      | .fault s1 f => s1.takeFault core slot k e.pos f
      | .ok s1 w =>
        let h := Header.ofWord (BitVec.ofNat 64 w)
        match h.cause with
        | some c => s1.takeFault core slot k e.pos (.word c)
        | none =>
          let waits := (List.range 12).filter fun f => h.wait.getLsbD f
          if waits.any fun f => s1.flagSet core slot g f then s1.setGroup core slot { g with block := .stall 3 h.wait.toNat }
          else
            (s1.setGroup core slot { g.setEnt k { e with pos := ⟨e.pos.caddr, 1⟩ } with block := .none }).observe g fun c =>
              c.flag.any fun f => waits.contains f

/-- `CLAUSE_START` (03 R39): a fragment at a clause start that may issue. -/
def execClauseStart (core slot entry : Nat) (s : State) : Host.Outcome State Fault Refusal :=
  event s <| do
    let g ← s.group? core slot
    if !s.mayIssue core g entry then none
    else
      let s1 ← s.passBlock core slot g
      let g1 ← s1.group? core slot
      if s1.mayIssue core g1 entry && (g1.ent entry).pos.slot == 0 then some (s1.startClause core slot entry) else some s1

/-- `UNASSIGNED_OPCODE` (05 R74): an illegal instruction at the position of the issuing fragment. -/
def execUnassignedOpcode (_op : BitVec 8) (s : State) : Host.Outcome State Fault Refusal :=
  event s <| do
    let g ← s.group? s.cur.core s.cur.slot
    some (s.takeFault s.cur.core s.cur.slot s.cur.entry (g.ent s.cur.entry).pos (.word 0x01))

/-! ### Comparators and steps (14 R266, R267) -/

/-- The first comparator that an entry meets (14 R266). -/
def Group.comparator (g : Group) (k : Nat) : Option Nat :=
  let e := g.ent k
  if g.dbg.pass.contains (k, e.pos) || e.mask &&& g.dbg.lanes == 0 then none
  else (List.range 4).find? fun i =>
    let b := (g.dbg.bp.getD i 0).toNat
    bitOf b 58 && bitsOf b 0 58 == e.pos.code

/-- A breakpoint stop: the entry goes on at `after`; in all-stop mode every entry is held, else the firing one (14 R266). While a record
of the group waits, the entry is held at the instruction. -/
def State.breakStop (s : State) (core slot k : Nat) (pos after : Pos) (f : FaultInfo) : State :=
  match s.group? core slot with
  | none => s
  | some g =>
    if g.ownRecord then
      s.setGroup core slot { (g.setEnt k { g.ent k with pos := pos }).holdEntry k with dbg := { g.dbg with stepping := none, cause := f.cause } }
    else
      (s.takeStop core slot k pos after .debugger f).updGroup core slot fun g => if g.dbg.nonstop then (g.holdEntry k).holdWaiters 32 else g.holdAll

/-- `COMPARATOR_BREAKPOINT` (14 R266): before the instruction issues. -/
def execComparatorBreakpoint (core slot entry : Nat) (s : State) : Host.Outcome State Fault Refusal :=
  event s <| do
    let g ← s.group? core slot
    let i ← g.comparator entry
    if s.mayIssue core g entry then
      let p := (g.ent entry).pos
      some ((s.breakStop core slot entry p p ⟨0x60, 255, 0, 0, i + 1⟩).updGroup core slot fun g =>
        { g with dbg := { g.dbg with pass := g.dbg.pass ++ [(entry, p)] } })
    else none

/-- The stop at the end of a single step (14 R267): the entries it left RUNNING are held again with cause 0x61. A record that waits
stands for it. -/
def State.stopStep (s : State) (core slot k : Nat) (pos : Pos) (left : List Nat) : State :=
  match s.group? core slot with
  | none => s
  | some g =>
    let s1 := if g.ownRecord then s.updGroup core slot fun g => { g with dbg := { g.dbg with cause := 0x61 } }
      else s.takeStop core slot k pos (g.ent k).pos .debugger (.word 0x61)
    s1.updGroup core slot fun g => { left.foldl Group.holdEntry g with dbg := { g.dbg with stepping := none } }

/-- What follows the word of a single step (14 R267): a step that blocks ends with its block, another at once. -/
def State.endStep (s : State) (core slot : Nat) (before : Group) (k : Nat) : State :=
  match s.group? core slot with
  | none => s
  | some g =>
    if g.dbg.stepping ≠ some (k, false) then s
    else if g.block ≠ .none then s.setGroup core slot { g with dbg := { g.dbg with stepping := some (k, true) } }
    else s.stopStep core slot k (before.ent k).pos
      (g.live.filter fun j => (g.ent j).st == .running && (j == k || (before.ent j).st == .free))

/-! ### A turn of issue -/

/-- The word at a fragment's position, with the state that issues it. -/
inductive Fetched where
  | word (s : State) (i : Instr)
  | unassigned (s : State) (op : BitVec 8)
  | stop (s : State)

/-- The header and the word at a fragment's position (03 R52, R53): what encoding checks the word fails by itself, else its
instruction. -/
def State.fetchWord (s : State) (core slot k : Nat) (g : Group) : Fetched :=
  let e := g.ent k
  match s.fetch core g.ids.queue g.mon e.pos.caddr with
  | .wait s1 => .stop s1
  | .fault s1 f =>
    -- the fault names the word being fetched (03 R50); while a record waits, the fragment stays at the word it stands at
    let waits := ((g.leader.bind fun l => s1.group? core l).getD g).ownRecord
    .stop (s1.takeFault core slot k (if waits then e.pos else ⟨e.pos.caddr, 0⟩) f)
  | .ok s1 hw =>
    let h := Header.ofWord (BitVec.ofNat 64 hw)
    let s2 := { s1 with cur := { core := core, slot := slot, entry := k, flag := h.flagOf e.pos.slot, len := h.len, region := h.region } }
    match s2.fetch core g.ids.queue g.mon e.pos.addr with
    | .wait s3 => .stop s3
    | .fault s3 f => .stop (s3.takeFault core slot k e.pos f)
    | .ok s3 w =>
      let word := BitVec.ofNat 64 w
      match decode word with
      | .ok i => .word s3 i
      | .error (.unassigned op) => .unassigned s3 op
      | .error err =>
        let c := if needsMonitor word && !g.mon then 0x03 else match err with
          | .reservedField => 0x02
          | _ => 0x01
        .stop (s3.takeFault core slot k e.pos (.word c))

/-- The group has issued the word it stood at: it is not waiting at it. -/
def Group.issued (g : Group) : Bool :=
  match g.block with
  | .stall _ _ => false
  | _ => true

/-- The word holds its flag by what it leaves in flight (02 R24): an operation, a command or a status. Every other word completes one cycle
after it issues (03 R41). -/
def holdsByItself : Instr → Bool
  | .ld .. | .st .. | .ldu .. | .stu .. | .lds .. | .sts .. | .atom .. | .atomu .. | .atoms .. | .cln .. | .inv .. | .clninv .. | .srsv ..
  | .srel .. | .bload .. | .cbt .. | .mma .. | .szero .. | .srd .. | .swr .. | .sst .. | .cpy .. | .gath .. | .scat .. | .fill .. | .pim ..
  | .rowcp .. | .rowz .. | .cgrp .. | .cstart .. | .red .. | .csrr .. | .csrw .. | .resume .. | .dbg .. | .halt .. => true
  | _ => false

/-- The hold of an attached word of fixed latency that has issued with a lane or a true guard (03 R41). `e` is the entry at its issue; holds
that have ended go. -/
def State.holdFlag (s : State) (core slot : Nat) (before : Group) (e : Entry) (i : Instr) : State :=
  let new := if holdsByItself i || (before.readers e i).isNone then [] else (s.cur.flag.map fun f => (f, s.cycle)).toList
  s.updGroup core slot fun g => { g with holds := (g.holds.filter fun h => s.cycle ≤ h.2 + 1) ++ new }

/-- A shadow's word that it does not execute itself (14 R270): once it has issued, its position leaves the leader's trace. -/
def State.shadowWord (s : State) (core slot : Nat) (g : Group) (i : Instr) : State :=
  let t := ((s.enterRegion i).shadowIssue i).undoRegion s
  if ((t.group? core slot).map Group.issued).getD false then (t.holdFlag core slot g (g.ent s.cur.entry) i).popTrace core g else t

/-- What a turn of issue does: an event of the fragment, or a word to execute. -/
inductive Plan where
  | idle
  /-- A step of the fragment that is not a word: a clause start, a breakpoint. -/
  | run (s : State) (i : Instr)
  /-- A word, to be executed after its region entry. -/
  | word (s : State) (i : Instr)
  /-- Done without a word. -/
  | done (s : State)

/-- The plan of a turn of issue for a fragment. The clause is taken for 15 words until its header has been read. -/
def State.plan (s : State) (core slot k : Nat) : Plan :=
  match s.group? core slot with
  | none => .idle
  | some g0 =>
    if !s.mayIssue core g0 k then .idle
    else match (s.passBlock core slot g0).bind fun s0 => (s0.group? core slot).map fun g => (s0, g) with
    | none => .idle
    | some (s0, g) =>
      if g.dbg.stepping = some (k, true) then .done (s0.stopStep core slot k g.blockPos [k])
      else if !s0.mayIssue core g k then .done s0
      else if (g.comparator k).isSome then .run s0 (.comparatorBreakpoint core slot k)
      else if (g.ent k).pos.slot = 0 then .run s0 (.clauseStart core slot k)
      else
        let s2 := { s0 with cur := { core := core, slot := slot, entry := k, flag := none, len := 15, region := false } }
        match s2.shadowGate g k with
        | .hold => .idle
        | .mismatch => .done (s0.restartPair core (g.leader.getD slot) ((g.leader.bind fun l => s0.group? core l).getD g))
        | .go =>
          match s2.fetchWord core slot k g with
          | .stop s1 => .done s1
          | .unassigned s1 op => .run s1 (.unassignedOpcode op)
          | .word s1 i =>
            match s1.leaderGate g k i with
            | .hold => .done s1
            | .mismatch => .done (s1.restartPair core slot g)
            | .go =>
              if g.leader.isSome ∧ shadowRole i ≠ .pure then .done (s1.shadowWord core slot g i) else .word s1 i

/-- What an issue means to the context's waiting count and to the units that the sole-group rule forced (21 R378, 11 R195). -/
def State.noteIssue (s : State) (core slot : Nat) (g : Group) : State :=
  let c := s.ctx g.ids.queue
  let s1 := if g.mon ∨ c.waiting = 0 then s else s.setCtx g.ids.queue { c with waiting := 0 }
  let unit := g.leader.getD slot
  ((s1.units core).filter fun p => p.2.act.sole && p.1 != unit).foldl (fun st p => st.setAct core p.1 fun a => { a with sole := false }) s1

/-- What follows a word (03 R41; 14 R266, R267, R270): a stalled word has opened no region; an issued one is traced, holds its flag, passes its
comparator and ends a step. -/
def State.afterWord (t s : State) (i : Instr) : State :=
  let c := s.cur
  match s.group? c.core c.slot with
  | none => t
  | some before =>
    let t1 := t.undoRegion s
    match t1.group? c.core c.slot with
    | none => t1
    | some g =>
      if !g.issued then t1
      else
        let p := (before.ent c.entry).pos
        let t2 := t1.updGroup c.core c.slot fun g =>
          { (if g.dbg.run = .faulted then g else g.traced p) with dbg := { g.dbg with pass := g.dbg.pass.filter (· != (c.entry, p)) } }
        let t3 := (if g.dbg.run = .faulted then t2 else t2.holdFlag c.core c.slot before (before.ent c.entry) i).popTrace c.core before
        ((t3.endStep c.core c.slot before c.entry).updGroup c.core c.slot Group.settleStops).noteIssue c.core c.slot before

end Sys2Proof.Machine
end

