-- ==== Sys2Proof/Machine/System.lean ====
section
/-! DEFINITION. System instructions of stops, debug and sleep (14 R259, R262 to R264, R267). -/

namespace Sys2Proof.Machine

/-- `trap` (14 R259): a stop of class S where a lane is active. -/
def execTrap (gd : Guard) (imm : BitVec 32) (s : State) : Host.Outcome State Fault Refusal :=
  lanewise (.trap gd imm) gd s fun _ e ls =>
    if ls.isEmpty then .done s
    else .control (s.takeStop s.cur.core s.cur.slot s.cur.entry e.pos (e.pos.next s.cur.len) .faulted ⟨0x62, 255, 0, imm.toNat, 0⟩)

/-- `brk` (14 R259, R266): a breakpoint stop where a lane is active. -/
def execBrk (gd : Guard) (imm : BitVec 32) (s : State) : Host.Outcome State Fault Refusal :=
  lanewise (.brk gd imm) gd s fun _ e ls =>
    if ls.isEmpty then .done s
    else .control (s.breakStop s.cur.core s.cur.slot s.cur.entry e.pos (e.pos.next s.cur.len) ⟨0x60, 255, 0, imm.toNat, 0⟩)

/-! ### `dbg` (14 R262) -/

/-- An access will write a register: a vector register of a lane, or, at lane 255, a scalar one. -/
def Access.writesReg (a : Access) (lane n : Nat) : Bool :=
  match a.op with
  | .load sz l r => l == lane && r ≤ n && n < r + sz.width
  | .atomic _ ty _ _ _ post l r => !post && l == lane && r ≤ n && n < r + ty.width
  | _ => false

/-- A register write is to a register, as for `Access.writesReg`. -/
def RegWrite.to (w : RegWrite) (lane n : Nat) : Bool :=
  match w with
  | .vec l r _ => l == lane && r == n
  | .sca r _ => lane == 255 && r == n

/-- A variable-latency result to a register is pending (14 R262). -/
def State.pendingWrite (s : State) (core slot : Nat) (g : Group) (lane n : Nat) : Bool :=
  g.inflight.any (fun o => o.todo.any (fun a => a.writesReg lane n) || o.writes.any fun w => w.to lane n) ||
    g.statuses.any (fun o => lane == 255 && o.reg == n) ||
    (s.cmdsOf core slot).any fun c => !c.done && match c.op with
      | .srsv _ _ d => lane == 255 && d == n
      | .cgrp d _ => lane == 255 && d == n
      | _ => false

/-- The register that a selector names (14 R262): kind, number and lane; none where it names none of the group. -/
def Group.selected (g : Group) (sel : Nat) : Option (Nat × Nat × Nat) :=
  let n := bitsOf sel 0 8
  let kind := bitsOf sel 8 3
  let lane := bitsOf sel 11 5
  let ok := match kind with
    | 0 => n < g.regs.nvr && lane < g.regs.nlanes
    | 1 => n < 128
    | 2 => n < 16 && lane < g.regs.nlanes
    | 3 => n < 8
    | _ => false
  if ok && bitsOf sel 16 16 == 0 then some (kind, n, lane) else none

/-- A selected register written. -/
def Group.wrSelected (g : Group) (r : Nat × Nat × Nat) (x : Word32) : Group :=
  match r.1 with
  | 0 => g.wrV r.2.2 r.2.1 x
  | 1 => g.wrS r.2.1 x
  | 2 => g.wrP r.2.2 r.2.1 (x.getLsbD 0)
  | _ => g.wrQ r.2.1 (x.getLsbD 0)

/-- A named group changed; a live leader's shadow with it. Of a saved pair the leader's image alone is changed (log entry 32). -/
def State.updNamed (s : State) (n : Named) (f : Group → Group) : State :=
  match n with
  | .live core slot g =>
    let s1 := s.updGroup core slot f
    match g.shadow with
    | some h => s1.updGroup core h f
    | none => s1
  | .saved q place _ =>
    let c := s.ctx q
    s.setCtx q { c with image := c.image.map fun im => { im with groups := im.groups.modify place fun x => { x with g := f x.g } } }

/-- The group that is named. -/
def Named.group : Named → Group
  | .live _ _ g => g
  | .saved _ _ g => g

/-- A pending result of a named group to a register. -/
def State.namedPending (s : State) (n : Named) (r : Nat × Nat × Nat) : Bool :=
  match n, r.1 with
  | .live core slot g, 0 => s.pendingWrite core slot g r.2.2 r.2.1
  | .live core slot g, 1 => s.pendingWrite core slot g 255 r.2.1
  | _, _ => false

/-- `dbg` (14 R262): its statuses in the order of their numbers. -/
def execDbg (gd : Guard) (d a b c : Reg) (s : State) : Host.Outcome State Fault Refusal :=
  uniform (.dbg gd d a b c) gd s fun g _ =>
    match s.named g (g.rdS a.toNat).toNat with
    | none => .status s d.toNat 3
    | some n =>
      if !n.group.stopped then .status s d.toNat 2
      else match n.group.selected (g.rdS b.toNat).toNat with
        | none => .status s d.toNat 3
        | some r => .status (s.updNamed n fun x => x.wrSelected r (g.rdS c.toNat)) d.toNat (if s.namedPending n r then 1 else 0)

/-! ### `halt` (14 R263) -/

/-- The groups that `halt` of every group stops: those in the issuer's reach, saved ones too, but itself and the other monitor groups. -/
def State.haltReach (s : State) (g : Group) : List Named :=
  let handler := s.isHandler s.cur.core s.cur.slot g
  let reach (x : Group) : Bool :=
    x.leader.isNone && !x.mon && (if handler then x.ids.queue == g.ids.queue else s.partNo x.ids.queue == s.partNo g.ids.queue)
  let live := (List.filter (fun p : Nat × Group => reach p.2) s.groups).map fun p => Named.live (p.1 / 64) (p.1 % 64) p.2
  let saved := s.ctxs.flatMap fun c => match c.2.image with
    | some im => (im.groups.zipIdx.filter fun x => reach x.1.g).map fun x => Named.saved c.1 x.2 x.1.g
    | none => []
  live ++ saved

/-- `halt` (14 R263). -/
def execHalt (gd : Guard) (d a : Reg) (s : State) : Host.Outcome State Fault Refusal :=
  uniform (.halt gd d a) gd s fun g _ =>
    let h := (g.rdS a.toNat).toNat
    if h = 0xFFFFFFFF then
      let r := s.haltReach g
      .status (r.foldl (fun t p => t.updNamed p Group.halt) s) d.toNat (if r.any fun p => p.group.haltable then 0 else 2)
    else match s.named g h with
      | none => .status s d.toNat 1
      | some n => .status (s.updNamed n Group.halt) d.toNat (if n.group.haltable then 0 else 2)

/-! ### `sleep` (14 R264) -/

/-- `sleep` (14 R264): a wake bit from user code is refused before the guard is read. -/
def execSleep (gd : Guard) (imm : BitVec 32) (s : State) : Host.Outcome State Fault Refusal :=
  uniform (.sleep gd imm) gd s fun g _ =>
    if imm = 0 then .done s
    else
      let us := bitsOf imm.toNat 0 20
      .group s { g with block := .sleep imm (if us = 0 then none else some (s.time + 1000 * us)) }

/-- `SLEEP_WAKE` (14 R264). -/
def execSleepWake (core slot : Nat) (s : State) : Host.Outcome State Fault Refusal :=
  event s <| do
    let g ← s.group? core slot
    match g.block with
    | .sleep imm d => if s.awake g imm d && g.runs then some (s.setGroup core slot { g with block := .none }) else none
    | _ => none

/-! ### Steps and stops by DBG_CTL (14 R265, R267) -/

/-- A write of STEP: a STOPPED entry goes back to its state for one instruction; another entry's step is refused. -/
def State.debugStep (s : State) (core slot : Nat) : State :=
  s.updGroup core slot fun g =>
    let k := g.dbg.stepEnt
    let e := g.ent k
    if e.st = .stopped then
      { g.setEnt k { e with st := e.former, former := .free } with dbg := { g.dbg with stepping := some (k, false), err := false } }
    else { g with dbg := { g.dbg with err := true } }

/-- A write of STOP: a debug stop, as by `halt`; of a leader and its shadow. -/
def State.debugStop (s : State) (core slot : Nat) : State :=
  match s.group? core slot with
  | some g => s.updNamed (.live core (g.leader.getD slot) ((s.group? core (g.leader.getD slot)).getD g)) Group.halt
  | none => s

/-- `DBG_STEP` (14 R267). -/
def execDbgStep (core slot : Nat) (s : State) : Host.Outcome State Fault Refusal := event s (some (s.debugStep core slot))

/-- `DBG_STOP` (14 R265). -/
def execDbgStop (core slot : Nat) (s : State) : Host.Outcome State Fault Refusal := event s (some (s.debugStop core slot))

end Sys2Proof.Machine
end

