-- ==== Sys2Proof/Machine/Csr.lean ====
section
/-! DEFINITION. Control space (01 R11 to R17, 14 R261, 23 R414): every register's place, reads and writes, `csrr` and `csrw`, and the core's
own operations on CMEM_CFG and XLAT_INV (12 R203, R209). -/

namespace Sys2Proof.Machine

/-! ### The L1 size (12 R202, R203) -/

/-- A core holds a team that declares scratchpad. -/
def State.hasScratch (s : State) (core : Nat) : Bool :=
  (List.range 8).any fun ts => ((s.team? core ts).map fun t => t.nsett != 0).getD false

/-- A write of L1SZ (12 R203): it starts a change, unless one is in progress or it would leave a team with scratchpad too few frames. A
shrinking L1 drops the lines of the SRAM that it gives up. -/
def State.writeCmem (s : State) (core v : Nat) : State :=
  let c := s.coreSt core
  let n := Nat.min 12 (Nat.max 2 (bitsOf v 0 4))
  if c.resize.isSome ∨ n = c.l1sz ∨ (framesAt n < 32 ∧ s.hasScratch core) then s
  else if n < c.l1sz then
    let out := c.lines.length - n * 1024
    s.setCore core ({ c with l1sz := n, resize := some n, lines := c.lines.drop out }.tag (c.lines.take out))
  else s.setCore core { c with resize := some n }

/-- `CMEM_CFG_WRITE` (12 R203). -/
def execCmemCfgWrite (core : Nat) (value : BitVec 64) (s : State) : Host.Outcome State Fault Refusal :=
  event s (if core < 384 then some (s.writeCmem core value.toNat) else none)

/-- `L1_RESIZE_COMPLETE` (12 R203, R216): the setts in the frames that a growing L1 takes are evicted, one at a time; then the change is complete. The
spec does not say which frames the L1 takes: those of the setts that R216 evicts first (log entry 100). -/
def execL1ResizeComplete (core : Nat) (s : State) : Host.Outcome State Fault Refusal :=
  let c := s.coreSt core
  event s <| do
    let n ← c.resize
    let leaving := ((s.settsOf core).filter fun x => x.2.2.st == .spill).length
    if s.framesUsed core ≤ framesAt n then some (s.setCore core { c with l1sz := n, resize := none })
    else if s.framesUsed core ≤ framesAt n + leaving then none
    else match s.victimSett core with
      | none => none
      | some (ts, m, y) => some (if y.st = .res then s.setSett core ts m .absent else s.setSett core ts m { y with st := .spill })

/-! ### Dropping translations (12 R209) -/

/-- A cached translation lies in the range that a value of XLAT_INV names. -/
def TlbEnt.named (t : TlbEnt) (v : Nat) : Bool :=
  let sz := bitsOf v 45 3
  let n := pageBytes sz
  let lo := bitsOf v 0 45 * 4096 / (if n = 0 then 1 else n) * n
  t.ctx == bitsOf v 48 15 && (sz == 7 || (t.base < lo + n && lo < t.base + t.size))

/-- The cores of the partition of a core (21 R381). -/
def State.partCores (s : State) (core : Nat) : List Nat :=
  if s.sched.partEn then
    match (Tbl.vals s.sched.parts).find? fun p => p.has core with
    | some p => (List.range 384).filter p.has
    | none => [core]
  else List.range 384

/-- An operation of a context on a core that was issued before a place in the order and has not completed. -/
def State.usesOld (s : State) (core hw before : Nat) : Bool :=
  (s.groupsOn core).any fun p => s.hwOf p.2.ids.queue == hw && p.2.inflight.any fun o => o.born < before && o.awaits.isNone

/-- A write of XLAT_INV (12 R209): the range's translations are dropped, on every core of the partition with BCAST; the write is complete
once the accesses that used them are. -/
def State.writeXlat (s : State) (core : Nat) (v : Word64) : State :=
  let targets := if bitOf v.toNat 63 then s.partCores core else [core]
  let drop (n : Nat) (c : CoreSt) : CoreSt :=
    if targets.contains n then
      { c with tlb := c.tlb.filter fun t => !t.named v.toNat
               inval := if s.usesOld n (bitsOf v.toNat 48 15) s.nextId then c.inval ++ [(v, s.nextId)] else c.inval }
    else c
  let touched := targets.filter fun n => (Tbl.find? s.cores n).isSome || !(s.groupsOn n).isEmpty
  touched.foldl (fun st n => st.setCore n (drop n (st.coreSt n))) s

/-- `XLAT_INV_WRITE` (12 R209). -/
def execXlatInvWrite (core : Nat) (value : BitVec 64) (s : State) : Host.Outcome State Fault Refusal :=
  event s (if core < 384 then some (s.writeXlat core value) else none)

/-- `XLAT_INV_COMPLETE` (12 R209): no access that used a dropped translation is left. -/
def execXlatInvComplete (core : Nat) (s : State) : Host.Outcome State Fault Refusal :=
  let c := s.coreSt core
  event s <| do
    let x ← c.inval.head?
    if s.usesOld core (bitsOf x.1.toNat 48 15) x.2 then none else some (s.setCore core { c with inval := c.inval.drop 1 })

/-! ### The map (23 R414) -/

/-- A block of control space. -/
inductive CtlBlock where
  | pkg | die | stack | core | cluster | context | port | none
deriving DecidableEq, Repr

/-- The block of an address, its number, and the offset in it. -/
def ctlBlock (a : Nat) : CtlBlock × Nat × Nat :=
  let place (b : CtlBlock) (base size : Nat) : CtlBlock × Nat × Nat := (b, (a - base) / size, (a - base) % size)
  if a < 0x100000 then (.pkg, 0, a)
  else if a < 0x140000 then place .die 0x100000 0x10000
  else if 0x200000 ≤ a ∧ a < 0x2C0000 then place .stack 0x200000 0x10000
  else if 0x1000000 ≤ a ∧ a < 0x1600000 then place .core 0x1000000 0x4000
  else if 0x2000000 ≤ a ∧ a < 0x2180000 then place .cluster 0x2000000 0x1000
  else if 0x3000000 ≤ a ∧ a < 0x3040000 then place .context 0x3000000 0x1000
  else if 0x4000000 ≤ a ∧ a < 0x4180000 then place .port 0x4000000 0x10000
  else (.none, 0, 0)

/-- An address of the firmware range (18 R333, 21 R381, 24 R415, R426, R434). -/
def firmwareRange (a : Nat) : Bool :=
  match ctlBlock a with
  | (.pkg, _, o) =>
    (0x4000 ≤ o && o ≤ 0x4400) || (0x5100 ≤ o && o ≤ 0x5140) || (0xC0000 ≤ o && o < 0xC1000) || (0xC2000 ≤ o && o ≤ 0xC35C0) ||
      o == 0xC5000 || o == 0xC5020 || o == 0xC5028 || o == 0xC5030
  | _ => false

/-! ### Reads (01 R15) -/

/-- A value held at the top of an `n`-bit field. -/
def saturate (x n : Nat) : Nat := Nat.min x (2 ^ n - 1)

/-- An entry of the capability list that stands at an address, as its words: the header, then what its feature defines (01 R16). `next` is the
address of the entry after it. -/
def capWords (e : CapEntry) (next : Nat) : List Nat :=
  (fieldAt (e.id.val + 1) 0 16 + fieldAt (e.ver.val + 1) 16 8 + fieldAt ((e.words.take 254).length + 1) 24 8 + fieldAt (next / 8) 32 32) ::
    (e.words.take 254).map BitVec.toNat

/-- Where the entry after one at `a` stands. -/
def capNext (e : CapEntry) (a : Nat) : Nat := a + 8 * ((e.words.take 254).length + 1) + 8 * e.gap

/-- The entry's words end below 0x4000, where the shape records begin (18 R333). -/
def capFits (e : CapEntry) (a : Nat) : Bool := decide (a + 8 * ((e.words.take 254).length + 1) ≤ 0x4000)

/-- The word at `o` of the capability list whose next entry stands at `a` (01 R16): a place without an entry reads zero (01 R14). -/
def capRead (o : Nat) : Nat → CapEntry → List CapEntry → Nat
  | a, e, rest =>
    let next := match rest with
      | x :: _ => if capFits x (capNext e a) then capNext e a else 0
      | [] => 0
    if o < a then 0
    else if (o - a) / 8 < (capWords e next).length then (capWords e next).getD ((o - a) / 8) 0
    else if next = 0 then 0
    else match rest with
      | x :: more => capRead o next x more
      | [] => 0

/-- Registers of the package block, apart from the tables of the fabric and of grace periods. -/
def State.readPackage (s : State) (o : Nat) : Nat :=
  let m := s.memsys
  if 0x100 ≤ o ∧ o < 0x4000 then capRead o 0x100 Config.capFirst (Config.capRest.take 255)
  else if 0x4000 ≤ o ∧ o < 0x4400 then
    let r := (o - 0x4000) / 16
    if o % 16 = 0 then let h := Tbl.getD m.shapes r .off; fieldAt h.base 0 16 + fieldAt h.units 16 16 + fieldAt h.kind 32 2
    else Tbl.getD m.param r 0
  else if o = 0x4400 then m.shapeBusy.toNat + 2 * m.shapeErr.toNat + 4 * m.shapeErrRec
  else if o = 0x5000 then s.sched.qdtBase + fieldAt s.sched.qdtEn.toNat 63 1
  else if o = 0x5008 then s.sched.age
  else if 0x5100 ≤ o ∧ o < 0x5140 then (Tbl.getD s.sched.parts ((o - 0x5100) / 8) .reset).word
  else if o = 0x5140 then s.sched.partEn.toNat + 2 * s.sched.partErr.toNat
  else if 0x6000 ≤ o ∧ o < 0x6030 then ((s.ctl.mbIn.getD ((o - 0x6000) / 8) 0) : Word64).toNat
  else if 0x6040 ≤ o ∧ o < 0x6070 then ((s.ctl.mbOut.getD ((o - 0x6040) / 8) 0) : Word64).toNat
  else if o = 0x6080 then s.ctl.inFull.toNat + 2 * s.ctl.send.toNat
  else if o = 0x6100 then s.ctl.step + fieldAt s.ctl.fenced.toNat 3 12 + fieldAt s.ctl.fails 15 3 + fieldAt s.lowestSensor.toNat 18 8
  else 0

/-- An entry of the grace table (22 R396): its word 0 or 1. -/
def State.readGrace (s : State) (q w : Nat) : Nat :=
  let c := s.ctx q
  let x := s.graceOf (s.domOf q)
  if w = 0 then
    fieldAt c.rc0 0 16 + fieldAt c.rc1 16 16 + fieldAt x.ph.toNat 32 1 + fieldAt x.busy.toNat 33 1 + fieldAt x.cell.isSome.toNat 34 1 +
      fieldAt x.dom.isSome.toNat 35 1
  else fieldAt x.gcp 0 16 + fieldAt x.gcc 16 16 + fieldAt x.gcd 32 16

/-- Registers of the fabric in the package block (24 R415 to R434). -/
def State.readFabric (s : State) (o : Nat) : Nat :=
  let f := s.fabric
  if o < 0xC1000 then
    let d := s.domEnt ((o - 0xC0000) / 8)
    d.valid.toNat + fieldAt d.cell 1 6 + fieldAt d.cidx 7 3 + fieldAt d.dead.toNat 10 1
  else if o < 0xC1200 then Tbl.getD f.rate ((o - 0xC1000) / 8) 0
  else if 0xC2000 ≤ o ∧ o ≤ 0xC35C0 then
    let x := s.extent ((o - 0xC2000) / 8)
    x.st + fieldAt x.cell 2 6 + fieldAt x.ack.toNat 10 1
  else if o = 0xC5000 then f.en.toNat + fieldAt f.self 1 9 + fieldAt f.tdead 10 20
  else if o = 0xC5008 then fieldAt f.dirqAddr 7 44 + fieldAt f.dirqDone.toNat 63 1
  else if o = 0xC5010 then f.dirqW0.toNat
  else if o = 0xC5018 then f.dirqW1.toNat
  else if o = 0xC5020 then f.fwRm.toNat
  else if o = 0xC5028 then f.fwWm.toNat
  else if o = 0xC5030 then f.fwBlock + fieldAt f.fwBusy.toNat 63 1
  else if o = 0xC5040 then f.recCell + fieldAt f.recActive.toNat 6 1 + fieldAt f.recLost 7 32
  else if o = 0xC5048 then f.deadMask.toNat
  else 0

/-- Registers of a die (18 R340, 23 R412). -/
def Die.read (d : Die) (o : Nat) : Nat :=
  if o = 0x200 then d.cethr + fieldAt d.tlow.toNat 16 8 + fieldAt d.thigh.toNat 24 8 + fieldAt d.force 32 2
  else if o = 0x208 then d.target.toNat + 2 * d.mixed.toNat + fieldAt d.ce 2 32 + fieldAt d.ue 34 30
  else if o = 0x300 then d.fmin + fieldAt d.fmax 7 7
  else if o = 0x308 then d.freq + fieldAt d.stretch 7 32 + fieldAt d.power 39 12
  else 0

/-- Registers of a stack (18 R344, R346). -/
def Stack.read (k : Stack) (o : Nat) : Nat :=
  if o = 0x300 then fieldAt k.lpa 0 51 + fieldAt k.cls 51 2 + fieldAt k.valid.toNat 53 1 + fieldAt k.count 54 10
  else if o = 0x310 then k.ethr + fieldAt k.en.toNat 16 1
  else if o = 0x318 then
    k.chan + fieldAt k.active.toNat 5 1 + fieldAt k.fail.toNat 6 1 + (k.queue.map fun c => 2 ^ (7 + c)).sum + fieldAt k.temp.toNat 39 8 +
      fieldAt k.windows 47 17
  else 0

/-- The state code of an activation state (11 R190). -/
def ActSt.code : ActSt → Nat
  | .parked => 0
  | .active => 1
  | .forced => 2
  | .ending => 3

/-- GACT of a group slot (11 R198); a shadow takes its leader's state. -/
def State.readGact (s : State) (core slot : Nat) : Nat :=
  match s.group? core slot with
  | none => 0
  | some g =>
    let lead := (g.leader.bind fun l => s.group? core l).getD g
    let a := lead.act
    a.st.code + fieldAt (s.forcing core lead) 2 3 + fieldAt (a.aged != 0).toNat 5 1 + fieldAt g.leader.isSome.toNat 6 1 + fieldAt 1 7 1 +
      fieldAt (if a.st = .parked then saturate ((s.cycle - a.since) / 256) 24 else 0) 8 24 + fieldAt (a.stamp / 1024) 32 32

/-- The code of DBG_STAT.RUN (14 R265). -/
def Run.code : Run → Nat
  | .running => 0
  | .faulted => 1
  | .debugger => 2
  | .halted => 3

/-- A debug register of a group slot (14 R265). -/
def State.readDebug (s : State) (core slot o : Nat) : Nat :=
  let g := s.group? core slot
  let d := (g.map fun g => g.dbg).getD .launch
  if o = 0 then d.nonstop.toNat + fieldAt d.stepEnt 2 5
  else if o ≤ 0x20 then ((d.bp.getD (o / 8 - 1) 0) : Word64).toNat
  else if o = 0x28 then d.lanes.toNat
  else if o = 0x30 then
    d.run.code + fieldAt d.cause 2 8 + fieldAt ((g.map fun g => !s.drained core slot g).getD false).toNat 10 1 + fieldAt d.err.toNat 11 1
  else 0

/-- TTOK and TBAR of a team slot, as its team or, where it holds none, its last one has left them (16 R305, R310). -/
def State.teamWords (s : State) (core ts : Nat) : Nat × Nat :=
  match s.team? core ts with
  | some t => (t.tokWord, t.barWord)
  | none => Tbl.getD (s.coreSt core).past ts (0, 0)

/-- Registers of a team slot: TSMAP, TTOK and TBAR (12 R213, 16 R305, R310). -/
def State.readTeam (s : State) (core o : Nat) : Nat :=
  let ts := o % 64 / 8
  if o < 0xB40 then ((s.team? core ts).map fun t => t.nsett + fieldAt 1 12 1 + t.map).getD 0
  else if o < 0xB80 then (s.teamWords core ts).1
  else (s.teamWords core ts).2

/-- Registers of a core (11 R198, 12 R202, 15 R297). -/
def State.readCore (s : State) (core o : Nat) : Nat :=
  let c := s.coreSt core
  let setts := s.settsOf core
  if o = 0x800 then c.escAge
  else if o = 0x808 then
    let st (g : Group) : ActSt := ((g.leader.bind fun l => s.group? core l).getD g).act.st
    let gs := s.groupsOn core
    fieldAt (s.capOf core) 0 16 + fieldAt (s.sumOf core) 16 20 + fieldAt (gs.filter fun p => st p.2 == .active || st p.2 == .forced).length 36 7 +
      fieldAt (gs.filter fun p => st p.2 == .parked).length 43 7
  else if o = 0xA00 then c.resize.getD c.l1sz + fieldAt c.resize.isSome.toNat 4 1
  else if o = 0xA08 then
    fieldAt c.nframe 0 9 + fieldAt (c.nframe - s.framesUsed core) 9 9 + fieldAt (setts.filter fun x => x.2.2.st == .dirty).length 18 9 +
      fieldAt (setts.filter fun x => x.2.2.st == .fill || x.2.2.st == .spill).length 27 9 + fieldAt c.fills 36 28
  else if 0xB00 ≤ o ∧ o < 0xBC0 then s.readTeam core o
  else if o = 0xC00 then Tbl.getD s.mxAge (benchOf core) 0x40 + fieldAt (s.benchCmds (benchOf core)).length 16 7
  else if 0xC40 ≤ o ∧ o < 0xE40 then
    match (s.group? core ((o - 0xC40) / 8)).bind fun g => g.resv with
    | some r => r.nsl + fieldAt r.wide.toNat 7 1 + fieldAt r.nbed 8 3 + fieldAt r.ncb 11 7 + fieldAt 1 18 1
    | none => 0
  else if 0x1000 ≤ o ∧ o < 0x2000 then s.readDebug core ((o - 0x1000) / 0x40) (o % 0x40)
  else if 0x2000 ≤ o ∧ o < 0x2200 then s.readGact core ((o - 0x2000) / 8)
  else 0

/-- Registers of the cluster whose corner is a core (16 R300, R313). -/
def State.readCluster (s : State) (origin o : Nat) : Nat :=
  match (Tbl.vals s.clusters).find? fun c => c.origin == origin with
  | none => 0
  | some c =>
    let ids : Ids := ⟨0, 0, c.cluid, 0, c.queue, 0, c.grid, 0⟩
    let ms := s.clusterMembers ids
    let teams := (List.range 12).filter fun t => ms.any fun m => m.1 == t
    if o = 0 then c.rows + fieldAt c.cols 4 4 + fieldAt c.trans.toNat 8 1 + fieldAt c.origin 9 9 + fieldAt 1 18 1
    else if o = 8 then
      ((teams.filter fun t => ms.all fun m => m.1 != t || c.arr.contains m).map fun t => 2 ^ t).sum + (teams.map fun t => 2 ^ (12 + t)).sum +
        fieldAt c.gen 24 16
    else if 0x100 ≤ o ∧ o < 0x300 then
      match c.locks.find? fun l => l.entry == (o - 0x100) / 16 with
      | none => 0
      | some l =>
        if o % 16 = 0 then fieldAt l.lo 0 57 + fieldAt l.sp.toNat 57 1 + fieldAt l.wr.toNat 58 1 + fieldAt 1 59 1 + fieldAt l.team 60 4
        else fieldAt l.hi 0 57 + fieldAt l.slot 57 6 + fieldAt l.disp.toNat 63 1
    else 0

/-- The grid whose barrier GBAR shows: of the context's grids that have not ended the first with an arrival, else the first. -/
def Ctx.barGrid (c : Ctx) : Option Grid :=
  let live := c.grids.filter fun d => !d.ended
  (live.find? fun d => d.arr != 0).or live.head?

/-- Registers of a hardware slot (14 R254, 16 R305, 21 R385, 22 R392, 24 R428). -/
def State.readContext (s : State) (h o : Nat) : Nat :=
  let e := List.find? (fun p : Nat × Ctx => p.2.hw == some h) s.ctxs
  let c := (e.map fun p => p.2).getD .reset
  let r := c.regs
  if o = 0 then r.fqBase
  else if o = 8 then r.fqLogn + fieldAt r.fqEn.toNat 5 1 + fieldAt r.handler 6 15
  else if o = 0x10 then r.head
  else if o = 0x18 then r.tail + fieldAt r.full.toNat 17 1
  else if o = 0x20 then
    match c.barGrid with
    | some d => fieldAt d.arr 0 24 + fieldAt d.live 24 24 + fieldAt d.gen 48 16
    | none => 0
  else if o = 0x28 then
    match e with
    | none => 0
    | some (q, c) =>
      let st := if c.removing.isSome then 4 else if c.save.isSome then 2 else if c.image.isSome then 3 else 1
      q + fieldAt st 14 3 + fieldAt (s.effPrio q) 17 3 + fieldAt (saturate (c.waiting / 1000) 20) 20 20 +
        fieldAt ((c.sliceAt + 250000 * c.desc.slice - s.time) / 1000) 40 24
  else if o = 0x40 then r.rnode + fieldAt r.rvalid.toNat 12 1 + fieldAt r.dscope 13 2 + fieldAt r.gdom 16 16
  else if o = 0x48 then r.dfLogn + r.dfRing
  else if o = 0x50 then r.dfHead + fieldAt r.dfTail 17 17 + fieldAt r.dfFull.toNat 34 1
  else if o = 0x58 then r.rtmoUs + fieldAt r.rtmoLong.toNat 20 1
  else 0

/-! ### Split tables in control space (07 R116, R117) -/

/-- The code of an entry state (07 R117). -/
def EntrySt.code : EntrySt → Nat
  | .free => 0
  | .running => 1
  | .arrived => 2
  | .regang => 3
  | .stopped => 4
  | .regroup => 5

/-- The six words of an entry (07 R116). -/
def Entry.word (e : Entry) : Nat → Nat
  | 0 => fieldAt e.pos.slot 0 4 + fieldAt (e.pos.caddr / 8) 4 54 + fieldAt e.st.code 58 3
  | 1 => e.mask.toNat + fieldAt e.keeper 32 5 + fieldAt e.level 37 5 + fieldAt e.depth 42 5 + fieldAt e.join.toNat 47 1
  | 2 => fieldAt (e.reconv / 8) 0 54
  | 3 => fieldAt (e.outer / 8) 0 54
  | 4 => e.fmt.toNat
  | 5 => e.saved.toNat
  | _ => 0

/-- The split tables stand past the listed blocks, at a place the spec does not give (log entry 89): by core, group slot, entry and word. -/
def splitBase : Nat := 0x4180000 + 8 * Config.splitTables

/-- A word of the split tables. -/
def State.readSplit (s : State) (a : Nat) : Nat :=
  let i := (a - splitBase) / 8
  if a < splitBase ∨ 384 * 64 * 32 * 6 ≤ i then 0
  else ((s.group? (i / 12288) (i / 192 % 64)).map fun g => (g.ent (i / 6 % 32)).word (i % 6)).getD 0

/-- A control register as it reads (01 R11, R14, R15): a place without one reads zero. -/
def State.ctlRead (s : State) (a : Nat) : Word64 :=
  BitVec.ofNat 64 (match ctlBlock a with
    | (.pkg, _, o) =>
      if 0xC0000 ≤ o then s.readFabric o
      else if 0x80000 ≤ o then s.readGrace ((o - 0x80000) / 16) (o % 16)
      else s.readPackage o
    | (.die, d, o) => (s.die d).read o
    | (.stack, k, o) => (s.stack k).read o
    | (.core, n, o) => s.readCore n o
    | (.cluster, n, o) => s.readCluster n o
    | (.context, h, o) => s.readContext h o
    | _ => s.readSplit a)

/-! ### Writes (01 R11, R14) -/

/-- Writes of the package block, apart from the fabric's registers. -/
def State.writePackage (s : State) (o v : Nat) : State :=
  let m := s.memsys
  let d := s.sched
  let c := s.ctl
  if 0x4000 ≤ o ∧ o < 0x4400 then
    if o % 16 = 0 then s.writeShape ((o - 0x4000) / 16) v else s.writeShapeParam ((o - 0x4000) / 16) v
  else if o = 0x4400 then if bitOf v 1 then { s with memsys := { m with shapeErr := false } } else s
  else if o = 0x5000 then { s with sched := { d with qdtBase := bitsOf v 12 39 * 2 ^ 12, qdtEn := bitOf v 63 } }
  else if o = 0x5008 then { s with sched := { d with age := Nat.max 1 (bitsOf v 0 16) } }
  else if 0x5100 ≤ o ∧ o < 0x5140 then s.writePart ((o - 0x5100) / 8) v
  else if o = 0x5140 then s.writePartctl v
  else if 0x6040 ≤ o ∧ o < 0x6070 then { s with ctl := { c with mbOut := c.mbOut.set ((o - 0x6040) / 8) (BitVec.ofNat 64 v) } }
  else if o = 0x6080 then { s with ctl := { c with inFull := c.inFull && !bitOf v 0, send := c.send || bitOf v 1 } }
  else s

/-- A context is RESIDENT or holds a saved image. -/
def State.anyHeld (s : State) : Bool := (Tbl.vals s.ctxs).any fun c => c.st == .resident || c.image.isSome

/-- A write of FABCFG (24 R415, R424): EN and SELF hold while a context is resident or saved; a package that joins starts with an empty
directory and a closed firewall. -/
def State.writeFabcfg (s : State) (v : Nat) : State :=
  let f := s.fabric
  let tdead := Nat.max 100 (bitsOf v 10 20)
  if s.anyHeld then { s with fabric := { f with tdead := tdead } }
  else
    let en := bitOf v 0
    let self := bitsOf v 1 9
    let s1 := if en != f.en || self != f.self then s.evictRange 0 (2 ^ 51) else s
    { s1 with fabric := { s1.fabric with en := en, self := self, tdead := tdead, dir := if en == f.en then s1.fabric.dir else [],
                                         masks := if en == f.en then s1.fabric.masks else [] } }

/-- A write of a DOMTAB entry keeps DEAD, which is read-only; one that takes a package out of the domain frees the entry, so that a dead cell's
package rejoins by it and a second write (24 R415, R431; log entry 101). -/
def State.writeDomtab (s : State) (p v : Nat) : State :=
  let f := s.fabric
  let dom := Tbl.setD f.dom p ⟨bitOf v 0, bitsOf v 1 6, bitsOf v 7 3, bitOf v 0 && (s.domEnt p).dead⟩ .reset
  let k := bitsOf v 1 6
  { s with fabric := { f with dom := dom, deadMask := withBit f.deadMask k (dom.any fun d => d.2.cell == k && d.2.dead) } }

/-- Writes of the fabric's registers. -/
def State.writeFabric (s : State) (o v : Nat) : State :=
  let f := s.fabric
  if o < 0xC1000 then s.writeDomtab ((o - 0xC0000) / 8) v
  else if o < 0xC1200 then { s with fabric := { f with rate := Tbl.setD f.rate ((o - 0xC1000) / 8) (bitsOf v 0 16) 0 } }
  else if 0xC2000 ≤ o ∧ o ≤ 0xC35C0 then s.writeExt ((o - 0xC2000) / 8) v
  else if o = 0xC5000 then s.writeFabcfg v
  else if o = 0xC5008 then { s with fabric := { f with dirqAddr := bitsOf v 7 44, dirqDone := false, dirqGo := true } }
  else if o = 0xC5020 then { s with fabric := { f with fwRm := BitVec.ofNat 64 v } }
  else if o = 0xC5028 then { s with fabric := { f with fwWm := BitVec.ofNat 64 v } }
  else if o = 0xC5030 then s.writeFwcmd v
  else s

/-- Writes of a die's registers. -/
def Die.write (d : Die) (now o v : Nat) : Die :=
  if o = 0x200 then d.writeEcc now v
  else if o = 0x300 then
    let lo := Nat.min 92 (Nat.max 48 (bitsOf v 0 7))
    { d with fmin := lo, fmax := Nat.min 92 (Nat.max lo (bitsOf v 7 7)) }
  else d

/-- Writes of a stack's registers. -/
def Stack.write (k : Stack) (o v : Nat) : Stack :=
  if o = 0x300 then if bitOf v 53 then { k with valid := false } else k
  else if o = 0x310 then { k with ethr := bitsOf v 0 16, en := bitOf v 16 }
  else if o = 0x318 then if bitOf v 6 then { k with fail := false } else k
  else k

/-- Writes of a group slot's debug registers (14 R265). -/
def State.writeDebug (s : State) (core slot o v : Nat) : State :=
  let set (f : Dbg → Dbg) : State := s.updGroup core slot fun g => { g with dbg := f g.dbg }
  if o = 0 then
    let s1 := set fun d => { d with nonstop := bitOf v 0, stepEnt := bitsOf v 2 5 }
    let s2 := if bitOf v 1 then s1.debugStep core slot else s1
    if bitOf v 7 then s2.debugStop core slot else s2
  else if o ≤ 0x20 then set fun d => { d with bp := d.bp.set (o / 8 - 1) (BitVec.ofNat 64 (v % 2 ^ 59)) }
  else if o = 0x28 then set fun d => { d with lanes := BitVec.ofNat 32 v }
  else s

/-- Writes of a core's registers. -/
def State.writeCore (s : State) (core o v : Nat) : State :=
  if o = 0x800 then s.setCore core { s.coreSt core with escAge := Nat.max 16 (bitsOf v 0 16) }
  else if o = 0xA00 then s.writeCmem core v
  else if o = 0xA10 then s.writeXlat core (BitVec.ofNat 64 v)
  else if o = 0xC00 then { s with mxAge := Tbl.setD s.mxAge (benchOf core) (Nat.max 1 (bitsOf v 0 16)) 0x40 }
  else if 0x1000 ≤ o ∧ o < 0x2000 then s.writeDebug core ((o - 0x1000) / 0x40) (o % 0x40) v
  else s

/-- A ring's LOGN: 4 to 16, other values store 4. -/
def logn (v : Nat) : Nat := if 4 ≤ bitsOf v 0 5 ∧ bitsOf v 0 5 ≤ 16 then bitsOf v 0 5 else 4

/-- A context's registers after a write; those of deferred freeing hold while it has work (22 R392). -/
def CtxRegs.write (r : CtxRegs) (work : Bool) (o v : Nat) : CtxRegs :=
  if o = 0 then { r with fqBase := bitsOf v 6 51 * 64 }
  else if o = 8 then { r with fqLogn := logn v, fqEn := bitOf v 5, handler := bitsOf v 6 15 }
  else if o = 0x10 then { r with head := bitsOf v 0 17, full := false }
  else if o = 0x40 then
    if work then r
    else { r with rnode := bitsOf v 0 12, rvalid := bitOf v 12, dscope := if bitsOf v 13 2 = 3 then 0 else bitsOf v 13 2, gdom := bitsOf v 16 16 }
  else if o = 0x48 then if work then r else { r with dfLogn := logn v, dfRing := bitsOf v 6 51 * 64 }
  else if o = 0x58 then { r with rtmoUs := Nat.max 10 (bitsOf v 0 20), rtmoLong := bitOf v 20 }
  else r

/-- Writes of a hardware slot's registers: those of the context that holds it. -/
def State.writeContext (s : State) (h o v : Nat) : State :=
  match List.find? (fun p : Nat × Ctx => p.2.hw == some h) s.ctxs with
  | none => s
  | some (q, c) => s.setCtx q { c with regs := c.regs.write (s.hasWork q) o v }

/-- A control register written, its range allowed (01 R11, R14): a place without one takes nothing. -/
def State.ctlWrite (s : State) (a : Nat) (v : Word64) : State :=
  match ctlBlock a with
  | (.pkg, _, o) => if 0xC0000 ≤ o then s.writeFabric o v.toNat else s.writePackage o v.toNat
  | (.die, d, o) => s.setDie d ((s.die d).write s.time o v.toNat)
  | (.stack, k, o) => s.setStack k ((s.stack k).write o v.toNat)
  | (.core, n, o) => s.writeCore n o v.toNat
  | (.context, h, o) => s.writeContext h o v.toNat
  | _ => s

/-- `CONTROL_REGISTER_WRITE` (01 R14): by the firmware, or at monitor rights, which do not reach the firmware range. -/
def execControlRegisterWrite (addr : Nat) (value : BitVec 64) (firmware : Bool) (s : State) : Host.Outcome State Fault Refusal :=
  event s (if addr % 8 ≠ 0 ∨ (firmwareRange addr ∧ !firmware) then none else some (s.ctlWrite addr value))

/-! ### `csrr` and `csrw` (14 R261) -/

/-- The checks of a control address in order: 2^40, alignment. -/
def ctlFault (a : Nat) : Option FaultInfo :=
  if 2 ^ 40 ≤ a then some (operandFault 0x11 a) else if a % 8 ≠ 0 then some (operandFault 0x13 a) else none

/-- The value of XLAT_INV that a write is, which completes as R209 says. -/
def xlatValue (a : Nat) (v : Word64) : Option Word64 :=
  match ctlBlock a with
  | (.core, _, o) => if o = 0xA10 then some v else none
  | _ => none

/-- `csrr` (14 R261): the register is read at issue, and its value is written at completion. -/
def execCsrr (gd : Guard) (d a : Reg) (s : State) : Host.Outcome State Fault Refusal :=
  uniform (.csrr gd d a) gd s fun g e =>
    let addr := g.rdSs a.toNat 2
    match ctlFault addr with
    | some f => .fault f
    | none =>
      if 255 ≤ g.ctr .gl then .stall s 10 (1 + 256 * Path.gl.code.toNat)
      else .done ({ s with nextId := s.nextId + 1 }.setCurGroup (s.countOp g e .gl (regWrites 255 d.toNat 2 (s.ctlRead addr).toNat)))

/-- `csrw` (14 R261): the register is written at issue; the firmware range is out of reach. -/
def execCsrw (gd : Guard) (a b : Reg) (s : State) : Host.Outcome State Fault Refusal :=
  uniform (.csrw gd a b) gd s fun g e =>
    let addr := g.rdSs a.toNat 2
    let v := BitVec.ofNat 64 (g.rdSs b.toNat 2)
    match ctlFault addr with
    | some f => .fault f
    | none =>
      if firmwareRange addr then .fault (operandFault 0x03 addr)
      else if 255 ≤ g.ctr .gs then .stall s 10 (1 + 256 * Path.gs.code.toNat)
      else
        let g1 := s.countOp g e .gs []
        let s1 := { s with nextId := s.nextId + 1 }.setCurGroup
          { g1 with inflight := g1.inflight.modify (g1.inflight.length - 1) fun o => { o with awaits := xlatValue addr v } }
        .done (s1.ctlWrite addr v)

end Sys2Proof.Machine
end

