-- ==== Sys2Proof/Machine/HostPort.lean ====
section
/-! DEFINITION. The host port (23 R401, R402), the management queue (23 R403 to R405), the loader (23 R406 to R408), attestation and keys
(23 R409, R410). -/

namespace Sys2Proof.Machine

/-! ### RDMA (23 R401, R402) -/

/-- A window is beyond the partition of a queue pair (23 R401, R403). -/
def State.windowBeyond (s : State) (qp part : Nat) : Bool := s.sched.partEn && ((Config.queuePairPart qp).map fun p => p != part).getD false

/-- The window that an access of the host reaches: its key, its range, its rights, its partition. -/
def State.windowFor (s : State) (qp key lpa n : Nat) (wr : Bool) : Bool :=
  (Tbl.vals s.ctl.windows).any fun w =>
    w.key == key && w.base ≤ lpa && lpa + n ≤ w.base + w.len && (if wr then w.wr else w.rd) && !s.windowBeyond qp w.part

/-- A removed context whose descriptor the host writes becomes IDLE (21 R371). -/
def State.reviveCtxs (s : State) (lpa n : Nat) : State :=
  let hit (q : Nat) : Bool := s.sched.qdtBase + 64 * q < lpa + n && lpa < s.sched.qdtBase + 64 * q + 64
  ((Tbl.keys s.ctxs).filter fun q => (s.ctx q).st == .removed && hit q).foldl (fun st q =>
    st.setCtx q { Ctx.reset with measurement := (st.ctx q).measurement }) s

/-- An access of the host performed (23 R401, R402): a write is a cached store at the L2; one outside every window, or one that memory refuses, touches
nothing and ends in a remote access error. -/
def State.performPacket (s : State) (p : RdmaPacket) : Try State :=
  let refused : Try State := .ok s (s.emit (.rdma p.qp true []))
  if !s.windowFor p.qp p.key p.lpa (if p.wr then p.data.length else p.len) p.wr then refused
  else if p.wr then
    match s.writeBytes none none (domAddr s.fabric.self p.lpa) (p.data.length + 2) p.data with
    | .ok s1 _ => .ok s (((s1.reviveCtxs p.lpa p.data.length).ridxWritten p.lpa p.data.length).emit (.rdma p.qp false []))
    | .wait s1 => .wait s1
    | .bad s1 _ _ _ => .ok s (s1.emit (.rdma p.qp true []))
  else
    match s.readBytes none (domAddr s.fabric.self p.lpa) (p.len + 2) p.len with
    | .ok s1 d => .ok s (s1.emit (.rdma p.qp false d))
    | .wait s1 => .wait s1
    | .bad s1 _ _ _ => .ok s (s1.emit (.rdma p.qp true []))

/-- The accesses of a queue pair that have not been performed, in the order of their packets; the first that waits holds up the others (23 R402). -/
def State.performPackets (s : State) : List RdmaPacket → State
  | [] => s
  | p :: rest =>
    match s.performPacket p with
    | .ok _ s1 => ({ s1 with ctl := { s1.ctl with packets := s1.ctl.packets.erase p } }).performPackets rest
    | .wait s1 => s1
    | .bad s1 _ _ _ => s1

/-- The accesses of a queue pair tried. -/
def State.servePair (s : State) (qp : Nat) : State := s.performPackets (s.ctl.packets.filter fun p => p.qp == qp)

/-- The accesses of every queue pair that wait are tried again. -/
def State.retryPackets (s : State) : State := ((s.ctl.packets.map fun p => p.qp).dedup).foldl State.servePair s

/-- A packet arrives. -/
def State.packetIn (s : State) (p : RdmaPacket) : State := ({ s with ctl := { s.ctl with packets := s.ctl.packets ++ [p] } }).servePair p.qp

/-- `RDMA_WRITE` (23 R401, R402). -/
def execRdmaWrite (qp key lpa : Nat) (data : List Byte) (s : State) : Host.Outcome State Fault Refusal :=
  event s (some (s.packetIn ⟨qp, true, key, lpa, data, 0⟩))

/-- `RDMA_READ` (23 R401, R402). -/
def execRdmaRead (qp key lpa len : Nat) (s : State) : Host.Outcome State Fault Refusal :=
  event s (some (s.packetIn ⟨qp, false, key, lpa, [], len⟩))

/-- `RDMA_ATOMIC` (23 R401): refused. -/
def execRdmaAtomic (qp : Nat) (s : State) : Host.Outcome State Fault Refusal := event s (some (s.emit (.rdma qp true [])))

/-! ### The management queue (23 R403) -/

/-- A word of a command. -/
def mgmtWord (w : MgmtWords) (i : Nat) : Nat := (w.getD i 0).toNat
def mgmtOp (w : MgmtWords) : Nat := bitsOf (mgmtWord w 0) 0 8
def mgmtTag (w : MgmtWords) : Nat := bitsOf (mgmtWord w 0) 16 16
def mgmtArg (w : MgmtWords) : Nat := bitsOf (mgmtWord w 0) 32 32

/-- What a command answers: at once with a status and words, or later. -/
inductive Mgmt where
  | done (s : State) (status : Nat) (words : List Word64)
  | later (s : State)

/-- A command of a queue pair waits for its answer: the next one waits (23 R403). -/
def State.pairBusy (s : State) (qp : Nat) : Bool :=
  (Tbl.vals s.ctxs).any (fun c => (c.answer.map fun a => a.1) == some qp) || s.ctl.attesting.any fun a => a.1 == qp

/-- A command that names a context is in execution: one from another queue pair waits (23 R403, R404). -/
def State.ctxBusy (s : State) (q : Nat) : Bool := (s.ctx q).answer.isSome || s.ctl.attesting.any fun a => mgmtArg a.2 == q

/-- A command executed: in the winding all but CREAD, CWRITE and WINSET answer 4 (23 R411); a nonzero zero field answers 1; a status other than 0
changes nothing (23 R404). -/
def State.manage (s : State) (qp : Nat) (w : MgmtWords) (op : Nat) (busy : Bool) (body : Mgmt) : Host.Outcome State Fault Refusal :=
  let tag := mgmtTag w
  event s <|
    if mgmtOp w ≠ op ∨ busy then none
    else if s.ctl.step ≠ 5 ∧ op ≠ 1 ∧ op ≠ 2 ∧ op ≠ 9 then some (s.emit (.answer qp tag 4 []))
    else if bitsOf (mgmtWord w 0) 8 8 ≠ 0 then some (s.emit (.answer qp tag 1 []))
    else match body with
      | .done s1 st ws => some (s1.emit (.answer qp tag st ws))
      | .later s1 => some s1

/-- A queue is beyond the partition of the sender (23 R403): that of its descriptor, which of an idle queue stands in memory. -/
def State.foreign (s : State) (qp q : Nat) : Bool :=
  s.windowBeyond qp (if (s.ctx q).st = .idle then (s.readDesc q).1 else (s.ctx q).desc).part

/-- A control address that a command may name. The spec gives no status for a misaligned one, cause 0x13 being no answer of a command: it is an operand
out of range and answers 1, before the firmware range is looked at (log entry 103). -/
def ctlAddrOk (a : Nat) : Bool := a < 2 ^ 40 && a % 8 == 0

/-- `CREAD` (23 R403). -/
def execCread (qp : Nat) (w : MgmtWords) (s : State) : Host.Outcome State Fault Refusal :=
  s.manage qp w 0x01 (s.pairBusy qp) (if ctlAddrOk (mgmtWord w 1) then .done s 0 [s.ctlRead (mgmtWord w 1)] else .done s 1 [])

/-- `CWRITE` (23 R403): with monitor rights. -/
def execCwrite (qp : Nat) (w : MgmtWords) (s : State) : Host.Outcome State Fault Refusal :=
  s.manage qp w 0x02 (s.pairBusy qp) <|
    if !ctlAddrOk (mgmtWord w 1) then .done s 1 []
    else if firmwareRange (mgmtWord w 1) then .done s 2 []
    else .done (s.ctlWrite (mgmtWord w 1) (w.getD 2 0)) 0 []

/-- `RESUME_COMMAND` (23 R403, 21 R378): a SAVED context becomes READY. -/
def execResumeCommand (qp : Nat) (w : MgmtWords) (s : State) : Host.Outcome State Fault Refusal :=
  let q := mgmtArg w
  let c := s.ctx q
  s.manage qp w 0x04 (s.pairBusy qp || s.ctxBusy q) <|
    if 16384 ≤ q then .done s 1 []
    else if s.foreign qp q then .done s 2 []
    else if c.st ≠ .saved ∨ c.removing.isSome then .done s 3 []
    else .done (s.setCtx q { c with st := .ready, readyAt := s.time }) 0 []

/-- `REMOVE` (21 R384): the answer follows event 2; the measurement is reset (23 R407). -/
def execRemove (qp : Nat) (w : MgmtWords) (s : State) : Host.Outcome State Fault Refusal :=
  let q := mgmtArg w
  let c := s.ctx q
  let zero := List.replicate 48 (0 : Byte)
  s.manage qp w 0x05 (s.pairBusy qp || s.ctxBusy q) <|
    if 16384 ≤ q then .done s 1 []
    else if s.foreign qp q then .done s 2 []
    else if c.st = .removed then .done s 3 []
    else
      let desc := if c.st = .idle then (s.readDesc q).1 else c.desc
      .later (s.setCtx q { c with desc := desc, removing := some (c.removing.getD false), measurement := zero, answer := some (qp, mgmtTag w) })

/-- `RESTORE` (21 R383, 23 R403): a SAVED context is to be restored into the named partition. -/
def execRestore (qp : Nat) (w : MgmtWords) (s : State) : Host.Outcome State Fault Refusal :=
  let q := mgmtArg w
  let c := s.ctx q
  s.manage qp w 0x06 (s.pairBusy qp || s.ctxBusy q) <|
    if 16384 ≤ q ∨ 8 ≤ mgmtWord w 1 then .done s 1 []
    else if s.foreign qp q then .done s 2 []
    else if c.st ≠ .saved ∨ c.image.isNone ∨ c.removing.isSome then .done s 3 []
    else .later (s.setCtx q { c with restorePart := some (mgmtWord w 1), answer := some (qp, mgmtTag w) })

/-- `MBOX` (23 R405). -/
def execMbox (qp : Nat) (w : MgmtWords) (s : State) : Host.Outcome State Fault Refusal :=
  s.manage qp w 0x07 (s.pairBusy qp) <|
    if s.ctl.inFull then .done s 3 []
    else .done { s with ctl := { s.ctl with mbIn := (List.range 6).map (fun i => w.getD (i + 1) 0), inFull := true, mbQp := qp } } 0 []

/-- `MAILBOX_SEND` (23 R405): MB_OUT goes to the host, and SEND clears. -/
def execMailboxSend (s : State) : Host.Outcome State Fault Refusal :=
  event s (if s.ctl.send then some ({ s with ctl := { s.ctl with send := false } }.emit (.mailbox s.ctl.mbQp s.ctl.mbOut)) else none)

/-- `WINSET` (23 R401): base, length, and a word of key, rights and partition (log entry 14); a window beyond the sender's partition is denied. -/
def execWinset (qp : Nat) (w : MgmtWords) (s : State) : Host.Outcome State Fault Refusal :=
  let k := mgmtWord w 3
  s.manage qp w 0x09 (s.pairBusy qp) <|
    if 1024 ≤ mgmtArg w ∨ dataEnd < mgmtWord w 1 + mgmtWord w 2 then .done s 1 []
    else if s.windowBeyond qp (bitsOf k 34 3) ∨ ((Tbl.find? s.ctl.windows (mgmtArg w)).map fun x => s.windowBeyond qp x.part).getD false then
      .done s 2 []
    else
      let x : Window := ⟨mgmtWord w 1, mgmtWord w 2, bitsOf k 0 32, bitOf k 32, bitOf k 33, bitsOf k 34 3⟩
      .done { s with ctl := { s.ctl with windows := Tbl.put s.ctl.windows (mgmtArg w) x } } 0 []

/-! ### Attestation and keys (23 R409, R410) -/

/-- The signed part of the attestation record (23 R409). -/
def State.attestation (s : State) (q : Nat) (nonce : List Byte) : List Byte :=
  let fw := (Config.firmwareMeasurement ++ List.replicate 48 0).take 48
  fw ++ (s.ctx q).measurement ++ nonce ++ leBytes 4 s.fabric.self ++ leBytes 4 s.ownCell

/-- The granules of a range of the package's memory made fit for a store: nothing of it changes (23 R404). -/
def State.prepare (s : State) (pa n : Nat) : Try Unit :=
  ((List.range ((pa % 128 + n + 127) / 128)).map fun i => (pa / 128 + i) * 128).foldl (fun t a => t.bind fun s1 _ => s1.acquire none a .write) (.ok s ())

/-- An ATTEST in execution is over. -/
def State.attested (s : State) (qp : Nat) : State :=
  { s with ctl := { s.ctl with attesting := s.ctl.attesting.filter fun a => a.1 != qp } }

/-- `ATTEST` (23 R409): the record and the signature pair are written at the window, all at once; the nonce is the tenant's public key (log entry
10). One that waits for another package is in execution until it is made again. -/
def execAttest (qp : Nat) (w : MgmtWords) (s : State) : Host.Outcome State Fault Refusal :=
  let q := mgmtArg w
  let nonce := (List.range 6).flatMap fun i => leBytes 8 (mgmtWord w (i + 1))
  let body := s.attestation q nonce
  let data := body ++ (Config.identityEcdsa body ++ List.replicate 96 0).take 96 ++ List.replicate 8 0 ++ Config.identityLms body
  let mine := s.ctl.attesting.contains (qp, w)
  let hold (s : State) : Mgmt := .later { s.attested qp with ctl := { (s.attested qp).ctl with attesting := (s.attested qp).ctl.attesting ++ [(qp, w)] } }
  s.manage qp w 0x08 (!mine && (s.pairBusy qp || s.ctxBusy q)) <|
    match Tbl.find? s.ctl.windows (bitsOf (mgmtWord w 7) 0 10) with
    | none => .done (s.attested qp) 1 []
    | some x =>
      if 16384 ≤ q ∨ x.len < data.length then .done (s.attested qp) 1 []
      else if s.foreign qp q ∨ s.windowBeyond qp x.part then .done (s.attested qp) 2 []
      else match s.prepare (domAddr s.fabric.self x.base) data.length with
        | .wait s1 => hold s1
        | .bad s1 _ _ _ => .done (s1.attested qp) 1 []
        | .ok s1 _ =>
          match s1.writeBytes none none (domAddr s.fabric.self x.base) (data.length + 2) data with
          | .ok s2 _ => .done { s2.attested qp with ctl := { (s2.attested qp).ctl with tenants := Tbl.put s2.ctl.tenants qp nonce } } 0 []
          | .wait _ => hold s1
          | .bad _ _ _ _ => .done (s1.attested qp) 1 []

/-- The three keys of a key id, derived from its root key (23 R410): XTS data, XTS tweak, integrity. The info strings are `B7 xts data`, `B7 xts
tweak` and `B7 tag`. -/
def deriveKeys (pkg id : Nat) (root : List Byte) : List Byte :=
  let salt := beBytes 2 pkg ++ beBytes 2 id
  [[0x42, 0x37, 0x20, 0x78, 0x74, 0x73, 0x20, 0x64, 0x61, 0x74, 0x61],
   [0x42, 0x37, 0x20, 0x78, 0x74, 0x73, 0x20, 0x74, 0x77, 0x65, 0x61, 0x6B],
   [0x42, 0x37, 0x20, 0x74, 0x61, 0x67]].flatMap fun info => hkdf384 salt root info

/-- The root key that a command's wrapped key unwraps to, under the transport key of its tenant's last ATTEST (23 R410). -/
def State.unwrapRoot (s : State) (qp : Nat) (w : MgmtWords) : Option (List Byte) := do
  let key ← Tbl.find? s.ctl.tenants qp
  keyUnwrap ((Config.transportKey key ++ List.replicate 32 0).take 32) ((List.range 5).flatMap fun i => leBytes 8 (mgmtWord w (i + 1)))

/-- `KEYSET` (23 R410): the keys of a root key that unwraps are loaded for a key id; granules whose tags were formed under other keys match them no
longer (18 R341). -/
def execKeyset (qp : Nat) (w : MgmtWords) (s : State) : Host.Outcome State Fault Refusal :=
  let id := mgmtArg w
  s.manage qp w 0x0A (s.pairBusy qp) <|
    if id = 0 ∨ 255 < id then .done s 1 []
    else match s.unwrapRoot qp w with
      | none => .done s 5 []
      | some k => .done { s with memsys := { s.memsys with memKeys := Tbl.put s.memsys.memKeys id (deriveKeys s.fabric.self id k) } } 0 []

/-- `BAD_MANAGEMENT_COMMAND` (23 R403): an unknown OP answers 1; in the winding every command but three answers 4. -/
def execBadManagementCommand (qp : Nat) (w : MgmtWords) (s : State) : Host.Outcome State Fault Refusal :=
  event s <|
    if (1 ≤ mgmtOp w && mgmtOp w ≤ 0x0A) || s.pairBusy qp then none
    else some (s.emit (.answer qp (mgmtTag w) (if s.ctl.step ≠ 5 then 4 else 1) []))

/-! ### The loader (23 R406, R407) -/

/-- A segment entry (23 R406). -/
structure Segment where
  kind : Nat
  key : Nat
  align : Nat
  foff : Nat
  fsize : Nat
  voff : Nat
  msize : Nat
  sigOff : Nat
  sigLen : Nat
  /-- Its 64 bytes with the signature fields as zero. -/
  entry : List Byte
  zeros : Bool

/-- The value of `n` bytes of a list from an offset on. -/
def bytesAt (d : List Byte) (off n : Nat) : Nat := leValue ((d.drop off).take n)

/-- A segment entry read from its 64 bytes. -/
def segmentOf (d : List Byte) : Segment :=
  { kind := bytesAt d 0 1, key := bytesAt d 1 1, align := bytesAt d 2 1, foff := bytesAt d 8 8, fsize := bytesAt d 16 8,
    voff := bytesAt d 24 8, msize := bytesAt d 32 8, sigOff := bytesAt d 40 8, sigLen := bytesAt d 48 4,
    entry := d.take 40 ++ List.replicate 12 0 ++ d.drop 52, zeros := bytesAt d 3 5 == 0 && bytesAt d 52 12 == 0 }

/-- The limits of a segment in a container of `len` bytes (23 R406, R407 step 1). -/
def Segment.ok (x : Segment) (len : Nat) : Bool :=
  x.zeros && x.kind ≤ 4 && x.key ≤ 7 && 3 ≤ x.align && x.align ≤ 21 && x.foff + x.fsize ≤ len && x.fsize ≤ x.msize &&
    x.sigOff + x.sigLen ≤ len && x.voff % 2 ^ x.align == 0 && (x.kind != 3 || (x.foff == 0 && x.fsize == 0)) && (x.kind != 4 || x.voff == 0)

/-- Two segments overlap in memory; a relocation list, or a segment of no bytes, is in none. -/
def Segment.overlaps (a b : Segment) : Bool :=
  a.kind != 4 && b.kind != 4 && a.msize != 0 && b.msize != 0 && a.voff < b.voff + b.msize && b.voff < a.voff + a.msize

/-- No two segments of a list overlap. -/
def apart : List Segment → Bool
  | [] => true
  | x :: t => t.all (fun y => !x.overlaps y) && apart t

/-- The address, the value and the page bytes of the leaf of a virtual address (12 R206, R207). -/
def State.leafAt (s : State) (q va : Nat) : Nat → Nat → Try (Nat × Nat × Nat)
  | 0, table =>
    let ea := table + 8 * (va / 2 ^ 12 % 512)
    if !s.paOk ea then .bad s 0x10 0
    else (s.cachedRead (some q) ea 8).bind fun s1 e =>
      if pteOk e ∧ bitOf e 1 ∧ leafLevel (bitsOf e 8 3) = 0 then .ok s1 (ea, e, pageBytes (bitsOf e 8 3)) else .bad s1 0x10 0
  | l + 1, table =>
    let ea := table + 8 * (va / 2 ^ (12 + 9 * (l + 1)) % 512)
    if !s.paOk ea then .bad s 0x10 0
    else (s.cachedRead (some q) ea 8).bind fun s1 e =>
      if !pteOk e then .bad s1 0x10 0
      else if !bitOf e 1 then s1.leafAt q va l (ptePa e)
      else if leafLevel (bitsOf e 8 3) = l + 1 then .ok s1 (ea, e, pageBytes (bitsOf e 8 3))
      else .bad s1 0x10 0

/-- The physical address that the loader reaches a virtual one by: its rights need V, RD and USR and no WR; a leaf with an EX bit is refused (23
R407). The causes of this attempt are statuses. -/
def State.loaderAddr (s : State) (q root va : Nat) : Try Nat :=
  match s.leafAt q va 4 root with
  | .wait s1 => .wait s1
  | .bad s1 _ _ _ => .bad s1 7 0
  | .ok s1 (_, e, n) =>
    if !bitOf e 2 ∨ !bitOf e 5 ∨ !s1.paOk (leafPa e n va) ∨ 2 ^ 57 ≤ va then .bad s1 7 0
    else if bitOf e 4 then .bad s1 5 0
    else .ok s1 (leafPa e n va)

/-- A cause of memory that a load meets is status 7. -/
def Try.asStatus {α : Type} : Try α → Try α
  | .bad s _ _ _ => .bad s 7 0
  | t => t

/-- Bytes written by the loader, piece by piece of at most a sector. -/
def State.loaderWrite (s : State) (q root va : Nat) : Nat → List Byte → Try Unit
  | 0, _ => .ok s ()
  | fuel + 1, d =>
    if d.isEmpty then .ok s ()
    else
      let k := Nat.min d.length (32 - va % 32)
      (s.loaderAddr q root va).bind fun s1 pa =>
        (s1.cachedWrite (some q) none pa k (leValue (d.take k))).asStatus.bind fun s2 _ => s2.loaderWrite q root (va + k) fuel (d.drop k)

/-- Bytes read by the loader, piece by piece of at most a sector. -/
def State.loaderRead (s : State) (q root va : Nat) : Nat → Nat → Try (List Byte)
  | 0, _ => .ok s []
  | fuel + 1, n =>
    if n = 0 then .ok s []
    else
      let k := Nat.min n (32 - va % 32)
      (s.loaderAddr q root va).bind fun s1 pa =>
        (s1.cachedRead (some q) pa k).asStatus.bind fun s2 x => (s2.loaderRead q root (va + k) fuel (n - k)).bind fun s3 r => .ok s3 (leBytes k x ++ r)

/-- A load's place noted: the segments placed, the relocations of the next one applied, the measurement. -/
def State.noteLoad (s : State) (q i k : Nat) (m : List Byte) : State := s.setCtx q { s.ctx q with loadAt := some (i, k, m) }

/-- The words that a relocation list names raised by the destination (23 R406, 04 R66), from the `k`-th on; each that is done is noted, so that none
is raised twice. -/
def State.relocate (s : State) (q root dest i : Nat) (m : List Byte) : Nat → List Nat → Try Unit
  | _, [] => .ok s ()
  | k, o :: rest =>
    (s.loaderRead q root (dest + o) 3 8).bind fun s1 x =>
      match s1.loaderWrite q root (dest + o) 3 (leBytes 8 (leValue x + dest)) with
      | .ok s2 _ => (s2.noteLoad q i (k + 1) m).relocate q root dest i m (k + 1) rest
      | .wait _ => .wait s1
      | .bad s2 c y a => .bad s2 c y a

/-- The 8-byte offsets of a relocation list. -/
def relocations : Nat → List Byte → List Nat
  | 0, _ => []
  | n + 1, d => if d.length < 8 then [] else leValue (d.take 8) :: relocations n (d.drop 8)

/-- Step 4 of a load for one segment, the `i`-th; of a relocation list `k` entries are done already. -/
def State.placeSegment (s : State) (q root dest i k : Nat) (m : List Byte) (x : Segment) (d : List Byte) : Try Unit :=
  if x.kind = 4 then s.relocate q root dest i m k ((relocations d.length d).drop k)
  else
    let bytes := d ++ List.replicate (x.msize - x.fsize) 0
    s.loaderWrite q root (dest + x.voff) (bytes.length + 2) bytes

/-- Both signatures of a digest verify against a key of the trusted-key table: 96 bytes of ECDSA r and s, then the LMS signature (23 R406, R407). -/
def signatureOk (key : Nat) (digest sig : List Byte) : Bool :=
  96 ≤ sig.length && Config.ecdsaOk (Config.trustedKeys key).1 digest (sig.take 96) && Config.lmsOk (Config.trustedKeys key).2 digest (sig.drop 96)

/-- Steps 2 to 4 over the segments in table order, from the `i`-th on: the measurement as extended so far, and the status. -/
def State.loadSegments (s : State) (q root dest pa : Nat) : Nat → Nat → List Segment → List Byte → Try (List Byte × Nat)
  | _, _, [], m => .ok s (m, 0)
  | i, k, x :: rest, m =>
    match (s.readBytes none (pa + x.foff) (x.fsize + 2) x.fsize).bind fun s1 d =>
        (s1.readBytes none (pa + x.sigOff) (x.sigLen + 2) x.sigLen).bind fun s2 sig => .ok s2 (d, sig) with
    | .wait s1 => .wait s1
    | .bad s1 _ _ _ => .ok s1 (m, 7)
    | .ok s1 (d, sig) =>
      let digest := sha384 (x.entry ++ d)
      if !signatureOk x.key digest sig then .ok s1 (m, 5)
      else
        let m1 := sha384 (m ++ digest)
        match s1.placeSegment q root dest i k m x d with
        | .ok s2 _ => (s2.noteLoad q (i + 1) 0 m1).loadSegments q root dest pa (i + 1) 0 rest m1
        | .wait s2 => .wait s2
        | .bad s2 st _ _ => .ok s2 (m1, st)

/-- The leaves of a range: the address and value of each. -/
def State.leavesOf (s : State) (q root va stop : Nat) : Nat → Try (List (Nat × Nat))
  | 0 => .ok s []
  | fuel + 1 =>
    if stop ≤ va then .ok s []
    else (s.leafAt q va 4 root).bind fun s1 r =>
      (s1.leavesOf q root ((va / r.2.2 + 1) * r.2.2) stop fuel).bind fun s2 l => .ok s2 ((r.1, r.2.1) :: l)

/-- The leaves of every segment of some kinds. -/
def State.leavesOfKinds (s : State) (q root dest : Nat) (kinds : List Nat) : List Segment → Try (List (Nat × Nat))
  | [] => .ok s []
  | x :: rest =>
    if !kinds.contains x.kind ∨ x.msize = 0 then s.leavesOfKinds q root dest kinds rest
    else (s.leavesOf q root (dest + x.voff) (dest + x.voff + x.msize) (x.msize / 4096 + 2)).bind fun s1 a =>
      (s1.leavesOfKinds q root dest kinds rest).bind fun s2 b => .ok s2 (a ++ b)

/-- EX set in leaves, one after another (23 R407 step 5). -/
def State.setEx (s : State) (q : Nat) : List (Nat × Nat) → Try Unit
  | [] => .ok s ()
  | (ea, e) :: rest => (s.cachedWrite (some q) none ea 8 (e ||| 0x10)).bind fun s1 _ => s1.setEx q rest

/-- The granules of leaves made fit for a store; no leaf changes. -/
def State.prepareLeaves (s : State) (q : Nat) (ls : List (Nat × Nat)) : Try Unit :=
  ls.foldl (fun t l => t.bind fun s1 _ => s1.acquire (some q) l.1 .write) (.ok s ())

/-- Every cached translation of a context dropped, as XLAT_INV with SZ 7 and BCAST 1 does (23 R407 step 5). -/
def State.dropTranslations (s : State) (q : Nat) : State :=
  match (s.ctx q).hw with
  | none => s
  | some h => { s with cores := Tbl.mapV (fun c : CoreSt => { c with tlb := c.tlb.filter fun t => t.ctx != h }) s.cores }

/-- Step 5 of a load: a text or rodata leaf with WR answers 5; else EX is set in the leaves of text, in all of them or, where the load fails or has
to wait, in none. -/
def State.finishLoad (s : State) (q root dest : Nat) (xs : List Segment) : Try Nat :=
  match s.leavesOfKinds q root dest [0, 1] xs with
  | .wait s1 => .wait s1
  | .bad s1 _ _ _ => .ok s1 7
  | .ok s1 ro =>
    if ro.any fun r => bitOf r.2 3 then .ok s1 5
    else match (s1.dropTranslations q).leavesOfKinds q root dest [0] xs with
      | .wait s2 => .wait s2
      | .bad s2 _ _ _ => .ok s2 7
      | .ok s2 text =>
        match s2.prepareLeaves q text.dedup with
        | .wait s3 => .wait s3
        | .bad s3 _ _ _ => .ok s3 7
        | .ok s3 _ =>
          match s3.setEx q text.dedup with
          | .ok s4 _ => .ok s4 0
          | .wait _ => .wait s3
          | .bad _ _ _ _ => .ok s3 7

/-- The container's header and segment table, checked (23 R406, R407 step 1). -/
def State.readContainer (s : State) (pa len : Nat) : Try (List Segment) :=
  if len < 32 ∨ dataEnd < lpaOf pa + len then .bad s 7 0
  else match s.readBytes none pa 40 32 with
    | .wait s1 => .wait s1
    | .bad s1 _ _ _ => .bad s1 7 0
    | .ok s1 h =>
      let n := bytesAt h 4 2
      if bytesAt h 0 4 ≠ 0x31435856 ∨ bytesAt h 24 8 ≠ 0 ∨ n = 0 ∨ 64 < n ∨ len < 32 + 64 * n then .bad s1 7 0
      else match s1.readBytes none (pa + 32) (64 * n + 2) (64 * n) with
        | .wait s2 => .wait s2
        | .bad s2 _ _ _ => .bad s2 7 0
        | .ok s2 t =>
          let xs := (List.range n).map fun i => segmentOf ((t.drop (64 * i)).take 64)
          if xs.all (fun x => x.ok len) && apart xs then .ok s2 xs else .bad s2 7 0

/-- `LOAD` (23 R407): a container is verified and loaded into an IDLE context. A load that waits for another package holds its context, and its place
is noted, until it is made again. -/
def execLoad (qp : Nat) (w : MgmtWords) (s : State) : Host.Outcome State Fault Refusal :=
  let q := mgmtArg w
  let c := s.ctx q
  let mine := c.answer == some (qp, mgmtTag w) && c.st == .idle
  let desc := (s.readDesc q).1
  let pa := domAddr s.fabric.self (mgmtWord w 1)
  let dest := mgmtWord w 3
  let hold (s : State) : Mgmt := .later (s.setCtx q { s.ctx q with answer := some (qp, mgmtTag w) })
  let finish (s : State) (m : List Byte) (st : Nat) : Mgmt := .done (s.setCtx q { s.ctx q with measurement := m, loadAt := none, answer := none }) st []
  let from_ := if mine then c.loadAt.getD (0, 0, c.measurement) else (0, 0, c.measurement)
  s.manage qp w 0x03 (!mine && (s.pairBusy qp || s.ctxBusy q)) <|
    if 16384 ≤ q then .done s 1 []
    else if s.foreign qp q then .done s 2 []
    else if c.st ≠ .idle ∨ c.removing.isSome ∨ !desc.valid ∨ s.hasWork q then .done s 3 []
    else match (if 2 ^ 51 ≤ mgmtWord w 1 then .bad s 7 0 else s.readContainer pa (mgmtWord w 2)) with
      | .wait s1 => hold s1
      | .bad s1 _ _ _ => finish s1 from_.2.2 7
      | .ok s1 xs =>
        match s1.loadSegments q desc.root dest pa from_.1 from_.2.1 (xs.drop from_.1) from_.2.2 with
        | .wait s2 => hold s2
        | .bad s2 _ _ _ => finish s2 from_.2.2 7
        | .ok s2 (m, st) =>
          if st ≠ 0 then finish s2 m st
          else match s2.finishLoad q desc.root dest xs with
            | .wait s3 => hold s3
            | .bad s3 _ _ _ => finish s3 m 7
            | .ok s3 st => finish s3 m st

end Sys2Proof.Machine
end

