-- ==== Sys2Proof/Machine/Around.lean ====
section
/-! DEFINITION. What the surroundings do after a step (log entry 6): time passes, L1 lines and translations are replaced, stored bits go bad,
directory entries are replaced, other packages' parties act. -/

namespace Sys2Proof.Machine

/-! ### Replacement -/

/-- An L1 line is replaced: it leaves a victim tag of the group that last accessed it (11 R196). -/
def State.replaceLine (s : State) (core line : Nat) : State :=
  let c := s.coreSt core
  s.setCore core ({ c with lines := c.lines.filter fun l => l.line != line }.tag (c.lines.filter fun l => l.line == line))

/-- A cached translation is replaced (12 R209). -/
def State.replaceTlb (s : State) (core i : Nat) : State :=
  let c := s.coreSt core
  s.setCore core { c with tlb := c.tlb.eraseIdx i }

/-- A directory entry is replaced (24 R423): its copies are recalled first, and it is freed once they have come home; an X entry leaves poison
code 3 in its granule. -/
def State.replaceDir (s : State) (lg : Nat) : State :=
  match s.dirEnt lg with
  | none => s
  | some e =>
    if e.st = .x then (s.setMem { s.mem with poison := (secsOf lg).foldl (fun t k => Tbl.setD t k 3 0) s.mem.poison }).delDir lg
    else
      let rem := (s.holders e).filter fun p => p != s.fabric.self
      if rem.isEmpty then (((s.mergeOwn lg e.cop).setSupplied lg none).purge (s.pgOf lg)).delDir lg
      else (s.askHolders (α := Unit) lg rem false).state

/-! ### Errors of the SRAMs (18 R337 to R340) -/

/-- The die of an L2 sector's slice, for its count of errors. -/
def sliceDie (sec : Nat) : Nat := (mapDefault (lpaOf (sec * 32))).chan / 96

/-- The die of a piece of SRAM. -/
def dieOfSram : SramAt → Nat
  | .l2 sec => sliceDie sec
  | .reg key _ _ => key / 64 / 96
  | .sett key _ => key / 8 / 96
  | .bench key _ _ _ _ => key / 64 / 96
  | .tag chan _ _ => chan / 96
  | .spare die => die

/-- A die counts a corrected error (18 R340); enough of them in a millisecond raise its target at once (18 R338). -/
def State.countCe (s : State) (die : Nat) : State :=
  let d := s.die die
  s.setDie die ({ d with ce := Nat.min (d.ce + 1) (2 ^ 32 - 1)
                         ceTimes := (d.ceTimes.filter fun t => decide (s.time < t + 1000000)) ++ [s.time] }.rise s.time)

/-- A die counts an uncorrectable SRAM error. -/
def State.countUe (s : State) (die : Nat) : State :=
  let d := s.die die
  s.setDie die { d with ue := Nat.min (d.ue + 1) (2 ^ 30 - 1) }

/-- An L2 sector goes bad (18 R340): a clean one is dropped, a dirty one poisoned as media. -/
def State.spoilL2 (s : State) (sec : Nat) : State :=
  match s.l2? sec with
  | none => s
  | some x =>
    if x.dirty || x.holder == .m || x.holder == .o || x.holder == .c then
      s.setL2 (Tbl.put s.memsys.l2 sec { x with poison := if x.poison = 0 then 1 else x.poison })
    else if x.holder == .home then (s.l2Drop sec).settleHome (sec / 4)
    else s.purge (sec / 4)

/-- A register of a group goes bad (18 R340). -/
def State.spoilReg (s : State) (key : Nat) (scalar : Bool) (n : Nat) : State :=
  match Tbl.find? s.groups key with
  | none => s
  | some g =>
    let r := g.regs
    let bad := if scalar then n < 128 else n / 256 < r.nlanes && n % 256 < r.nvr
    if bad then
      { s with groups := Tbl.put s.groups key { g with regs := if scalar then { r with badS := n :: r.badS } else { r with badV := n :: r.badV } } }
    else s

/-- A sector of a resident sett goes bad (18 R340). -/
def State.spoilSett (s : State) (key sec : Nat) : State :=
  let x := s.sett (key / 8) (key % 8) (sec / 64)
  if x.st = .res ∨ x.st = .dirty then s.setSett (key / 8) (key % 8) (sec / 64) { x with poison := sec % 64 :: x.poison } else s

/-- An element of a reservation's storage goes bad (15 R296): of a slate, a bed or a codebook slot. -/
def Resv.spoil (r : Resv) (kind i elem : Nat) : Resv :=
  match kind with
  | 0 => if i < r.nsl then { r with badSlates := (i, elem) :: r.badSlates } else r
  | 1 => if i < r.nbed then { r with beds := Tbl.upd r.beds i fun b : Bed => { b with bad := elem :: b.bad } } else r
  | _ => if i < r.ncb then { r with badBooks := (i, elem) :: r.badBooks } else r

def State.spoilBench (s : State) (key kind i elem : Nat) : State :=
  { s with groups := Tbl.upd s.groups key fun g : Group => { g with resv := g.resv.map fun r => r.spoil kind i elem } }

/-- The local addresses of 256 bytes that may lie at a place of the stacks: the inverses of `map(pa)` and of the bank-linear map
(18 R331, R332). -/
def MemSys.addrsAt (ms : MemSys) (p : Place) : List Nat :=
  let dflt (b : Nat) : Nat :=
    let q := p.row * 128 + (p.bank ^^^ (p.row / 8 % 4)) * 32 + (b ^^^ (p.row % 8)) * 4 + p.col / 256
    let h := (q % 512) ^^^ (q / 512 % 512) ^^^ (q / 262144 % 512)
    (q * 384 + (p.chan + 384 - h % 384) % 384) * 256
  let linear (sh : Shape) : Nat :=
    let o := p.row - sh.base
    rowUnit * (sh.base + o / sh.param * sh.param) + (o % sh.param * 12288 + p.bank * 3072 + p.bg * 384 + p.chan) * 1024 + p.col
  (((List.range 8).map dflt) ++ ((Tbl.vals ms.shapes).filter fun sh => sh.kind == 2).map linear).filter fun a =>
    { ms.place a with linear := false } == { p with linear := false }

/-- The tag of a block of the DRAM cache layer goes bad (18 R340): a clean block is dropped; a dirty one's dirty sectors are poisoned as media in
the data layer, and the block is gone. -/
def State.spoilTag (s : State) (chan set way : Nat) : State :=
  match Tbl.find? s.memsys.dram (dramKey chan set way) with
  | none => s
  | some b =>
    let lost := ((List.range 8).filter fun k => b.dirty.getLsbD k).flatMap fun k =>
      (s.memsys.addrsAt { chan := chan, row := b.tag * 256 + 2 * (set % 128) + k / 4, bg := set / 512, bank := set / 128 % 4,
                          col := k % 4 * 256, linear := false }).take 1
    let s1 := (lost.flatMap fun a => (List.range 8).map fun i => a / 32 + i).foldl (fun st k =>
      if st.mem.poisonOf k = 0 then st.poisonSector k 1 else st) s
    s1.setDram (Tbl.del s1.memsys.dram (dramKey chan set way))

/-- What an uncorrectable error does where it stands (18 R340). -/
def State.spoil (s : State) : SramAt → State
  | .l2 sec => s.spoilL2 sec
  | .reg key scalar n => s.spoilReg key scalar n
  | .sett key sec => s.spoilSett key sec
  | .bench key kind index row elem => s.spoilBench key kind index (row * 64 + elem)
  | .tag chan set way => s.spoilTag chan set way
  | .spare _ => s

/-- Bits of a word of an SRAM line go bad (18 R337): with those of the word that have gone bad since the line was written, they are corrected where
the code of the line's mode corrects so many, 1 in mode 0 and 2 in mode 1; more are an uncorrectable error (log entry 88). -/
def State.hitSram (s : State) (h : SramHit) : State :=
  let k := dieOfSram h.place
  if 4 ≤ k ∨ dieLines ≤ h.line ∨ 8 ≤ h.word ∨ h.bits = 0 then s
  else
    let d := s.die k
    let n := Tbl.getD d.flips (h.line * 8 + h.word) 0 + h.bits
    let s1 := s.setDie k { d with flips := Tbl.put d.flips (h.line * 8 + h.word) n }
    if n ≤ (if d.modeOf h.line then 2 else 1) then s1.countCe k else (s1.countUe k).spoil h.place

/-- An SRAM line that the step has written is in the target mode (18 R338). -/
def State.encodeLine (s : State) (die line : Nat) : State :=
  if die < 4 ∧ line < dieLines then s.setDie die ((s.die die).encode line) else s

/-- The junction sensors of a die read anew (18 R338): a condition that ends has held until now, one that begins raises the target at once. -/
def State.readJunctions (s : State) (die : Nat) (lo hi : BitVec 8) : State :=
  if die < 4 then s.setDie die ({ (s.die die).rise s.time with jlow := lo, jhigh := hi }.rise s.time) else s

/-! ### The stacks (18 R341 to R346) -/

/-- Symbols of a sector's codeword go bad (18 R342). -/
def State.spoilMedia (s : State) (sec n : Nat) : State := s.setMem { s.mem with syms := Tbl.setD s.mem.syms sec (s.mem.symsOf sec + n) 0 }

/-- A granule changed or moved from outside the device no longer matches its tag (18 R341). -/
def State.tamper (s : State) (gran : Nat) : State := s.setMem { s.mem with seals := Tbl.del s.mem.seals gran }

/-- The firmware gives a 2 MiB block another key id: its contents are unspecified, and no granule of it has its tag until it is written (18
R341, R344). -/
def State.changeKey (s : State) (block id : Nat) : State :=
  if dataEnd ≤ block * 0x200000 ∨ 255 < id ∨ s.mem.keyId (block * 0x200000) = id then s
  else
    let m := s.mem.loosen (block * 0x200000) 0x200000 s.free
    (s.setMem { m with keyIds := Tbl.setD m.keyIds block id 0, seals := m.seals.filter fun p => p.1 / 16384 != block }).fresh

/-- A stack's sensor reads anew (18 R346). -/
def State.readSensor (s : State) (k : Nat) (t : BitVec 8) : State := s.setStack k { s.stack k with temp := t }

/-! ### Other packages (13 R231, R235, R242) -/

/-- A party of another package of the domain has accessed a word in a copy that its package holds: recorded, unless it completes a conflict, where its
own package refuses it. -/
def State.farTouch (s : State) (pkg word kind : Nat) (sec : Bool) : State :=
  if s.fabric.en && pkg != s.fabric.self && (s.domEnt pkg).valid then
    let k : TrackKind := match kind with
      | 0 => .read
      | 1 => .write
      | 2 => .relaxed
      | 3 => .release
      | _ => .fold
    match s.farMeet pkg k sec [word] with
    | .ok s1 => s1
    | .error _ => s
  else s

/-- The open regions of a package's parties end toward this package (13 R231). -/
def State.farCut (s : State) (pkg : Nat) : State :=
  let t := s.track
  s.setTrack { t with far := t.far.map fun f => if f.pkg = pkg ∧ f.stop.isNone then { f with stop := some t.now } else f
                      farStart := Tbl.setD t.farStart pkg t.now 0, now := t.now + 1 }

/-- The surroundings act (log entry 6). -/
def State.surround (s : State) (x : Surroundings) : State :=
  let s1 := x.lines.foldl (fun t p => t.replaceLine p.1 p.2) s
  let s2 := x.tlb.foldl (fun t p => t.replaceTlb p.1 p.2) s1
  let s3 := x.dirs.foldl State.replaceDir s2
  let s4 := x.encoded.foldl (fun t p => t.encodeLine p.1 p.2) s3
  let s5 := x.sram.foldl State.hitSram s4
  let s6 := x.media.foldl (fun t p => t.spoilMedia p.1 p.2) s5
  let s7 := x.tampered.foldl State.tamper s6
  let s8 := (x.temps.filter fun p => decide (p.1 < 12)).foldl (fun t p => t.readSensor p.1 p.2) s7
  let s9 := x.junctions.foldl (fun t p => t.readJunctions p.1 p.2.1 p.2.2) s8
  let s10 := x.keys.foldl (fun t p => t.changeKey p.1 p.2) s9
  x.farCuts.foldl State.farCut (x.far.foldl (fun t p => t.farTouch p.1 p.2.1 p.2.2.1 p.2.2.2) s10)

/-! ### Time -/

/-- The waiting counts of the resident contexts with a user group that is charged rise (21 R378). -/
def State.chargeTime (s : State) (ns : Nat) : State :=
  let charged (q : Nat) : Bool := s.groups.any fun p => p.2.ids.queue == q && s.charged (p.1 / 64) (p.1 % 64) p.2
  { s with ctxs := s.ctxs.map fun p : Nat × Ctx => if p.2.st == .resident && charged p.1 then (p.1, { p.2 with waiting := p.2.waiting + ns }) else p }

/-- Time passes and the next turn is chosen (log entry 1). -/
def State.elapse (s : State) : State :=
  let s1 := s.chargeTime (Config.elapsed s.tick)
  { s1 with time := s.time + Config.elapsed s.tick, cycle := s.cycle + Config.cycles s.tick, turn := Config.schedule s.tick,
            tick := s.tick + 1 }

/-- What follows every step: the stores of the scheduler and the accesses of the host that wait for another package are tried again, the surroundings
act, then time passes. -/
def State.around (s : State) : State := (s.retryPosts.retryPackets.surround (Config.surroundings s.tick)).elapse

end Sys2Proof.Machine
end

