-- ==== Sys2Proof/Machine/CrossLane.lean ====
section
/-! DEFINITION. The cross-lane instructions that one group executes alone (07 R132 to R137). -/

namespace Sys2Proof.Machine

/-- A word of one or two registers written in every participating lane from a function of the lane and the participants. -/
def crossWrite (i : Instr) (gd : Guard) (d : Reg) (w : Nat) (s : State) (f : Group → List Nat → Nat → Nat) :
    Host.Outcome State Fault Refusal :=
  lanewise i gd s fun g _ ls => .group s (ls.foldl (fun acc l => acc.wrVs l d.toNat w (f g ls l)) g)

/-- The source lane of `shfl` (07 R133). -/
def shflSource (m : ShflMode) (lane x : Nat) : Int :=
  match m with
  | .idx => bitsOf x 0 5
  | .up => (lane : Int) - x
  | .down => lane + x
  | .xor => (lane ^^^ bitsOf x 0 5 : Nat)

/-- `shfl` (07 R133). -/
def execShfl (gd : Guard) (t : IntTy) (m : ShflMode) (d : Reg) (a b : Src) (s : State) : Host.Outcome State Fault Refusal :=
  crossWrite (.shfl gd t m d a b) gd d t.width s fun g ls l =>
    let x := shflSource m l (g.src b 1 l)
    if 0 ≤ x ∧ x ≤ 31 ∧ ls.contains x.toNat then g.src a t.width x.toNat else g.src a t.width l

/-- `pswap` (07 R134). -/
def execPswap (gd : Guard) (t : IntTy) (d : Reg) (a b : Src) (s : State) : Host.Outcome State Fault Refusal :=
  crossWrite (.pswap gd t d a b) gd d t.width s fun g ls l =>
    let m := if l % 2 = 0 then l + 1 else l - 1
    if ls.contains m then (if l % 2 = 0 then g.src b t.width m else g.src a t.width m) else g.src a t.width l

/-- The outcome of a vote: `n` lanes, `t` of them true (07 R135). -/
def voteOf (m : VoteMode) (n t : Nat) : Bool :=
  match m with
  | .any => 1 ≤ t
  | .all => t == n
  | .none => t == 0
  | .odd => t % 2 == 1
  | .agree => t == 0 || t == n

/-- `vote` (07 R135). -/
def execVote (gd : Guard) (m : VoteMode) (d a : Reg) (s : State) : Host.Outcome State Fault Refusal :=
  lanewise (.vote gd m d a) gd s fun g _ ls =>
    let x := voteOf m ls.length (ls.filter fun l => g.rdP l a.toNat).length
    .group s (ls.foldl (fun acc l => acc.wrP l d.toNat x) g)

/-- `ballot` (07 R135). -/
def execBallot (gd : Guard) (d a : Reg) (s : State) : Host.Outcome State Fault Refusal :=
  crossWrite (.ballot gd d a) gd d 1 s fun g ls _ => (maskOf (ls.filter fun l => g.rdP l a.toNat)).toNat

/-- `match` (07 R135). -/
def execMatchl (gd : Guard) (t : IntTy) (d : Reg) (a : Src) (s : State) : Host.Outcome State Fault Refusal :=
  crossWrite (.matchl gd t d a) gd d 1 s fun g ls l =>
    (maskOf (ls.filter fun m => g.src a t.width m == g.src a t.width l)).toNat

/-- An integer reduction of a list (07 R136); of none, the identity. -/
def reduceInt (op : RedOp) (t : RedTy) (xs : List Nat) : Nat :=
  xs.foldl (fun acc x => foldNew op t acc x) (foldIdentity op t % 2 ^ redW t)

/-- A floating-point reduction of a list (07 R137) and its flags; of none, the identity +0, +∞ or −∞. -/
def reduceFloat (f : Fmt) (r : RM) (op : RedOp) (xs : List Nat) : FRes :=
  let vs := xs.map f.decode
  let fl := if vs.any FVal.isSnan then NV else 0
  match op with
  | .add =>
    let pos := vs.any fun v => v.isInf && !v.neg
    let neg := vs.any fun v => v.isInf && v.neg
    if vs.isEmpty then (0, 0)
    else if pos && neg then (f.canon, NV)
    else if vs.any FVal.isNan then (f.canon, fl)
    else
      if pos || neg then (f.signed neg f.infEnc, 0)
      else
        let e := lowExp vs
        let sum := vs.foldl (fun a v => a + v.scaled e) (0 : Int)
        if sum = 0 then (f.signed (r.mode == .rm || vs.all fun v => v.isZero && v.neg) 0, 0)
        else f.roundTo r (.ofScaled sum e)
  | _ =>
    let isMin := op == .min
    let nums := xs.filter fun x => !(f.decode x).isNan
    match nums with
    | [] => if vs.isEmpty then (f.signed (!isMin) f.infEnc, 0) else (f.canon, fl)
    | x :: rest =>
      (rest.foldl (fun acc y =>
        if isMin then (if (f.decode y).below (f.decode acc) then y else acc)
        else if (f.decode acc).below (f.decode y) then y else acc) x, fl)

/-- A reduction of either kind: the value's bits and the flags. -/
def reduceOf (op : RedOp) (t : RedTy) (fmt : Word64) (xs : List Nat) : FRes :=
  match redFmt t with
  | some f => reduceFloat (fmtOf f) (roundOf fmt .dyn false) op xs
  | none => (reduceInt op t xs, 0)

/-- A reduction's frame: each participating lane takes the reduction of the lanes that `cover` admits for it. -/
def reduceLanes (i : Instr) (gd : Guard) (op : RedOp) (t : RedTy) (d : Reg) (a : Src) (s : State) (cover : Nat → Nat → Bool) :
    Host.Outcome State Fault Refusal :=
  lanewise i gd s fun g e ls => .group s (ls.foldl (fun acc l =>
    let r := reduceOf op t e.fmt ((ls.filter (cover l)).map fun m => g.src a t.width m % 2 ^ redW t)
    (acc.wrVs l d.toNat t.width r.1).raise r.2) g)

/-- `lscan` (07 R136, R137). -/
def execLscan (gd : Guard) (op : RedOp) (t : RedTy) (excl : Bool) (d : Reg) (a : Src) (s : State) : Host.Outcome State Fault Refusal :=
  reduceLanes (.lscan gd op t excl d a) gd op t d a s fun l m => if excl then m < l else m ≤ l

/-- `lred` (07 R136, R137). -/
def execLred (gd : Guard) (op : RedOp) (t : RedTy) (d : Reg) (a : Src) (s : State) : Host.Outcome State Fault Refusal :=
  reduceLanes (.lred gd op t d a) gd op t d a s fun _ _ => true

end Sys2Proof.Machine
end

