-- ==== Sys2Proof/Machine/Float.lean ====
section
/-! DEFINITION. The floating-point lane instructions (09 R160 to R181). -/

namespace Sys2Proof.Machine

/-- What a floating-point word gives a lane: writes of a register, its width and a value, in order, and the flags raised. -/
abbrev FOut := List (Nat × Nat × Nat) × Flags

/-- The frame of a floating-point word (09 R160): every lane reads before any writes; the flags of the active lanes are ORed into
FPSTAT. -/
def laneFloat (i : Instr) (gd : Guard) (s : State) (f : Group → Entry → Nat → FOut) : Host.Outcome State Fault Refusal :=
  lanewise i gd s fun g e ls => .group s (ls.foldl (fun acc l =>
    let r := f g e l
    (r.1.foldl (fun a w => a.wrVs l w.1 w.2.1 w.2.2) acc).raise r.2) g)

/-- One result register of a width. -/
def oneOut (d : Reg) (w : Nat) (r : FRes) : FOut := ([(d.toNat, w, r.1)], r.2)

/-- `fadd` (09 R165). -/
def execFadd (gd : Guard) (t : FTy) (r : Rnd) (sat : Bool) (d : Reg) (a b : Src) (s : State) : Host.Outcome State Fault Refusal :=
  laneFloat (.fadd gd t r sat d a b) gd s fun g e l =>
    oneOut d t.width ((fmtOf t).add (roundOf e.fmt r sat) (g.fsrc a t l) (g.fsrc b t l))

/-- `fsub` (09 R165). -/
def execFsub (gd : Guard) (t : FTy) (r : Rnd) (sat : Bool) (d : Reg) (a b : Src) (s : State) : Host.Outcome State Fault Refusal :=
  laneFloat (.fsub gd t r sat d a b) gd s fun g e l =>
    oneOut d t.width ((fmtOf t).add (roundOf e.fmt r sat) (g.fsrc a t l) (g.fsrc b t l).negate)

/-- `fmul` (09 R165). -/
def execFmul (gd : Guard) (t : FTy) (r : Rnd) (sat : Bool) (d : Reg) (a b : Src) (s : State) : Host.Outcome State Fault Refusal :=
  laneFloat (.fmul gd t r sat d a b) gd s fun g e l =>
    oneOut d t.width ((fmtOf t).mul (roundOf e.fmt r sat) (g.fsrc a t l) (g.fsrc b t l))

/-- `ffma` (09 R165). -/
def execFfma (gd : Guard) (t : FTy) (r : Rnd) (sat : Bool) (d : Reg) (a b c : Src) (s : State) : Host.Outcome State Fault Refusal :=
  laneFloat (.ffma gd t r sat d a b c) gd s fun g e l =>
    oneOut d t.width ((fmtOf t).fma (roundOf e.fmt r sat) (g.fsrc a t l) (g.fsrc b t l) (g.fsrc c t l))

/-- `fmin` (09 R167). -/
def execFmin (gd : Guard) (t : FTy) (d : Reg) (a b : Src) (s : State) : Host.Outcome State Fault Refusal :=
  laneFloat (.fmin gd t d a b) gd s fun g _ l => oneOut d t.width ((fmtOf t).minMax true (g.fbits a t l) (g.fbits b t l))

/-- `fmax` (09 R167). -/
def execFmax (gd : Guard) (t : FTy) (d : Reg) (a b : Src) (s : State) : Host.Outcome State Fault Refusal :=
  laneFloat (.fmax gd t d a b) gd s fun g _ l => oneOut d t.width ((fmtOf t).minMax false (g.fbits a t l) (g.fbits b t l))

/-- The comparison and its flags (09 R168). -/
def fcompare (cc : Cc) (x y : FVal) : Bool × Flags :=
  let nan := x.isNan || y.isNan
  let snan := if x.isSnan || y.isSnan then NV else 0
  let any := if nan then NV else 0
  match cc with
  | .eq => (!nan && x.cmp y == .eq, snan)
  | .ne => (nan || x.cmp y != .eq, snan)
  | .lt => (!nan && x.cmp y == .lt, any)
  | .le => (!nan && x.cmp y != .gt, any)
  | .gt => (!nan && x.cmp y == .gt, any)
  | .ge => (!nan && x.cmp y != .lt, any)
  | .num => (!nan, snan)
  | .nan => (nan, snan)

/-- `fcmp` (09 R168). -/
def execFcmp (gd : Guard) (t : FTy) (cc : Cc) (d : Reg) (a b : Src) (s : State) : Host.Outcome State Fault Refusal :=
  lanewise (.fcmp gd t cc d a b) gd s fun g _ ls => .group s (ls.foldl (fun acc l =>
    let r := fcompare cc (g.fsrc a t l) (g.fsrc b t l)
    (acc.wrP l d.toNat r.1).raise r.2) g)

/-- The class mask of an encoding (09 R169). -/
def Fmt.classOf (f : Fmt) (x : Nat) : Nat :=
  let sub := bitsOf x f.frac f.exp == 0
  match f.decode x with
  | .nan _ quiet _ _ => if quiet then 512 else 256
  | .inf n => if n then 1 else 128
  | .fin n m _ =>
    if m = 0 then (if n then 8 else 16)
    else if sub then (if n then 4 else 32) else if n then 2 else 64

/-- `fclass` (09 R169). -/
def execFclass (gd : Guard) (t : FTy) (d : Reg) (a : Src) (s : State) : Host.Outcome State Fault Refusal :=
  laneFloat (.fclass gd t d a) gd s fun g _ l => oneOut d 1 ((fmtOf t).classOf (g.fbits a t l), 0)

/-- `fdiv` (09 R166). -/
def execFdiv (gd : Guard) (t : FTy) (r : Rnd) (sat : Bool) (d : Reg) (a b : Src) (s : State) : Host.Outcome State Fault Refusal :=
  laneFloat (.fdiv gd t r sat d a b) gd s fun g e l =>
    oneOut d t.width ((fmtOf t).div (roundOf e.fmt r sat) (g.fsrc a t l) (g.fsrc b t l))

/-- `fsqrt` (09 R166). -/
def execFsqrt (gd : Guard) (t : FTy) (r : Rnd) (sat : Bool) (d : Reg) (a : Src) (s : State) : Host.Outcome State Fault Refusal :=
  laneFloat (.fsqrt gd t r sat d a) gd s fun g e l =>
    oneOut d t.width ((fmtOf t).sqrt (roundOf e.fmt r sat) (g.fsrc a t l))

/-- `frcp` (09 R176): a division with dividend +1. -/
def execFrcp (gd : Guard) (d : Reg) (a : Src) (s : State) : Host.Outcome State Fault Refusal :=
  laneFloat (.frcp gd d a) gd s fun g e l =>
    oneOut d 1 ((fmtOf .f32).div (roundOf e.fmt .dyn false) (.fin false 1 0) (g.fsrc a .f32 l))

/-! ### Approximated functions (08 R158, R159; 09 R177 to R179)

Each is a fixed function of its operand that the spec bounds and does not give: Config's value where the bound admits it, else the
correctly rounded one. An exact value is enclosed by fixed-point arithmetic with 96 bits after the point and an error below
2^-76 (log entry 7). -/

/-- Format FP32. -/
def F32 : Fmt := fmtOf .f32

/-- Flags of an approximated finite result (09 R177). -/
def approxFlags (enc : Nat) : Flags := if bitsOf enc 23 8 = 0 then UF ||| NX else NX

/-- The point of the fixed-point values. -/
def one96 : Nat := 2 ^ 96
/-- ln 2 times 2^96. -/
def ln2Fix : Nat := 0xb17217f7d1cf79abc9e3b398

/-- e^y for a fixed-point y in [0, 1): forty terms of its series. -/
def expFix (y : Nat) : Nat :=
  ((List.range 40).foldl (fun p k => (p.1 + p.2, p.2 * y / one96 / (k + 1))) (0, one96)).1

/-- log2 of a fixed-point value in [1, 2): its area hyperbolic tangent series, 34 terms. -/
def log2Fix (m : Nat) : Nat :=
  let y := (m - one96) * one96 / (m + one96)
  let y2 := y * y / one96
  let sum := ((List.range 34).foldl (fun p k => (p.1 + p.2 / (2 * k + 1), p.2 * y2 / one96)) (0, y)).1
  2 * sum * one96 / ln2Fix

/-- sin y (from the term y) or cos y (from the term 1) for a fixed-point y in [0, 1). -/
def trigFix (isSin : Bool) (y : Nat) : Int :=
  let y2 := y * y / one96
  let off := if isSin then 1 else 0
  let first : Nat × Int := (if isSin then y else one96, 0)
  ((List.range 20).foldl (fun (p : Nat × Int) k =>
    (p.1 * y2 / one96 / ((2 * k + 1 + off) * (2 * k + 2 + off)), if k % 2 = 0 then p.2 + p.1 else p.2 - p.1)) first).2

/-- The choice of an approximated result: the candidate when it is finite and lies within `bound` of the value `v`, both given in
units of 2^-256, even when `v` is off by `tol`; else the nearest value. -/
def within (cand : Nat) (v : Int) (bound tol : Nat) : Nat :=
  match F32.decode cand with
  | .fin n m e =>
    if ((FVal.fin n m e).scaled (-256) - v).natAbs + tol ≤ bound then cand
    else (F32.roundReal .nearest (v < 0) v.natAbs (-256) true).1
  | _ => (F32.roundReal .nearest (v < 0) v.natAbs (-256) true).1

/-- 1/√x for x = m × 2^e that is no even power of two: within 1 ulp, by exact squares. -/
def rsqrtBounded (cand m : Nat) (e : Int) : Nat :=
  let lead : Int := e + m.log2
  let i : Int := -(lead / 2) - 1
  let u := 2 ^ (i - 23 + 160).toNat
  let x := m * 2 ^ (e + 149).toNat
  let ok := match F32.decode cand with
    | .fin false rm re =>
      let r := rm * 2 ^ (re + 160).toNat
      decide (2 ^ 469 ≤ (r + u) * (r + u) * x) && (decide (r ≤ u) || decide ((r - u) * (r - u) * x ≤ 2 ^ 469))
    | _ => false
  if ok then cand
  else
    let (m', e') : Nat × Int := if e % 2 = 0 then (m, e) else (2 * m, e - 1)
    (F32.roundReal .nearest false (Nat.sqrt (2 ^ 120 / m')) (-60 - e' / 2) true).1

/-- A positive value that is a power of two: its exponent. -/
def powerOfTwo (m : Nat) (e : Int) : Option Int := if m = 2 ^ m.log2 then some (e + m.log2) else none

/-- `frsq` of an encoding (09 R177). -/
def rsqrt32 (enc : Nat) : FRes :=
  F32.nanRule [F32.decode enc] <|
    match F32.decode enc with
    | .fin n 0 _ => (F32.signed n F32.infEnc, DZ)
    | .inf false => (0, 0)
    | .fin false m e =>
      match powerOfTwo m e with
      | some k =>
        if k % 2 = 0 then F32.roundTo .nearest (.fin false 1 (-(k / 2)))
        else let r := rsqrtBounded (Config.rsqrtApprox (BitVec.ofNat 32 enc)).toNat m e; (r, approxFlags r)
      | none => let r := rsqrtBounded (Config.rsqrtApprox (BitVec.ofNat 32 enc)).toNat m e; (r, approxFlags r)
    | _ => F32.invalid

/-- `fex2` of an encoding (09 R177). -/
def exp2of (sat : Bool) (enc : Nat) : FRes :=
  F32.nanRule [F32.decode enc] <|
    match F32.decode enc with
    | .inf n => (if n then 0 else F32.infEnc, 0)
    | .fin n m e =>
      if m = 0 then (0x3F800000, 0)
      else
        let lo := roundInt .rm n m e
        if !n && (7 ≤ e + m.log2) then (if sat then F32.maxEnc else F32.infEnc, OF ||| NX)
        else if lo.2 && -149 ≤ lo.1 then F32.roundTo .nearest (.fin false 1 lo.1)
        else if lo.1 ≤ -151 || (lo.2 && lo.1 = -150) then (0, UF ||| NX)
        else
          let x : Int := (FVal.fin n m e).scaled (-149)
          let f := (x - lo.1 * 2 ^ 149).toNat / 2 ^ 53
          let v := expFix (f * ln2Fix / one96) * 2 ^ (160 + lo.1).toNat
          let q := if lo.1 < -126 then -149 else lo.1 - 23
          let r := within (Config.exp2Approx (BitVec.ofNat 32 enc)).toNat v (2 * 2 ^ (q + 256).toNat) (2 ^ (180 + lo.1).toNat)
          (r, approxFlags r)
    | _ => F32.invalid

/-- `flg2` of an encoding (09 R177): outside [0.75, 1.5] within 2 ulp, inside it within 2^-22. -/
def log2of (enc : Nat) : FRes :=
  F32.nanRule [F32.decode enc] <|
    match F32.decode enc with
    | .fin _ 0 _ => (F32.signed true F32.infEnc, DZ)
    | .inf false => (F32.infEnc, 0)
    | .fin false m e =>
      match powerOfTwo m e with
      | some k => F32.roundTo .nearest (.ofInt k)
      | none =>
        let k : Int := e + m.log2
        let v : Int := (k * one96 + log2Fix (m * 2 ^ (96 - m.log2))) * 2 ^ 160
        let inside := decide (0x3F400000 ≤ enc) && decide (enc ≤ 0x3FC00000)
        let bound := if inside then 2 ^ 234 else 2 * 2 ^ (v.natAbs.log2 - 23)
        let r := within (Config.log2Approx (BitVec.ofNat 32 enc)).toNat v bound (2 ^ 180)
        (r, approxFlags r)
    | _ => F32.invalid

/-- A value of magnitude at most 1, or 0 (09 R179). -/
def atMostOne (cand : Nat) : Nat := if cand % 2 ^ 31 ≤ 0x3F800000 then cand else 0

/-- The greatest FP32 magnitude that `frred` gives: the exact reduced argument lies within π/4, and its rounding may lie half an ulp above (09 R178).
The bound of the composed result (08 R158) needs one for it too, so the bounds of `fsin` and `fcos` hold up to it (log entry 7). -/
def quarterPi : Nat := 0x3F490FDB

/-- `fsin` or `fcos` of a finite nonzero magnitude of at most `quarterPi`, with the sign of the result apart: within 1 ulp, and so near that the result
lies within 2 ulp of the value at every argument that `frred` rounds to this one (08 R158, 09 R179; log entry 7). -/
def trigBounded (isSin : Bool) (cand m : Nat) (e : Int) : Nat :=
  let y := if 0 ≤ e + 96 then m * 2 ^ (e + 96).toNat else m / 2 ^ (-(e + 96)).toNat
  let v := trigFix isSin y * 2 ^ 160
  let half : Nat := 2 ^ (e + m.log2 - 24 + 256).toNat
  let ulp (x : Int) : Nat := 2 ^ ((if isSin then (x.natAbs.log2 : Int) - 256 else -1) - 23 + 256).toNat
  within cand v (Nat.min (ulp v) (2 * ulp (v - half) - half)) (2 ^ 180)

/-- `fsin` of an encoding (09 R179). -/
def sin32 (enc : Nat) : FRes :=
  F32.nanRule [F32.decode enc] <|
    match F32.decode enc with
    | .fin n m e =>
      if m = 0 then (F32.signed n 0, 0)
      else if enc % 2 ^ 31 < 0x39800000 then (enc, approxFlags enc)
      else
        let cand := (Config.sinApprox (BitVec.ofNat 32 enc)).toNat
        if enc % 2 ^ 31 ≤ quarterPi then
          let c := if n then (cand + 2 ^ 31) % 2 ^ 32 else cand
          (F32.signed n (trigBounded true c m e), NX)
        else (atMostOne cand, NX)
    | _ => F32.invalid

/-- `fcos` of an encoding (09 R179). -/
def cos32 (enc : Nat) : FRes :=
  F32.nanRule [F32.decode enc] <|
    match F32.decode enc with
    | .fin _ m e =>
      if m = 0 then (0x3F800000, 0)
      else
        let cand := (Config.cosApprox (BitVec.ofNat 32 enc)).toNat
        if enc % 2 ^ 31 ≤ quarterPi then (trigBounded false cand m e, NX) else (atMostOne cand, NX)
    | _ => F32.invalid

/-- π times 2^400. -/
def piFix : Nat :=
  0x3243f6a8885a308d313198a2e03707344a4093822299f31d0082efa98ec4e6c89452821e638d01377be5466cf34e90c6cc0ac

/-- `frred` of an encoding: the reduced argument, the quadrant, the flags (09 R178). -/
def reduce (enc : Nat) : Nat × Nat × Flags :=
  match F32.decode enc with
  | .nan n q p b => let r := F32.roundNan n q p b; (r.1, 0, r.2)
  | .inf _ => (F32.canon, 0, NV)
  | .fin n m e =>
    if m = 0 then (F32.signed n 0, 0, 0)
    else
      let x := m * 2 ^ (e + 401).toNat
      let k := (x + piFix / 2) / piFix
      let t : Int := x - k * piFix
      let r := if k = 0 then (F32.roundTo .nearest (.fin n m e)).1
        else (F32.roundReal .nearest (n != decide (t < 0)) t.natAbs (-401) true).1
      (r, bitsInt (if n then -(k : Int) else k) 2, approxFlags r)

/-- `frsq` (09 R177). -/
def execFrsq (gd : Guard) (d : Reg) (a : Src) (s : State) : Host.Outcome State Fault Refusal :=
  laneFloat (.frsq gd d a) gd s fun g _ l => oneOut d 1 (rsqrt32 (g.fbits a .f32 l))

/-- `fex2` (09 R177). -/
def execFex2 (gd : Guard) (d : Reg) (a : Src) (s : State) : Host.Outcome State Fault Refusal :=
  laneFloat (.fex2 gd d a) gd s fun g e l => oneOut d 1 (exp2of (fmtSat e.fmt) (g.fbits a .f32 l))

/-- `flg2` (09 R177). -/
def execFlg2 (gd : Guard) (d : Reg) (a : Src) (s : State) : Host.Outcome State Fault Refusal :=
  laneFloat (.flg2 gd d a) gd s fun g _ l => oneOut d 1 (log2of (g.fbits a .f32 l))

/-- `frred` (09 R178): the quadrant is written after the reduced argument. -/
def execFrred (gd : Guard) (d : Reg) (a : Src) (q : Reg) (s : State) : Host.Outcome State Fault Refusal :=
  laneFloat (.frred gd d a q) gd s fun g _ l =>
    let r := reduce (g.fbits a .f32 l)
    ([(d.toNat, 1, r.1), (q.toNat, 1, r.2.1)], r.2.2)

/-- `fsin` (09 R179). -/
def execFsin (gd : Guard) (d : Reg) (a : Src) (s : State) : Host.Outcome State Fault Refusal :=
  laneFloat (.fsin gd d a) gd s fun g _ l => oneOut d 1 (sin32 (g.fbits a .f32 l))

/-- `fcos` (09 R179). -/
def execFcos (gd : Guard) (d : Reg) (a : Src) (s : State) : Host.Outcome State Fault Refusal :=
  laneFloat (.fcos gd d a) gd s fun g _ l => oneOut d 1 (cos32 (g.fbits a .f32 l))

/-- A value rounded to an integral value, keeping its sign (09 R171). -/
def Fmt.integral (f : Fmt) (mode : Rnd) (x : FVal) : FRes :=
  f.nanRule [x] <|
    match x with
    | .fin n m e => ((f.roundTo .nearest (.fin n (roundInt mode n m e).1.natAbs 0)).1, 0)
    | y => f.roundTo .nearest y

/-- `fint` (09 R171). -/
def execFint (gd : Guard) (t : FTy) (r : Rnd) (d : Reg) (a : Src) (s : State) : Host.Outcome State Fault Refusal :=
  laneFloat (.fint gd t r d a) gd s fun g e l =>
    oneOut d t.width ((fmtOf t).integral (roundOf e.fmt r false).mode (g.fsrc a t l))

/-- `fcvt` (09 R172). -/
def execFcvt (gd : Guard) (t t2 : FTy) (r : Rnd) (sat : Bool) (d : Reg) (a : Src) (s : State) : Host.Outcome State Fault Refusal :=
  laneFloat (.fcvt gd t t2 r sat d a) gd s fun g e l =>
    oneOut d t.width ((fmtOf t).roundTo (roundOf e.fmt r sat) (g.fsrc a t2 l))

/-- `f2i` (08 R151, 09 R173). -/
def execF2i (gd : Guard) (t : IntTy) (t2 : FTy) (r : Rnd) (d : Reg) (a : Src) (s : State) : Host.Outcome State Fault Refusal :=
  laneFloat (.f2i gd t t2 r d a) gd s fun g e l =>
    let x := toInteger (roundOf e.fmt r false).mode (tyLo t) (tyHi t) (g.fsrc a t2 l)
    oneOut d t.width (bitsInt x.1 (tyW t), x.2)

/-- `i2f` (08 R152, 09 R174). -/
def execI2f (gd : Guard) (t : FTy) (t2 : IntTy) (r : Rnd) (sat : Bool) (d : Reg) (a : Src) (s : State) :
    Host.Outcome State Fault Refusal :=
  laneFloat (.i2f gd t t2 r sat d a) gd s fun g e l =>
    oneOut d t.width ((fmtOf t).roundTo (roundOf e.fmt r sat) (.ofInt (tyRead t2 (g.src a t2.width l))))

/-- `fpack` (09 R175). -/
def execFpack (gd : Guard) (t : FTy) (r : Rnd) (sat : Bool) (d : Reg) (a b : Src) (s : State) : Host.Outcome State Fault Refusal :=
  laneFloat (.fpack gd t r sat d a b) gd s fun g e l =>
    let lo := (fmtOf t).roundTo (roundOf e.fmt r sat) (g.fsrc a .f32 l)
    let hi := (fmtOf t).roundTo (roundOf e.fmt r sat) (g.fsrc b .f32 l)
    oneOut d 1 (lo.1 + hi.1 * 2 ^ 16, lo.2 ||| hi.2)

/-- `funpack` (09 R175). -/
def execFunpack (gd : Guard) (t2 : FTy) (d : Reg) (a : Src) (s : State) : Host.Outcome State Fault Refusal :=
  laneFloat (.funpack gd t2 d a) gd s fun g e l =>
    let x := g.src a 1 l
    let lo := F32.roundTo (roundOf e.fmt .dyn false) ((fmtOf t2).decode (bitsOf x 0 16))
    let hi := F32.roundTo (roundOf e.fmt .dyn false) ((fmtOf t2).decode (bitsOf x 16 16))
    oneOut d 2 (lo.1 + hi.1 * 2 ^ 32, lo.2 ||| hi.2)

/-- The exponent of `fldexp`, beyond which every result of every format is the same. -/
def clampExp (n : Int) : Int := satInt n (-8192) 8192

/-- `fldexp` of a value (09 R170). -/
def Fmt.scaleBy (f : Fmt) (r : RM) (x : FVal) (n : Int) : FRes :=
  f.nanRule [x] <|
    match x with
    | .fin s m e => if m = 0 then (f.signed s 0, 0) else f.roundReal r s m (e + clampExp n) false
    | y => f.roundTo .nearest y

/-- `fldexp` (09 R170). -/
def execFldexp (gd : Guard) (t : FTy) (r : Rnd) (sat : Bool) (d : Reg) (a b : Src) (s : State) : Host.Outcome State Fault Refusal :=
  laneFloat (.fldexp gd t r sat d a b) gd s fun g e l =>
    oneOut d t.width ((fmtOf t).scaleBy (roundOf e.fmt r sat) (g.fsrc a t l) (signExt (g.src b 1 l) 32))

/-- `ffrexp` of a value: fraction, exponent, flags (09 R170). -/
def Fmt.split (f : Fmt) (x : FVal) : Nat × Int × Flags :=
  match x with
  | .nan n q p b => let r := f.roundNan n q p b; (r.1, 0, r.2)
  | .inf n => (f.signed n f.infEnc, 0, 0)
  | .fin n m e =>
    if m = 0 then (f.signed n 0, 0, 0)
    else
      let k : Int := e + m.log2 + 1
      ((f.roundTo .nearest (.fin n m (e - k))).1, k, 0)

/-- `ffrexp` (09 R170): the exponent is written after the fraction. -/
def execFfrexp (gd : Guard) (t : FTy) (d : Reg) (a : Src) (er : Reg) (s : State) : Host.Outcome State Fault Refusal :=
  laneFloat (.ffrexp gd t d a er) gd s fun g _ l =>
    let r := (fmtOf t).split (g.fsrc a t l)
    ([(d.toNat, t.width, r.1), (er.toNat, 1, bitsInt r.2.1 32)], r.2.2)

/-- The elements of a packed operand: `n` of `w` bits (09 R180). -/
def packed (t : FTy) (n w x : Nat) : List FVal := (List.range n).map fun i => (fmtOf t).decode (bitsOf x (w * i) w)

/-- `fdot2` (09 R180). -/
def execFdot2 (gd : Guard) (t t2 : FTy) (r : Rnd) (sat : Bool) (d : Reg) (a b c : Src) (s : State) :
    Host.Outcome State Fault Refusal :=
  laneFloat (.fdot2 gd t t2 r sat d a b c) gd s fun g e l =>
    oneOut d t.width ((fmtOf t).dot (roundOf e.fmt r sat) (g.fsrc c t l)
      ((packed t2 2 16 (g.src a 1 l)).zip (packed t2 2 16 (g.src b 1 l))))

/-- `fdot4` (09 R180). -/
def execFdot4 (gd : Guard) (t t2 : FTy) (r : Rnd) (sat : Bool) (d : Reg) (a b c : Src) (s : State) :
    Host.Outcome State Fault Refusal :=
  laneFloat (.fdot4 gd t t2 r sat d a b c) gd s fun g e l =>
    oneOut d t.width ((fmtOf t).dot (roundOf e.fmt r sat) (g.fsrc c t l)
      ((packed t2 4 8 (g.src a 1 l)).zip (packed t2 4 8 (g.src b 1 l))))

end Sys2Proof.Machine
end

