-- ==== Sys2Proof/Machine/Integer.lean ====
section
/-! DEFINITION. The lane integer instructions (06 R85 to R108). -/

namespace Sys2Proof.Machine

/-- `add` (06 R90). -/
def execAdd (gd : Guard) (t : IntTy) (sat : Bool) (d : Reg) (a b : Src) (s : State) : Host.Outcome State Fault Refusal :=
  laneWrite (.add gd t sat d a b) gd d t.width s fun g _ l =>
    finish t sat (tyRead t (g.src a t.width l) + tyRead t (g.src b t.width l))

/-- `sub` (06 R90). -/
def execSub (gd : Guard) (t : IntTy) (sat : Bool) (d : Reg) (a b : Src) (s : State) : Host.Outcome State Fault Refusal :=
  laneWrite (.sub gd t sat d a b) gd d t.width s fun g _ l =>
    finish t sat (tyRead t (g.src a t.width l) - tyRead t (g.src b t.width l))

/-- `mul` (06 R90). -/
def execMul (gd : Guard) (t : IntTy) (sat : Bool) (d : Reg) (a b : Src) (s : State) : Host.Outcome State Fault Refusal :=
  laneWrite (.mul gd t sat d a b) gd d t.width s fun g _ l =>
    finish t sat (tyRead t (g.src a t.width l) * tyRead t (g.src b t.width l))

/-- `mad` (06 R90). -/
def execMad (gd : Guard) (t : IntTy) (sat : Bool) (d : Reg) (a b c : Src) (s : State) : Host.Outcome State Fault Refusal :=
  laneWrite (.mad gd t sat d a b c) gd d t.width s fun g _ l =>
    finish t sat (tyRead t (g.src a t.width l) * tyRead t (g.src b t.width l) + tyRead t (g.src c t.width l))

/-- `mulh` (06 R91). -/
def execMulh (gd : Guard) (t : IntTy) (d : Reg) (a b : Src) (s : State) : Host.Outcome State Fault Refusal :=
  laneWrite (.mulh gd t d a b) gd d t.width s fun g _ l =>
    mulHigh t (g.src a t.width l) (g.src b t.width l)

/-- `addc` (06 R94). -/
def execAddc (gd : Guard) (d : Reg) (a b : Src) (c : Reg) (s : State) : Host.Outcome State Fault Refusal :=
  lanewise (.addc gd d a b c) gd s fun g _ ls => .group s (ls.foldl (fun acc l =>
    let x : Int := (g.src a 1 l : Int) + g.src b 1 l + (g.rdP l c.toNat).toNat
    (acc.wrVs l d.toNat 1 (bitsInt x 32)).wrP l c.toNat (decide (2 ^ 32 ≤ x))) g)

/-- `subb` (06 R94). -/
def execSubb (gd : Guard) (d : Reg) (a b : Src) (c : Reg) (s : State) : Host.Outcome State Fault Refusal :=
  lanewise (.subb gd d a b c) gd s fun g _ ls => .group s (ls.foldl (fun acc l =>
    let x : Int := (g.src a 1 l : Int) - g.src b 1 l - (g.rdP l c.toNat).toNat
    (acc.wrVs l d.toNat 1 (bitsInt x 32)).wrP l c.toNat (decide (x < 0))) g)

/-- `abs` (06 R92). -/
def execAbs (gd : Guard) (t : IntTy) (sat : Bool) (d : Reg) (a : Src) (s : State) : Host.Outcome State Fault Refusal :=
  laneWrite (.abs gd t sat d a) gd d t.width s fun g _ l => finish t sat (tyRead t (g.src a t.width l)).natAbs

/-- `min` (06 R93). -/
def execMin (gd : Guard) (t : IntTy) (d : Reg) (a b : Src) (s : State) : Host.Outcome State Fault Refusal :=
  laneWrite (.min gd t d a b) gd d t.width s fun g _ l =>
    pickMinMax t true (g.src a t.width l) (g.src b t.width l)

/-- `max` (06 R93). -/
def execMax (gd : Guard) (t : IntTy) (d : Reg) (a b : Src) (s : State) : Host.Outcome State Fault Refusal :=
  laneWrite (.max gd t d a b) gd d t.width s fun g _ l =>
    pickMinMax t false (g.src a t.width l) (g.src b t.width l)

/-- `and` (06 R97). -/
def execAnd (gd : Guard) (t : IntTy) (d : Reg) (a b : Src) (s : State) : Host.Outcome State Fault Refusal :=
  laneWrite (.and gd t d a b) gd d t.width s fun g _ l =>
    (g.src a t.width l) &&& (g.src b t.width l)

/-- `or` (06 R97). -/
def execOr (gd : Guard) (t : IntTy) (d : Reg) (a b : Src) (s : State) : Host.Outcome State Fault Refusal :=
  laneWrite (.or gd t d a b) gd d t.width s fun g _ l =>
    (g.src a t.width l) ||| (g.src b t.width l)

/-- `xor` (06 R97). -/
def execXor (gd : Guard) (t : IntTy) (d : Reg) (a b : Src) (s : State) : Host.Outcome State Fault Refusal :=
  laneWrite (.xor gd t d a b) gd d t.width s fun g _ l =>
    (g.src a t.width l) ^^^ (g.src b t.width l)

/-- `lop3` (06 R98). -/
def execLop3 (gd : Guard) (tt : BitVec 8) (d : Reg) (a b c : Src) (s : State) : Host.Outcome State Fault Refusal :=
  laneWrite (.lop3 gd tt d a b c) gd d 1 s fun g _ l => lop3Value tt (g.src a 1 l) (g.src b 1 l) (g.src c 1 l)

/-- `shl` (06 R99). -/
def execShl (gd : Guard) (t : IntTy) (d : Reg) (a b : Src) (s : State) : Host.Outcome State Fault Refusal :=
  laneWrite (.shl gd t d a b) gd d t.width s fun g _ l =>
    shift .shl (tyW t) (g.src a t.width l) (g.src b 1 l)

/-- `shr` (06 R99). -/
def execShr (gd : Guard) (t : IntTy) (d : Reg) (a b : Src) (s : State) : Host.Outcome State Fault Refusal :=
  laneWrite (.shr gd t d a b) gd d t.width s fun g _ l =>
    shift .shr (tyW t) (g.src a t.width l) (g.src b 1 l)

/-- `sar` (06 R99). -/
def execSar (gd : Guard) (t : IntTy) (d : Reg) (a b : Src) (s : State) : Host.Outcome State Fault Refusal :=
  laneWrite (.sar gd t d a b) gd d t.width s fun g _ l =>
    shift .sar (tyW t) (g.src a t.width l) (g.src b 1 l)

/-- `rot` (06 R99). -/
def execRot (gd : Guard) (t : IntTy) (d : Reg) (a b : Src) (s : State) : Host.Outcome State Fault Refusal :=
  laneWrite (.rot gd t d a b) gd d t.width s fun g _ l =>
    shift .rot (tyW t) (g.src a t.width l) (g.src b 1 l)

/-- `bfe` (06 R100). -/
def execBfe (gd : Guard) (t : IntTy) (d : Reg) (a b c : Src) (s : State) : Host.Outcome State Fault Refusal :=
  laneWrite (.bfe gd t d a b c) gd d t.width s fun g _ l => extractField t (g.src a t.width l) (g.src b 1 l) (g.src c 1 l)

/-- `bfi` (06 R101). -/
def execBfi (gd : Guard) (t : IntTy) (d : Reg) (a b c : Src) (s : State) : Host.Outcome State Fault Refusal :=
  laneWrite (.bfi gd t d a b c) gd d t.width s fun g _ l =>
    insertField (tyW t) (g.rdVs l d.toNat t.width) (g.src a t.width l) (g.src b 1 l) (g.src c 1 l)

/-- `popc` (06 R102). -/
def execPopc (gd : Guard) (t : IntTy) (d : Reg) (a : Src) (s : State) : Host.Outcome State Fault Refusal :=
  laneWrite (.popc gd t d a) gd d 1 s fun g _ l => popCount (tyW t) (g.src a t.width l)

/-- `clz` (06 R102). -/
def execClz (gd : Guard) (t : IntTy) (d : Reg) (a : Src) (s : State) : Host.Outcome State Fault Refusal :=
  laneWrite (.clz gd t d a) gd d 1 s fun g _ l => countLeading (tyW t) (g.src a t.width l)

/-- `brev` (06 R102). -/
def execBrev (gd : Guard) (t : IntTy) (d : Reg) (a : Src) (s : State) : Host.Outcome State Fault Refusal :=
  laneWrite (.brev gd t d a) gd d t.width s fun g _ l => bitReverse (tyW t) (g.src a t.width l)

/-- `cmp` (06 R105). -/
def execCmp (gd : Guard) (t : IntTy) (cc : Cc) (d : Reg) (a b : Src) (s : State) : Host.Outcome State Fault Refusal :=
  lanePred (.cmp gd t cc d a b) gd d s fun g l => compareInt cc (tyRead t (g.src a t.width l)) (tyRead t (g.src b t.width l))

/-- `sel` (06 R106). -/
def execSel (gd : Guard) (t : IntTy) (d : Reg) (a b : Src) (u : Bool) (c : Reg) (s : State) : Host.Outcome State Fault Refusal :=
  laneWrite (.sel gd t d a b u c) gd d t.width s fun g _ l =>
    if (if u then g.rdQ c.toNat else g.rdP l c.toNat) then (g.src a t.width l) else (g.src b t.width l)

/-- `mov` (06 R107). -/
def execMov (gd : Guard) (t : IntTy) (d : Reg) (a : Src) (s : State) : Host.Outcome State Fault Refusal :=
  laneWrite (.mov gd t d a) gd d t.width s fun g _ l => (g.src a t.width l)

/-- `li` (06 R108). -/
def execLi (gd : Guard) (d : Reg) (imm : BitVec 32) (s : State) : Host.Outcome State Fault Refusal :=
  laneWrite (.li gd d imm) gd d 1 s fun _ _ _ => imm.toNat

/-- `prmt` (06 R103). -/
def execPrmt (gd : Guard) (d : Reg) (a b c : Src) (s : State) : Host.Outcome State Fault Refusal :=
  laneWrite (.prmt gd d a b c) gd d 1 s fun g _ l => permute (g.src a 1 l) (g.src b 1 l) (g.src c 1 l)

/-- `sext` (06 R104). -/
def execSext (gd : Guard) (t : IntTy) (d : Reg) (a b : Src) (s : State) : Host.Outcome State Fault Refusal :=
  laneWrite (.sext gd t d a b) gd d t.width s fun g _ l =>
    signExtend (tyW t) (g.src a t.width l) (g.src b 1 l)

/-- `dp4` (06 R96). -/
def execDp4 (gd : Guard) (t : IntTy) (t2 : ByteTy) (sat : Bool) (d : Reg) (a b c : Src) (s : State) : Host.Outcome State Fault Refusal :=
  laneWrite (.dp4 gd t t2 sat d a b c) gd d 1 s fun g _ l => dotBytes t t2 sat (g.src a 1 l) (g.src b 1 l) (g.src c 1 l)

/-- `sad` (06 R95). -/
def execSad (gd : Guard) (t : IntTy) (d : Reg) (a b c : Src) (s : State) : Host.Outcome State Fault Refusal :=
  laneWrite (.sad gd t d a b c) gd d 1 s fun g _ l => absDiffAdd t (g.src a 1 l) (g.src b 1 l) (g.src c 1 l)

end Sys2Proof.Machine
end

