-- ==== Sys2Proof/Machine/Power.lean ====
section
/-! DEFINITION. Reset and the winding (23 R411), the regulator (23 R412), the module's limits (23 R413). -/

namespace Sys2Proof.Machine

/-! ### The winding (23 R411) -/

/-- `PACKAGE_RESET` (23 R411): every register at its reset value, the winding at step 1; what the model itself keeps goes on. -/
def execPackageReset (s : State) : Host.Outcome State Fault Refusal :=
  event s (some { State.reset with turn := s.turn, tick := s.tick, free := s.free, nextId := s.nextId, out := s.out })

/-- The next step of the winding. -/
def Ctl.nextStep (c : Ctl) : Ctl := { c with step := c.step + 1, retries := [], passed := 0 }

/-- Every die satisfies a condition. -/
def State.everyDie (s : State) (f : Die → Bool) : Bool := [0, 1, 2, 3].all fun d => f (s.die d)

/-- The stacks that are not fenced off. -/
def Ctl.stacks (c : Ctl) : List Nat := (List.range 12).filter fun k => !c.fenced.getLsbD k

/-- The self-refresh check of the stacks that have not passed it (23 R411 step 2): `failed` names those that do not; one that fails a third time is
fenced off. -/
def Ctl.selfRefresh (c : Ctl) (failed : BitVec 12) : Ctl :=
  c.stacks.foldl (fun x k =>
    if x.passed.getLsbD k then x
    else if !failed.getLsbD k then { x with passed := x.passed ||| BitVec.ofNat 12 (2 ^ k) }
    else if Tbl.getD x.retries k 0 < 2 then { x with retries := Tbl.put x.retries k (Tbl.getD x.retries k 0 + 1) }
    else { x with fenced := x.fenced ||| BitVec.ofNat 12 (2 ^ k) }) c

/-- The training of every channel at the present temperature (23 R411 step 3): `failed` names the stacks where it does not pass. -/
def State.trainStacks (s : State) (failed : BitVec 12) : Ctl :=
  s.ctl.stacks.foldl (fun x k =>
    if failed.getLsbD k then { x with passed := x.passed &&& ~~~(BitVec.ofNat 12 (2 ^ k)) }
    else { x with passed := x.passed ||| BitVec.ofNat 12 (2 ^ k), trainedAt := Tbl.put x.trainedAt k (s.stack k).temp }) s.ctl

/-- The temperature of a stack's training becomes that of its channels (23 R411 step 4, 18 R345). -/
def State.recordTraining (s : State) (k : Nat) : State :=
  s.setStack k { s.stack k with trained := (List.range 32).foldl (fun t c => Tbl.setD t c (Tbl.getD s.ctl.trainedAt k 0) 0) (s.stack k).trained }

/-- A die whose junction sensors all read above −5 °C runs at 2.1 GHz (23 R411 step 4). -/
def Die.release (d : Die) : Die := if -5 < d.jlow.toInt then { d with freq := 84 } else d

/-- `WINDING_STEP` (23 R411): the step in progress acts, and ends when its sensors and its check allow it. `failed` are the stacks whose check or
training does not pass this time; with the last step the dies run at 2.1 GHz and the package is in service. The event carries the lowest junction
sensor; one that carries another reading than the state holds changes nothing. -/
def execWindingStep (temp : Int) (failed : BitVec 12) (s : State) : Host.Outcome State Fault Refusal :=
  let c := s.ctl
  event s <|
    if c.rewait || temp != s.lowestSensor.toInt then none
    else match c.step with
      | 1 => if s.everyDie fun d => decide (-25 ≤ d.jlow.toInt) then some { s with ctl := c.nextStep } else none
      | 2 =>
        let c1 := c.selfRefresh failed
        some { s with ctl := if c1.stacks.all fun k => c1.passed.getLsbD k then c1.nextStep else c1 }
      | 3 =>
        let c1 := s.trainStacks failed
        some { s with ctl := if c1.stacks.all fun k => c1.passed.getLsbD k && decide (-5 ≤ (s.stack k).temp.toInt) then c1.nextStep else c1 }
      | 4 =>
        let s1 := c.stacks.foldl State.recordTraining ([0, 1, 2, 3].foldl (fun st d => st.setDie d (st.die d).release) s)
        some (if s1.everyDie fun d => d.freq == 84 then { s1 with ctl := c.nextStep } else s1)
      | _ => none

/-- `WINDING_RESTART` (23 R411): a step's bound is exceeded, which is counted; after 10 s the winding starts again. -/
def execWindingRestart (s : State) : Host.Outcome State Fault Refusal :=
  let c := s.ctl
  event s <|
    if c.step = 5 then none
    else if c.rewait then some { s with ctl := { c with step := 1, rewait := false, retries := [], passed := 0 } }
    else some { s with ctl := { c with fails := Nat.min 7 (c.fails + 1), rewait := true } }

/-! ### The regulator (23 R412) -/

/-- `CYCLE_STRETCH` (23 R412). -/
def execCycleStretch (die : Nat) (s : State) : Host.Outcome State Fault Refusal :=
  let d := s.die die
  event s (if die < 4 then some (s.setDie die { d with stretch := Nat.min (2 ^ 32 - 1) (d.stretch + 1), recent := d.recent + 1 }) else none)

/-- A resident context is to be saved and to become READY with its image; with PARTEN 0 no context is ever saved (21 R381). -/
def State.askSave (s : State) (q : Nat) : State :=
  let c := s.ctx q
  if s.sched.partEn && c.st == .resident && c.save.isNone && !c.saveDue && c.removing.isNone && c.image.isNone then s.setCtx q { c with save := some false }
  else s

/-- A die's issue stops, and the contexts that hold its cores are saved (23 R412). -/
def State.stopDie (s : State) (die : Nat) : State :=
  let s1 := s.setDie die { s.die die with stopped := true }
  let qs := (s.groups.filterMap fun p : Nat × Group => if p.1 / 64 / 96 = die then some p.2.ids.queue else none).dedup
  qs.foldl State.askSave s1

/-- `REGULATOR_TICK` (23 R412): the die's clock moves by at most one step within FMIN and FMAX; where it would have to go below 1.2 GHz the die's
issue stops. -/
def execRegulatorTick (die power : Nat) (tmax : Int) (s : State) : Host.Outcome State Fault Refusal :=
  let d := s.die die
  let limit := if s.ctl.derated then 3600 else 4400
  let above := limit < power || 100 ≤ tmax
  let down := 64 < d.recent || above
  let freq := if d.fmax < d.freq then d.freq - 1
    else if down then Nat.max d.fmin (d.freq - 1)
    else if d.recent = 0 then Nat.min d.fmax (d.freq + 1)
    else d.freq
  event s <|
    if 4 ≤ die ∨ s.ctl.step ≠ 5 then none
    else
      let s1 := s.setDie die { d with freq := if d.freq < d.fmin then d.freq + 1 else freq, recent := 0, power := power / 4 }
      some (if down && d.freq ≤ 48 then s1.stopDie die else s1)

/-- `THERMAL_STOP` (23 R412). -/
def execThermalStop (die : Nat) (s : State) : Host.Outcome State Fault Refusal := event s (if die < 4 then some (s.stopDie die) else none)

/-! ### The module's limits (23 R413) -/

/-- `MODULE_LIMIT_STOP` (23 R413): issue stops on every die, and every context is saved. -/
def execModuleLimitStop (s : State) : Host.Outcome State Fault Refusal :=
  event s (some ((Tbl.keys s.ctxs).foldl State.askSave { s with ctl := { s.ctl with held := true } }))

/-- `MODULE_LIMIT_RECOVERY` (23 R413). -/
def execModuleLimitRecovery (s : State) : Host.Outcome State Fault Refusal :=
  event s (if s.ctl.held then some { s with ctl := { s.ctl with held := false } } else none)

/-- `DERATED_BAND` (23 R413). -/
def execDeratedBand (inside : Bool) (s : State) : Host.Outcome State Fault Refusal :=
  event s (some { s with ctl := { s.ctl with derated := inside } })

end Sys2Proof.Machine
end

