-- ==== Sys2Proof/Machine/Uniform.lean ====
section
/-! DEFINITION. The uniform instructions (06 R86 to R112). Each executes once for the group when its guard is true. -/

namespace Sys2Proof.Machine

/-- `uadd` (06 R86, R90). -/
def execUadd (gd : Guard) (t : IntTy) (sat : Bool) (d a b : Reg) (s : State) : Host.Outcome State Fault Refusal :=
  uniWrite (.uadd gd t sat d a b) gd d t.width s fun g => finish t sat (tyRead t (g.rdSs a.toNat t.width) + tyRead t (g.rdSs b.toNat t.width))

/-- `usub` (06 R86, R90). -/
def execUsub (gd : Guard) (t : IntTy) (sat : Bool) (d a b : Reg) (s : State) : Host.Outcome State Fault Refusal :=
  uniWrite (.usub gd t sat d a b) gd d t.width s fun g => finish t sat (tyRead t (g.rdSs a.toNat t.width) - tyRead t (g.rdSs b.toNat t.width))

/-- `umul` (06 R86, R90). -/
def execUmul (gd : Guard) (t : IntTy) (sat : Bool) (d a b : Reg) (s : State) : Host.Outcome State Fault Refusal :=
  uniWrite (.umul gd t sat d a b) gd d t.width s fun g => finish t sat (tyRead t (g.rdSs a.toNat t.width) * tyRead t (g.rdSs b.toNat t.width))

/-- `umad` (06 R86, R90). -/
def execUmad (gd : Guard) (t : IntTy) (sat : Bool) (d a b c : Reg) (s : State) : Host.Outcome State Fault Refusal :=
  uniWrite (.umad gd t sat d a b c) gd d t.width s fun g =>
    finish t sat (tyRead t (g.rdSs a.toNat t.width) * tyRead t (g.rdSs b.toNat t.width) + tyRead t (g.rdSs c.toNat t.width))

/-- `umulh` (06 R86, R91). -/
def execUmulh (gd : Guard) (t : IntTy) (d a b : Reg) (s : State) : Host.Outcome State Fault Refusal :=
  uniWrite (.umulh gd t d a b) gd d t.width s fun g => mulHigh t (g.rdSs a.toNat t.width) (g.rdSs b.toNat t.width)

/-- `uand` (06 R86, R97). -/
def execUand (gd : Guard) (t : IntTy) (d a b : Reg) (s : State) : Host.Outcome State Fault Refusal :=
  uniWrite (.uand gd t d a b) gd d t.width s fun g => (g.rdSs a.toNat t.width) &&& (g.rdSs b.toNat t.width)

/-- `uor` (06 R86, R97). -/
def execUor (gd : Guard) (t : IntTy) (d a b : Reg) (s : State) : Host.Outcome State Fault Refusal :=
  uniWrite (.uor gd t d a b) gd d t.width s fun g => (g.rdSs a.toNat t.width) ||| (g.rdSs b.toNat t.width)

/-- `uxor` (06 R86, R97). -/
def execUxor (gd : Guard) (t : IntTy) (d a b : Reg) (s : State) : Host.Outcome State Fault Refusal :=
  uniWrite (.uxor gd t d a b) gd d t.width s fun g => (g.rdSs a.toNat t.width) ^^^ (g.rdSs b.toNat t.width)

/-- `ushl` (06 R86, R99). -/
def execUshl (gd : Guard) (t : IntTy) (d a b : Reg) (s : State) : Host.Outcome State Fault Refusal :=
  uniWrite (.ushl gd t d a b) gd d t.width s fun g => shift .shl (tyW t) (g.rdSs a.toNat t.width) (g.rdSs b.toNat 1)

/-- `ushr` (06 R86, R99). -/
def execUshr (gd : Guard) (t : IntTy) (d a b : Reg) (s : State) : Host.Outcome State Fault Refusal :=
  uniWrite (.ushr gd t d a b) gd d t.width s fun g => shift .shr (tyW t) (g.rdSs a.toNat t.width) (g.rdSs b.toNat 1)

/-- `usar` (06 R86, R99). -/
def execUsar (gd : Guard) (t : IntTy) (d a b : Reg) (s : State) : Host.Outcome State Fault Refusal :=
  uniWrite (.usar gd t d a b) gd d t.width s fun g => shift .sar (tyW t) (g.rdSs a.toNat t.width) (g.rdSs b.toNat 1)

/-- `umin` (06 R86, R93). -/
def execUmin (gd : Guard) (t : IntTy) (d a b : Reg) (s : State) : Host.Outcome State Fault Refusal :=
  uniWrite (.umin gd t d a b) gd d t.width s fun g => pickMinMax t true (g.rdSs a.toNat t.width) (g.rdSs b.toNat t.width)

/-- `umax` (06 R86, R93). -/
def execUmax (gd : Guard) (t : IntTy) (d a b : Reg) (s : State) : Host.Outcome State Fault Refusal :=
  uniWrite (.umax gd t d a b) gd d t.width s fun g => pickMinMax t false (g.rdSs a.toNat t.width) (g.rdSs b.toNat t.width)

/-- `ubfe` (06 R86, R100). -/
def execUbfe (gd : Guard) (t : IntTy) (d a b c : Reg) (s : State) : Host.Outcome State Fault Refusal :=
  uniWrite (.ubfe gd t d a b c) gd d t.width s fun g => extractField t (g.rdSs a.toNat t.width) (g.rdSs b.toNat 1) (g.rdSs c.toNat 1)

/-- `ubfi` (06 R86, R101). -/
def execUbfi (gd : Guard) (t : IntTy) (d a b c : Reg) (s : State) : Host.Outcome State Fault Refusal :=
  uniWrite (.ubfi gd t d a b c) gd d t.width s fun g =>
    insertField (tyW t) (g.rdSs d.toNat t.width) (g.rdSs a.toNat t.width) (g.rdSs b.toNat 1) (g.rdSs c.toNat 1)

/-- `upopc` (06 R86, R102). -/
def execUpopc (gd : Guard) (t : IntTy) (d a : Reg) (s : State) : Host.Outcome State Fault Refusal :=
  uniWrite (.upopc gd t d a) gd d 1 s fun g => popCount (tyW t) (g.rdSs a.toNat t.width)

/-- `uclz` (06 R86, R102). -/
def execUclz (gd : Guard) (t : IntTy) (d a : Reg) (s : State) : Host.Outcome State Fault Refusal :=
  uniWrite (.uclz gd t d a) gd d 1 s fun g => countLeading (tyW t) (g.rdSs a.toNat t.width)

/-- `ucmp` (06 R86, R105). -/
def execUcmp (gd : Guard) (t : IntTy) (cc : Cc) (d a b : Reg) (s : State) : Host.Outcome State Fault Refusal :=
  uniform (.ucmp gd t cc d a b) gd s fun g _ =>
    .group s (g.wrQ d.toNat (compareInt cc (tyRead t (g.rdSs a.toNat t.width)) (tyRead t (g.rdSs b.toNat t.width))))

/-- `usel` (06 R86, R106). -/
def execUsel (gd : Guard) (t : IntTy) (d a b c : Reg) (s : State) : Host.Outcome State Fault Refusal :=
  uniWrite (.usel gd t d a b c) gd d t.width s fun g => if g.rdQ c.toNat then (g.rdSs a.toNat t.width) else (g.rdSs b.toNat t.width)

/-- `umov` (06 R86, R107). -/
def execUmov (gd : Guard) (t : IntTy) (d a : Reg) (s : State) : Host.Outcome State Fault Refusal :=
  uniWrite (.umov gd t d a) gd d t.width s fun g => (g.rdSs a.toNat t.width)

/-- `uli` (06 R108). -/
def execUli (gd : Guard) (d : Reg) (imm : BitVec 32) (s : State) : Host.Outcome State Fault Refusal :=
  uniWrite (.uli gd d imm) gd d 1 s fun _ => imm.toNat

/-- `ulih` (06 R108). -/
def execUlih (gd : Guard) (d : Reg) (imm : BitVec 32) (s : State) : Host.Outcome State Fault Refusal :=
  uniWrite (.ulih gd d imm) gd d 2 s fun _ => imm.toNat * 2 ^ 32

/-- The cell number and the package number of CELL (02 R32). -/
def State.cellId (s : State) : Nat :=
  (Tbl.getD s.fabric.dom s.fabric.self .reset).cell + s.fabric.self * 2 ^ 6

/-- f0 to f11 as bits (02 R32: FLAGS). -/
def State.flagBits (s : State) (g : Group) : Nat :=
  (List.range 12).foldl (fun x f => if s.flagSet s.cur.core s.cur.slot g f then x + 2 ^ f else x) 0

/-- LEASE (02 R32); a shadow shares its leader's (02 R31). -/
def State.leaseWord (s : State) (g : Group) : Nat :=
  let h := match g.leader with
    | some l => (s.group? s.cur.core l).getD g
    | none => g
  h.lease % 2 ^ 14 + (if h.measured then 2 ^ 31 else 0)

/-- The partition number of a group (21 R381); 0 while partitioning is off. -/
def State.partOf (s : State) (g : Group) : Nat := if s.sched.partEn then (s.ctx g.ids.queue).desc.part else 0

/-- The uniform selectors of `usrd` with their widths in registers (02 R32). -/
def State.uniSel (s : State) (g : Group) (e : Entry) (sel : Nat) : Option (Nat × Nat) :=
  match sel with
  | 0x03 => some (g.ids.grpid, 1)
  | 0x04 => some (g.ids.teamid, 1)
  | 0x05 => some (g.ids.cluid, 1)
  | 0x06 => some (g.ids.gridid, 1)
  | 0x07 => some (s.cur.core, 1)
  | 0x08 => some (s.partOf g, 1)
  | 0x09 => some (s.cellId, 1)
  | 0x0A => some (s.time, 2)
  | 0x0B => some (e.fmt.toNat, 2)
  | 0x0C => some (g.fpstat.toNat, 1)
  | 0x0D => some (s.leaseWord g, 1)
  | 0x0E => some (g.rdepth, 1)
  | 0x0F => some (g.regcnt.toNat, 1)
  | 0x10 => some (s.flagBits g, 1)
  | _ => none

/-- The lane selectors of `usrd` (02 R32). -/
def Group.laneSel (g : Group) (sel lane : Nat) : Option Word32 :=
  match sel with
  | 0x00 => some (BitVec.ofNat 32 lane)
  | 0x01 => some (Tbl.getD g.regs.orig lane 0)
  | 0x02 => some (BitVec.ofNat 32 (lane / 4))
  | _ => none

/-- The group after its leader's mark that a value of TIME or FLAGS was read (06 R109). -/
def Group.noteRead (g : Group) (sel x : Nat) : Group :=
  if g.shadow.isSome ∧ (sel = 0x0A ∨ sel = 0x10) then { g with readQueue := g.readQueue ++ [x] } else g

/-- `usrd` (02 R32, 06 R109): a lane selector writes every lane of the fragment's MASK, a uniform one a scalar register or pair. A shadow
takes TIME and FLAGS from its leader. -/
def execUsrd (gd : Guard) (d : Reg) (sel : BitVec 32) (s : State) : Host.Outcome State Fault Refusal :=
  uniform (.usrd gd d sel) gd s fun g e =>
    if sel.toNat < 3 then
      .group s (((List.range 32).filter fun l => e.mask.getLsbD l).foldl
        (fun acc l => acc.wrV l d.toNat ((g.laneSel sel.toNat l).getD 0)) g)
    else
      match s.uniSel g e sel.toNat with
      | none => .fault (.word 0x02)
      | some (x, w) =>
        match g.leader with
        | none => .group s ((g.noteRead sel.toNat x).wrSs d.toNat w x)
        | some l =>
          if sel.toNat = 0x0A ∨ sel.toNat = 0x10 then
            match (s.group? s.cur.core l).map fun h => h.readQueue with
            | some (y :: rest) =>
              .done ((s.setCurGroup (g.wrSs d.toNat w y)).updGroup s.cur.core l fun h => { h with readQueue := rest })
            | _ => .stall s 10 0
          else .group s (g.wrSs d.toNat w x)

/-- `uswr` (06 R110): FPSTAT alone, with W1C meaning. -/
def execUswr (gd : Guard) (a : Reg) (sel : BitVec 32) (s : State) : Host.Outcome State Fault Refusal :=
  uniform (.uswr gd a sel) gd s fun g _ =>
    if sel = 0x0C then .group s { g with fpstat := g.fpstat &&& ~~~((g.rdS a.toNat).extractLsb' 0 5) }
    else .fault (.word 0x02)

/-- The check of a write to FMT (02 R28): every format field valid in its place, reserved bits zero. -/
def fmtOk (x : Nat) : Bool :=
  let af := bitsOf x 0 4
  let bf := bitsOf x 4 4
  let cf := bitsOf x 8 4
  (af ≤ 5 || af == 7) && bf ≤ 7 && (cf ≤ 1 || cf == 8) &&
    !bitOf x 15 && bitsOf x 22 2 == 0 && bitsOf x 30 2 == 0 && bitsOf x 38 26 == 0

/-- `ufmt` (06 R111): the issuing fragment's copy alone. -/
def execUfmt (gd : Guard) (a : Reg) (s : State) : Host.Outcome State Fault Refusal :=
  uniform (.ufmt gd a) gd s fun g e =>
    let x := g.rdSs a.toNat 2
    if fmtOk x then .group s (g.setEnt s.cur.entry { e with fmt := BitVec.ofNat 64 x }) else .fault (.word 0x02)

/-- `ulease` (06 R112): line count and mode; measured mode starts from one line at least; a shadow writes nothing. -/
def execUlease (gd : Guard) (imm : BitVec 32) (s : State) : Host.Outcome State Fault Refusal :=
  uniform (.ulease gd imm) gd s fun g _ =>
    if g.leader.isSome then .done s
    else
      let n := bitsOf imm.toNat 0 14
      let m := imm.getLsbD 31
      .group s { g with lease := if m ∧ n = 0 then 1 else n, measured := m }

end Sys2Proof.Machine
end

