-- ==== Sys2Proof/Machine/Dispatch.lean ====
section
/-! DEFINITION. The meaning of every step, one arm per row of spec/opcode_table.json. -/

namespace Sys2Proof.Machine

def exec (i : Instr) (s : State) : Host.Outcome State Fault Refusal :=
  match i with
  | .uadd g t sat d a b => Sys2Proof.Machine.execUadd g t sat d a b s
  | .usub g t sat d a b => Sys2Proof.Machine.execUsub g t sat d a b s
  | .umul g t sat d a b => Sys2Proof.Machine.execUmul g t sat d a b s
  | .umulh g t d a b => Sys2Proof.Machine.execUmulh g t d a b s
  | .umad g t sat d a b c => Sys2Proof.Machine.execUmad g t sat d a b c s
  | .uand g t d a b => Sys2Proof.Machine.execUand g t d a b s
  | .uor g t d a b => Sys2Proof.Machine.execUor g t d a b s
  | .uxor g t d a b => Sys2Proof.Machine.execUxor g t d a b s
  | .ushl g t d a b => Sys2Proof.Machine.execUshl g t d a b s
  | .ushr g t d a b => Sys2Proof.Machine.execUshr g t d a b s
  | .usar g t d a b => Sys2Proof.Machine.execUsar g t d a b s
  | .umin g t d a b => Sys2Proof.Machine.execUmin g t d a b s
  | .umax g t d a b => Sys2Proof.Machine.execUmax g t d a b s
  | .ubfe g t d a b c => Sys2Proof.Machine.execUbfe g t d a b c s
  | .ubfi g t d a b c => Sys2Proof.Machine.execUbfi g t d a b c s
  | .upopc g t d a => Sys2Proof.Machine.execUpopc g t d a s
  | .uclz g t d a => Sys2Proof.Machine.execUclz g t d a s
  | .ucmp g t cc d a b => Sys2Proof.Machine.execUcmp g t cc d a b s
  | .usel g t d a b c => Sys2Proof.Machine.execUsel g t d a b c s
  | .umov g t d a => Sys2Proof.Machine.execUmov g t d a s
  | .uli g d imm => Sys2Proof.Machine.execUli g d imm s
  | .ulih g d imm => Sys2Proof.Machine.execUlih g d imm s
  | .usrd g d sel => Sys2Proof.Machine.execUsrd g d sel s
  | .uswr g a sel => Sys2Proof.Machine.execUswr g a sel s
  | .ufmt g a => Sys2Proof.Machine.execUfmt g a s
  | .ulease g imm => Sys2Proof.Machine.execUlease g imm s
  | .nop g => Sys2Proof.Machine.execNop g s
  | .bra g off => Sys2Proof.Machine.execBra g off s
  | .brq g whenFalse q off => Sys2Proof.Machine.execBrq g whenFalse q off s
  | .bdiv g join off => Sys2Proof.Machine.execBdiv g join off s
  | .regang g off => Sys2Proof.Machine.execRegang g off s
  | .loop g vector c off => Sys2Proof.Machine.execLoop g vector c off s
  | .call g l off => Sys2Proof.Machine.execCall g l off s
  | .calli g l a => Sys2Proof.Machine.execCalli g l a s
  | .ret g a => Sys2Proof.Machine.execRet g a s
  | .jmpi g a => Sys2Proof.Machine.execJmpi g a s
  | .exit g => Sys2Proof.Machine.execExit g s
  | .yield g => Sys2Proof.Machine.execYield g s
  | .add g t sat d a b => Sys2Proof.Machine.execAdd g t sat d a b s
  | .sub g t sat d a b => Sys2Proof.Machine.execSub g t sat d a b s
  | .mul g t sat d a b => Sys2Proof.Machine.execMul g t sat d a b s
  | .mulh g t d a b => Sys2Proof.Machine.execMulh g t d a b s
  | .mad g t sat d a b c => Sys2Proof.Machine.execMad g t sat d a b c s
  | .addc g d a b c => Sys2Proof.Machine.execAddc g d a b c s
  | .subb g d a b c => Sys2Proof.Machine.execSubb g d a b c s
  | .abs g t sat d a => Sys2Proof.Machine.execAbs g t sat d a s
  | .min g t d a b => Sys2Proof.Machine.execMin g t d a b s
  | .max g t d a b => Sys2Proof.Machine.execMax g t d a b s
  | .and g t d a b => Sys2Proof.Machine.execAnd g t d a b s
  | .or g t d a b => Sys2Proof.Machine.execOr g t d a b s
  | .xor g t d a b => Sys2Proof.Machine.execXor g t d a b s
  | .lop3 g tt d a b c => Sys2Proof.Machine.execLop3 g tt d a b c s
  | .shl g t d a b => Sys2Proof.Machine.execShl g t d a b s
  | .shr g t d a b => Sys2Proof.Machine.execShr g t d a b s
  | .sar g t d a b => Sys2Proof.Machine.execSar g t d a b s
  | .rot g t d a b => Sys2Proof.Machine.execRot g t d a b s
  | .bfe g t d a b c => Sys2Proof.Machine.execBfe g t d a b c s
  | .bfi g t d a b c => Sys2Proof.Machine.execBfi g t d a b c s
  | .popc g t d a => Sys2Proof.Machine.execPopc g t d a s
  | .clz g t d a => Sys2Proof.Machine.execClz g t d a s
  | .brev g t d a => Sys2Proof.Machine.execBrev g t d a s
  | .cmp g t cc d a b => Sys2Proof.Machine.execCmp g t cc d a b s
  | .sel g t d a b cUniform c => Sys2Proof.Machine.execSel g t d a b cUniform c s
  | .mov g t d a => Sys2Proof.Machine.execMov g t d a s
  | .li g d imm => Sys2Proof.Machine.execLi g d imm s
  | .prmt g d a b c => Sys2Proof.Machine.execPrmt g d a b c s
  | .sext g t d a b => Sys2Proof.Machine.execSext g t d a b s
  | .dp4 g t t2 sat d a b c => Sys2Proof.Machine.execDp4 g t t2 sat d a b c s
  | .sad g t d a b c => Sys2Proof.Machine.execSad g t d a b c s
  | .fadd g t r sat d a b => Sys2Proof.Machine.execFadd g t r sat d a b s
  | .fsub g t r sat d a b => Sys2Proof.Machine.execFsub g t r sat d a b s
  | .fmul g t r sat d a b => Sys2Proof.Machine.execFmul g t r sat d a b s
  | .ffma g t r sat d a b c => Sys2Proof.Machine.execFfma g t r sat d a b c s
  | .fmin g t d a b => Sys2Proof.Machine.execFmin g t d a b s
  | .fmax g t d a b => Sys2Proof.Machine.execFmax g t d a b s
  | .fcmp g t cc d a b => Sys2Proof.Machine.execFcmp g t cc d a b s
  | .fclass g t d a => Sys2Proof.Machine.execFclass g t d a s
  | .fdiv g t r sat d a b => Sys2Proof.Machine.execFdiv g t r sat d a b s
  | .fsqrt g t r sat d a => Sys2Proof.Machine.execFsqrt g t r sat d a s
  | .frcp g d a => Sys2Proof.Machine.execFrcp g d a s
  | .frsq g d a => Sys2Proof.Machine.execFrsq g d a s
  | .fex2 g d a => Sys2Proof.Machine.execFex2 g d a s
  | .flg2 g d a => Sys2Proof.Machine.execFlg2 g d a s
  | .frred g d a q => Sys2Proof.Machine.execFrred g d a q s
  | .fsin g d a => Sys2Proof.Machine.execFsin g d a s
  | .fcos g d a => Sys2Proof.Machine.execFcos g d a s
  | .fint g t r d a => Sys2Proof.Machine.execFint g t r d a s
  | .fcvt g t t2 r sat d a => Sys2Proof.Machine.execFcvt g t t2 r sat d a s
  | .f2i g t t2 r d a => Sys2Proof.Machine.execF2i g t t2 r d a s
  | .i2f g t t2 r sat d a => Sys2Proof.Machine.execI2f g t t2 r sat d a s
  | .fpack g t r sat d a b => Sys2Proof.Machine.execFpack g t r sat d a b s
  | .funpack g t2 d a => Sys2Proof.Machine.execFunpack g t2 d a s
  | .fldexp g t r sat d a b => Sys2Proof.Machine.execFldexp g t r sat d a b s
  | .ffrexp g t d a e => Sys2Proof.Machine.execFfrexp g t d a e s
  | .fdot2 g t t2 r sat d a b c => Sys2Proof.Machine.execFdot2 g t t2 r sat d a b c s
  | .fdot4 g t t2 r sat d a b c => Sys2Proof.Machine.execFdot4 g t t2 r sat d a b c s
  | .shfl g t m d a b => Sys2Proof.Machine.execShfl g t m d a b s
  | .pswap g t d a b => Sys2Proof.Machine.execPswap g t d a b s
  | .vote g m d a => Sys2Proof.Machine.execVote g m d a s
  | .ballot g d a => Sys2Proof.Machine.execBallot g d a s
  | .lscan g op t excl d a => Sys2Proof.Machine.execLscan g op t excl d a s
  | .lred g op t d a => Sys2Proof.Machine.execLred g op t d a s
  | .matchl g t d a => Sys2Proof.Machine.execMatchl g t d a s
  | .regroup g d a => Sys2Proof.Machine.execRegroup g d a s
  | .regroupRendezvous core slotA slotB => Sys2Proof.Machine.execRegroupRendezvous core slotA slotB s
  | .ld g sz ap pol d m => Sys2Proof.Machine.execLd g sz ap pol d m s
  | .st g sz ap pol d m => Sys2Proof.Machine.execSt g sz ap pol d m s
  | .ldu g sz ap pol d m => Sys2Proof.Machine.execLdu g sz ap pol d m s
  | .stu g sz ap pol d m => Sys2Proof.Machine.execStu g sz ap pol d m s
  | .lds g sz d m => Sys2Proof.Machine.execLds g sz d m s
  | .sts g sz d m => Sys2Proof.Machine.execSts g sz d m s
  | .prf g pol m => Sys2Proof.Machine.execPrf g pol m s
  | .atom g x ap d a b c => Sys2Proof.Machine.execAtom g x ap d a b c s
  | .atomu g x ap d a b c => Sys2Proof.Machine.execAtomu g x ap d a b c s
  | .atoms g x d a b c => Sys2Proof.Machine.execAtoms g x d a b c s
  | .fence g scope order => Sys2Proof.Machine.execFence g scope order s
  | .wait g path a => Sys2Proof.Machine.execWait g path a s
  | .commit g path => Sys2Proof.Machine.execCommit g path s
  | .cln g m => Sys2Proof.Machine.execCln g m s
  | .inv g m => Sys2Proof.Machine.execInv g m s
  | .clninv g m => Sys2Proof.Machine.execClninv g m s
  | .rdenter g => Sys2Proof.Machine.execRdenter g s
  | .rdexit g => Sys2Proof.Machine.execRdexit g s
  | .srsv g wide d a => Sys2Proof.Machine.execSrsv g wide d a s
  | .srel g => Sys2Proof.Machine.execSrel g s
  | .bload g a b => Sys2Proof.Machine.execBload g a b s
  | .cbt g d a => Sys2Proof.Machine.execCbt g d a s
  | .mma g chk d a b tok => Sys2Proof.Machine.execMma g chk d a b tok s
  | .szero g d tok => Sys2Proof.Machine.execSzero g d tok s
  | .srd g d a b tok => Sys2Proof.Machine.execSrd g d a b tok s
  | .swr g d a b tok => Sys2Proof.Machine.execSwr g d a b tok s
  | .sst g d a b tok => Sys2Proof.Machine.execSst g d a b tok s
  | .cpy g d a b tok => Sys2Proof.Machine.execCpy g d a b tok s
  | .gath g t d a b tok => Sys2Proof.Machine.execGath g t d a b tok s
  | .scat g t d a b tok => Sys2Proof.Machine.execScat g t d a b tok s
  | .fill g wide d a b tok => Sys2Proof.Machine.execFill g wide d a b tok s
  | .tokset g a => Sys2Proof.Machine.execTokset g a s
  | .toksetApply core slot => Sys2Proof.Machine.execToksetApply core slot s
  | .pim g op d a b tok => Sys2Proof.Machine.execPim g op d a b tok s
  | .rowcp g d a b tok => Sys2Proof.Machine.execRowcp g d a b tok s
  | .rowz g d b tok => Sys2Proof.Machine.execRowz g d b tok s
  | .cgrp g scope d a => Sys2Proof.Machine.execCgrp g scope d a s
  | .cstart g t a b => Sys2Proof.Machine.execCstart g t a b s
  | .cwait g a => Sys2Proof.Machine.execCwait g a s
  | .red g op t scope a b => Sys2Proof.Machine.execRed g op t scope a b s
  | .emit g a b => Sys2Proof.Machine.execEmit g a b s
  | .trap g imm => Sys2Proof.Machine.execTrap g imm s
  | .resume g d a b => Sys2Proof.Machine.execResume g d a b s
  | .csrr g d a => Sys2Proof.Machine.execCsrr g d a s
  | .csrw g a b => Sys2Proof.Machine.execCsrw g a b s
  | .bar g level => Sys2Proof.Machine.execBar g level s
  | .barrierRelease core slot => Sys2Proof.Machine.execBarrierRelease core slot s
  | .gwait g scope => Sys2Proof.Machine.execGwait g scope s
  | .dfree g a b => Sys2Proof.Machine.execDfree g a b s
  | .brk g imm => Sys2Proof.Machine.execBrk g imm s
  | .dbg g d a b c => Sys2Proof.Machine.execDbg g d a b c s
  | .halt g d a => Sys2Proof.Machine.execHalt g d a s
  | .sleep g imm => Sys2Proof.Machine.execSleep g imm s
  | .unassignedOpcode op => Sys2Proof.Machine.execUnassignedOpcode op s
  | .sleepWake core slot => Sys2Proof.Machine.execSleepWake core slot s
  | .clauseStart core slot entry => Sys2Proof.Machine.execClauseStart core slot entry s
  | .groupEnd core slot => Sys2Proof.Machine.execGroupEnd core slot s
  | .memoryOpCompletion core slot path => Sys2Proof.Machine.execMemoryOpCompletion core slot path s
  | .batchComplete core slot path => Sys2Proof.Machine.execBatchComplete core slot path s
  | .faultRecordWrite core slot => Sys2Proof.Machine.execFaultRecordWrite core slot s
  | .engineFaultSuspend cmd => Sys2Proof.Machine.execEngineFaultSuspend cmd s
  | .comparatorBreakpoint core slot entry => Sys2Proof.Machine.execComparatorBreakpoint core slot entry s
  | .dbgStep core slot => Sys2Proof.Machine.execDbgStep core slot s
  | .dbgStop core slot => Sys2Proof.Machine.execDbgStop core slot s
  | .preemption queue => Sys2Proof.Machine.execPreemption queue s
  | .contextRestore queue => Sys2Proof.Machine.execContextRestore queue s
  | .contextRemoval queue => Sys2Proof.Machine.execContextRemoval queue s
  | .escapementEvaluation core => Sys2Proof.Machine.execEscapementEvaluation core s
  | .ageingTimeReached core slot => Sys2Proof.Machine.execAgeingTimeReached core slot s
  | .settFill core team sett => Sys2Proof.Machine.execSettFill core team sett s
  | .settSpill core team sett => Sys2Proof.Machine.execSettSpill core team sett s
  | .cmemCfgWrite core value => Sys2Proof.Machine.execCmemCfgWrite core value s
  | .l1ResizeComplete core => Sys2Proof.Machine.execL1ResizeComplete core s
  | .xlatInvWrite core value => Sys2Proof.Machine.execXlatInvWrite core value s
  | .xlatInvComplete core => Sys2Proof.Machine.execXlatInvComplete core s
  | .commandDispatch cmd => Sys2Proof.Machine.execCommandDispatch cmd s
  | .faceGrant bench face => Sys2Proof.Machine.execFaceGrant bench face s
  | .mmaKstep cmd => Sys2Proof.Machine.execMmaKstep cmd s
  | .engineCommandComplete cmd => Sys2Proof.Machine.execEngineCommandComplete cmd s
  | .nearMemoryRowComplete cmd => Sys2Proof.Machine.execNearMemoryRowComplete cmd s
  | .dresserVisit die line => Sys2Proof.Machine.execDresserVisit die line s
  | .eccTargetChange die ce tmin tmax quiet => Sys2Proof.Machine.execEccTargetChange die ce tmin tmax quiet s
  | .retrainQueue stack chan tempMoved ce => Sys2Proof.Machine.execRetrainQueue stack chan tempMoved ce s
  | .retrainingWindow stack pass => Sys2Proof.Machine.execRetrainingWindow stack pass s
  | .retrainRequeue stack chan => Sys2Proof.Machine.execRetrainRequeue stack chan s
  | .shapeRecordWrite rec value => Sys2Proof.Machine.execShapeRecordWrite rec value s
  | .shapeChangeComplete => Sys2Proof.Machine.execShapeChangeComplete s
  | .writeIndexNotify queue => Sys2Proof.Machine.execWriteIndexNotify queue s
  | .queueEntryRead queue => Sys2Proof.Machine.execQueueEntryRead queue s
  | .clusterPlacement queue => Sys2Proof.Machine.execClusterPlacement queue s
  | .clusterReserve queue core => Sys2Proof.Machine.execClusterReserve queue core s
  | .slotMapping part => Sys2Proof.Machine.execSlotMapping part s
  | .sliceExpiry queue => Sys2Proof.Machine.execSliceExpiry queue s
  | .waitingBudgetExceeded queue => Sys2Proof.Machine.execWaitingBudgetExceeded queue s
  | .nodeCoalescingTimer queue node => Sys2Proof.Machine.execNodeCoalescingTimer queue node s
  | .partWrite part value => Sys2Proof.Machine.execPartWrite part value s
  | .partctlWrite value => Sys2Proof.Machine.execPartctlWrite value s
  | .rdmaWrite qp key lpa data => Sys2Proof.Machine.execRdmaWrite qp key lpa data s
  | .rdmaRead qp key lpa len => Sys2Proof.Machine.execRdmaRead qp key lpa len s
  | .cread qp w => Sys2Proof.Machine.execCread qp w s
  | .cwrite qp w => Sys2Proof.Machine.execCwrite qp w s
  | .load qp w => Sys2Proof.Machine.execLoad qp w s
  | .resumeCommand qp w => Sys2Proof.Machine.execResumeCommand qp w s
  | .remove qp w => Sys2Proof.Machine.execRemove qp w s
  | .restore qp w => Sys2Proof.Machine.execRestore qp w s
  | .mbox qp w => Sys2Proof.Machine.execMbox qp w s
  | .attest qp w => Sys2Proof.Machine.execAttest qp w s
  | .winset qp w => Sys2Proof.Machine.execWinset qp w s
  | .keyset qp w => Sys2Proof.Machine.execKeyset qp w s
  | .mailboxSend => Sys2Proof.Machine.execMailboxSend s
  | .packageReset => Sys2Proof.Machine.execPackageReset s
  | .windingStep temp failed => Sys2Proof.Machine.execWindingStep temp failed s
  | .windingRestart => Sys2Proof.Machine.execWindingRestart s
  | .cycleStretch die => Sys2Proof.Machine.execCycleStretch die s
  | .regulatorTick die power tmax => Sys2Proof.Machine.execRegulatorTick die power tmax s
  | .thermalStop die => Sys2Proof.Machine.execThermalStop die s
  | .moduleLimitStop => Sys2Proof.Machine.execModuleLimitStop s
  | .moduleLimitRecovery => Sys2Proof.Machine.execModuleLimitRecovery s
  | .deratedBand inside => Sys2Proof.Machine.execDeratedBand inside s
  | .rs pkg reach ms => Sys2Proof.Machine.execRs pkg reach ms s
  | .rx pkg reach ms => Sys2Proof.Machine.execRx pkg reach ms s
  | .atHome pkg lpa seq op t b c form => Sys2Proof.Machine.execAtHome pkg lpa seq op t b c form s
  | .cb pkg reach op t => Sys2Proof.Machine.execCb pkg reach op t s
  | .upgradeNotice pkg gran => Sys2Proof.Machine.execUpgradeNotice pkg gran s
  | .writeBack pkg gran keep data => Sys2Proof.Machine.execWriteBack pkg gran keep data s
  | .recall pa share => Sys2Proof.Machine.execRecall pa share s
  | .dirqLookup => Sys2Proof.Machine.execDirqLookup s
  | .firewallChange value => Sys2Proof.Machine.execFirewallChange value s
  | .firewallChangeComplete => Sys2Proof.Machine.execFirewallChangeComplete s
  | .remoteResponse req level cause data => Sys2Proof.Machine.execRemoteResponse req level cause data s
  | .remoteRetry req => Sys2Proof.Machine.execRemoteRetry req s
  | .remoteTimeout req => Sys2Proof.Machine.execRemoteTimeout req s
  | .atomicBusyResend req => Sys2Proof.Machine.execAtomicBusyResend req s
  | .replayEntryExpiry pkg seq => Sys2Proof.Machine.execReplayEntryExpiry pkg seq s
  | .writeBackResend req => Sys2Proof.Machine.execWriteBackResend req s
  | .packetDrop idx => Sys2Proof.Machine.execPacketDrop idx s
  | .heartbeat cell => Sys2Proof.Machine.execHeartbeat cell s
  | .cellDeathDeclare cell => Sys2Proof.Machine.execCellDeathDeclare cell s
  | .deathMessage cell => Sys2Proof.Machine.execDeathMessage cell s
  | .directorySweep => Sys2Proof.Machine.execDirectorySweep s
  | .selfIsolation => Sys2Proof.Machine.execSelfIsolation s
  | .lend ext value => Sys2Proof.Machine.execLend ext value s
  | .withdraw ext => Sys2Proof.Machine.execWithdraw ext s
  | .withdrawComplete ext => Sys2Proof.Machine.execWithdrawComplete ext s
  | .localGraceBegin dom => Sys2Proof.Machine.execLocalGraceBegin dom s
  | .localGraceEnd dom => Sys2Proof.Machine.execLocalGraceEnd dom s
  | .graceRequestMessage dom pkg scope => Sys2Proof.Machine.execGraceRequestMessage dom pkg scope s
  | .graceReport dom pkg scope => Sys2Proof.Machine.execGraceReport dom pkg scope s
  | .dfreePost queue => Sys2Proof.Machine.execDfreePost queue s
  | .dfreePostRetry queue => Sys2Proof.Machine.execDfreePostRetry queue s
  | .announcement gid n rank sig nstr ended => Sys2Proof.Machine.execAnnouncement gid n rank sig nstr ended s
  | .routePacketHop idx arrival => Sys2Proof.Machine.execRoutePacketHop idx arrival s
  | .collectiveAbort gid n cause => Sys2Proof.Machine.execCollectiveAbort gid n cause s
  | .collectiveTimeout core slot => Sys2Proof.Machine.execCollectiveTimeout core slot s
  | .controlRegisterWrite addr value firmware => Sys2Proof.Machine.execControlRegisterWrite addr value firmware s
  | .teamMigration core team target => Sys2Proof.Machine.execTeamMigration core team target s
  | .minimumResidencyReached queue => Sys2Proof.Machine.execMinimumResidencyReached queue s
  | .clusterAged queue => Sys2Proof.Machine.execClusterAged queue s
  | .linkDownOrReturn port up => Sys2Proof.Machine.execLinkDownOrReturn port up s
  | .rateLimitRelease cell => Sys2Proof.Machine.execRateLimitRelease cell s
  | .rdmaAtomic qp => Sys2Proof.Machine.execRdmaAtomic qp s
  | .badManagementCommand qp w => Sys2Proof.Machine.execBadManagementCommand qp w s

end Sys2Proof.Machine
end

