-- ==== Sys2Proof/Machine/Step.lean ====
section
/-! DEFINITION. One step: what the turn names moves, then time passes and the surroundings act. -/

namespace Sys2Proof.Machine

/-- A step of the hardware that a turn can name: neither a word of a program nor an unassigned opcode, which only an issue can meet. -/
def Instr.isEvent (i : Instr) : Bool :=
  i.guard?.isNone && match i with
    | .unassignedOpcode _ => false
    | _ => true

/-- A word executed: its region entry, its meaning, what follows it. -/
def issueWord (s : State) (i : Instr) : Host.Outcome State Fault Refusal :=
  match exec i (s.enterRegion i) with
  | .next t => .next (t.afterWord s i)
  | o => o

/-- What the turn does. -/
def act (s : State) : Host.Outcome State Fault Refusal :=
  match s.turn with
  | .issue core slot k =>
    match s.plan core slot k with
    | .idle => .next s
    | .done s1 => .next s1
    | .run s1 i => exec i s1
    | .word s1 i => issueWord s1 i
  | .event i => if Instr.isEvent i then exec i s else .next s
  | .status core slot => .next (s.updGroup core slot Group.writeStatus)

/-- One step: the turn's effect, then the surroundings and time (log entries 1, 6). -/
def step (s : State) : Host.Outcome State Fault Refusal :=
  match act s with
  | .next t => .next (t.around)
  | o => o

/-- A group of 32 lanes at monitor privilege in slot 0 of core 0, standing at slot 1 of a clause of one word at virtual address 0, which
the core's cached translation maps to local address 0; the clause's header and the word in memory; the turn is its issue. This stands
for a launch (log entry 13). -/
def State.withFetchWord (s : State) (_nbits w : Nat) : State :=
  let pa := domAddr s.fabric.self 0
  let leaf : Word64 := BitVec.ofNat 64 (pa + 0x63F)
  let g0 := Group.start ⟨0, 0, 0, 0, 0, 0, 0, 0⟩ 32 256 0 true 0 false ⟨.active, false, 0, 0, none, 0⟩
  let g := g0.setEnt 0 { g0.ent 0 with pos := ⟨0, 1⟩ }
  let s1 := (s.l2Drop (pa / 32)).setMem ((s.mem.wr 0 8 1).wr 8 8 w)
  let c := s1.coreSt 0
  let s2 := s1.setCore 0 { c with tlb := ⟨0, 0, 2 ^ 34, leaf⟩ :: c.tlb }
  { (s2.setGroup 0 0 g).setCtx 0 { s2.ctx 0 with st := .resident, hw := some 0 } with turn := .issue 0 0 0 }

end Sys2Proof.Machine
end

