-- ==== Sys2Proof/Safety.lean ====
section
/-! DEFINITION. The vocabulary of the claims: when a word executes normally, what it leaves of its group, and what a step keeps of memory and
registers. -/

namespace Sys2Proof.Machine

/-! ### When a word executes normally -/

/-- The group `g` issues the word `i` and nothing stops it first: the checks of 03 R52 pass, no register that the word reads has an uncorrectable
error (18 R340), and no timeout of an earlier posted store is due at it (12 R228). -/
structure Ready (i : Instr) (s : State) (g : Group) : Prop where
  here : s.group? s.cur.core s.cur.slot = some g
  legal : checkWord i g.mon g.regs.nvr (g.ent s.cur.entry).pos.slot s.cur.len = none
  sound : (g.readers (g.ent s.cur.entry) i).bind (g.badRead i) = none
  timely : g.lateTimeout = none ∨ g.meetsBoundary (g.ent s.cur.entry) i = false

/-- The issuing fragment. -/
def State.frag (s : State) (g : Group) : Entry := g.ent s.cur.entry

/-- The lanes in which the issuing fragment executes a lane word with guard `gd` (01 R8, 03 R46). -/
def State.lanes (s : State) (g : Group) (gd : Guard) : List Nat := g.active (s.frag g) gd

/-- A group that waited to issue waits no more. -/
def Block.issued : Block → Block
  | .stall _ _ => .none
  | b => b

/-- The group after a word that is no transfer of control: its fragment stands at the next position (03 R53, 07 R118) and no stall is left. -/
def Group.advanced (g : Group) (c : Cur) : Group :=
  { g.setEnt c.entry { g.ent c.entry with pos := (g.ent c.entry).pos.next c.len } with
    block := g.block.issued, blockPos := (g.ent c.entry).pos }

/-- The group after a word that has set the positions itself. -/
def Group.steered (g : Group) : Group := { g with block := g.block.issued }

/-- The word completes with its group as `g1`, its fragment at the next position; nothing else of the machine changes: no other group, no
memory byte. -/
def Completes (i : Instr) (s : State) (g1 : Group) : Prop :=
  exec i s = .next (s.setCurGroup (g1.advanced s.cur)) ∧ ∀ a, (s.setCurGroup (g1.advanced s.cur)).mem.byte a = s.mem.byte a

/-- The word completes and has set the positions itself: the group is `g1`, nothing else of the machine changes. -/
def Steers (i : Instr) (s : State) (g1 : Group) : Prop :=
  exec i s = .next (s.setCurGroup g1.steered) ∧ ∀ a, (s.setCurGroup g1.steered).mem.byte a = s.mem.byte a

/-! ### Registers written -/

/-- From `g` to `g1` vector registers alone are written: in each lane of `ls`, the `w` registers from `d` on hold the value `f` of the lane, the
first the least significant (01 R7), and a whole write leaves them without error (18 R340). Every other vector register keeps its value, and
everything else of the group is the same. -/
def VecWritten (g g1 : Group) (ls : List Nat) (d w : Nat) (f : Nat → Nat) : Prop :=
  g1 = { g with regs := { g.regs with v := g1.regs.v, badV := g1.regs.badV } } ∧
  ∀ l n, l < 32 → n < 256 →
    if l ∈ ls ∧ d ≤ n ∧ n < d + w then
      g1.rdV l n = BitVec.ofNat 32 (f l / 2 ^ (32 * (n - d))) ∧ l * 256 + n ∉ g1.regs.badV
    else g1.rdV l n = g.rdV l n ∧ (l * 256 + n ∈ g1.regs.badV ↔ l * 256 + n ∈ g.regs.badV)

/-- From `g` to `g1` scalar registers alone are written: the `w` registers from `d` on hold the value `x` if `on`. -/
def ScaWritten (g g1 : Group) (on : Bool) (d w x : Nat) : Prop :=
  g1 = { g with regs := { g.regs with s := g1.regs.s, badS := g1.regs.badS } } ∧
  ∀ n, if on = true ∧ d ≤ n ∧ n < d + w then g1.rdS n = BitVec.ofNat 32 (x / 2 ^ (32 * (n - d))) ∧ n ∉ g1.regs.badS
    else g1.rdS n = g.rdS n ∧ (n ∈ g1.regs.badS ↔ n ∈ g.regs.badS)

/-- From `g` to `g1` predicates alone are written: predicate `d` of each lane of `ls` takes the value `f` of the lane; p15 reads as true
whatever is written (02 R19). -/
def PredWritten (g g1 : Group) (ls : List Nat) (d : Nat) (f : Nat → Bool) : Prop :=
  g1 = { g with regs := { g.regs with p := g1.regs.p } } ∧
  ∀ l n, l < 32 → n < 16 → g1.rdP l n = (if n = 15 then true else if l ∈ ls ∧ n = d then f l else g.rdP l n)

/-- From `g` to `g1` uniform predicates alone are written: `d` takes `x` if `on`; q7 reads as true whatever is written (02 R21). -/
def UniPredWritten (g g1 : Group) (on : Bool) (d : Nat) (x : Bool) : Prop :=
  g1 = { g with regs := { g.regs with q := g1.regs.q } } ∧
  ∀ n, g1.rdQ n = (if n = 7 then true else if on = true ∧ n = d then x else g.rdQ n)

/-! ### Words of one shape -/

/-- The lane word completes: the `w` registers from `d` on of each active lane hold the value `f` of the lane, all sources read before any
write, and nothing else changes but the position. -/
def LaneWrites (i : Instr) (gd : Guard) (d : Reg) (w : Nat) (s : State) (g : Group) (f : Nat → Nat) : Prop :=
  ∃ g1, Completes i s g1 ∧ VecWritten g g1 (s.lanes g gd) d.toNat w f

/-- The lane word completes: predicate `d` of each active lane takes the value `f` of the lane, and nothing else changes but the position. -/
def LanePredWrites (i : Instr) (gd : Guard) (d : Reg) (s : State) (g : Group) (f : Nat → Bool) : Prop :=
  ∃ g1, Completes i s g1 ∧ PredWritten g g1 (s.lanes g gd) d.toNat f

/-- The uniform word completes: with a true guard the `w` scalar registers from `d` on hold `x`; nothing else changes but the position. -/
def UniWrites (i : Instr) (gd : Guard) (d : Reg) (w : Nat) (s : State) (g : Group) (x : Nat) : Prop :=
  ∃ g1, Completes i s g1 ∧ ScaWritten g g1 (g.guardUni gd) d.toNat w x

/-- The lane word completes with one register result and exception flags for each lane: FPSTAT takes in the flags of every active lane
(02 R30, 09 R160), the register `d` of each active lane its result. -/
def FloatWrites (i : Instr) (gd : Guard) (d : Reg) (w : Nat) (s : State) (g : Group) (f : Nat → FRes) : Prop :=
  ∃ g1, Completes i s { g1 with fpstat := (s.lanes g gd).foldl (fun x l => x ||| (f l).2) g.fpstat } ∧
    VecWritten g g1 (s.lanes g gd) d.toNat w fun l => (f l).1

/-! ### The spec's readings of operands (06 R87, R90) -/

/-- A value of a type as an integer: two's complement for the signed types, else unsigned (06 R87). -/
def typed (t : IntTy) (x : Nat) : Int :=
  match t with
  | .s32 => (BitVec.ofNat 32 x).toInt
  | .s64 => (BitVec.ofNat 64 x).toInt
  | .b32 | .n32 => ((BitVec.ofNat 32 x).toNat : Int)
  | .b64 | .n64 => ((BitVec.ofNat 64 x).toNat : Int)

/-- An exact result taken into a type: saturated to its range or wrapped, once, at the end (06 R90). -/
def narrowed (t : IntTy) (sat : Bool) (x : Int) : Nat :=
  let y : Int := if sat then
      match t with
      | .s32 => Max.max (-2 ^ 31) (Min.min (2 ^ 31 - 1) x)
      | .s64 => Max.max (-2 ^ 63) (Min.min (2 ^ 63 - 1) x)
      | .b32 | .n32 => Max.max 0 (Min.min (2 ^ 32 - 1) x)
      | .b64 | .n64 => Max.max 0 (Min.min (2 ^ 64 - 1) x)
    else x
  match t with
  | .b32 | .s32 | .n32 => (BitVec.ofInt 32 y).toNat
  | .b64 | .s64 | .n64 => (BitVec.ofInt 64 y).toNat

/-- The width of a type in bits (06 R87). -/
def tyBits : IntTy → Nat
  | .b32 | .s32 | .n32 => 32
  | .b64 | .s64 | .n64 => 64

/-- A source of a lane word in lane `l`, read as the type reads it: a scalar source reads the same in every lane (03 R47). -/
def Group.laneVal (g : Group) (t : IntTy) (a : Src) (l : Nat) : Int := typed t (g.src a t.width l)

/-- A source of a uniform word, read as the type reads it. -/
def Group.uniVal (g : Group) (t : IntTy) (a : Reg) : Int := typed t (g.rdSs a.toNat t.width)

/-- The comparison that a code selects (05 R77, 06 R105). -/
def compares (cc : Cc) (x y : Int) : Prop :=
  match cc with
  | .eq => x = y
  | .ne => x ≠ y
  | .lt => x < y
  | .le => x ≤ y
  | .gt => x > y
  | .ge => x ≥ y
  | .num | .nan => False

/-- A field of `bfe` and `bfi` after clamping: position and length (06 R100). -/
def clampedField (w pos len : Nat) : Nat × Nat := (Min.min pos w, Min.min len (w - Min.min pos w))

/-- What `bfe` extracts (06 R100). -/
def extracted (t : IntTy) (a pos len : Nat) : Nat :=
  let f := clampedField (tyBits t) pos len
  match t with
  | .s32 | .s64 => ((BitVec.ofNat f.2 (a >>> f.1)).signExtend (tyBits t)).toNat
  | _ => (a >>> f.1) % 2 ^ f.2

/-! ### The spec's rules of floating-point results (08, 09) -/

/-- The rational value of a finite decoded encoding. -/
def FVal.rat : FVal → ℚ
  | .fin n m e => (if n then -1 else 1) * (m * (2 : ℚ) ^ e)
  | _ => 0

/-- The NaN rule (09 R163): the first NaN of the operands, written by R149; NV for any signalling one. -/
def NanRule (f : Fmt) (xs : List FVal) (r : FRes) : Prop :=
  ∃ x, xs.find? FVal.isNan = some x ∧ r.1 = (f.roundTo .nearest x).1 ∧ r.2 = if xs.any FVal.isSnan then NV else 0

/-- The canonical NaN with NV. -/
def Invalid (f : Fmt) (r : FRes) : Prop := r = (f.canon, NV)

/-- The exact nonzero value `q` rounded once; of an exact zero, the zero of sign `z` without a flag. -/
def RoundsOnce (f : Fmt) (m : RM) (q : ℚ) (z : Bool) (r : FRes) : Prop :=
  (q = 0 → r = (f.signed z 0, 0)) ∧ (q ≠ 0 → ∃ n k e, (FVal.fin n k e).rat = q ∧ r = f.roundTo m (.fin n k e))

/-- The sign of a zero sum (08 R153): minus when every term is −0, or under rounding toward minus infinity when not every term is +0. -/
def zeroRule (mode : Rnd) (ts : List FVal) : Bool :=
  ts.all (fun t => t.isZero && t.neg) || (!ts.all (fun t => t.isZero && !t.neg) && mode == .rm)

/-- The sum of terms none of which is a NaN (08 R153, 09 R165): opposite infinities are invalid, an infinite term is the result without a flag,
else the exact sum is rounded once. -/
def SumRule (f : Fmt) (m : RM) (ts : List FVal) (r : FRes) : Prop :=
  if (∃ x ∈ ts, x = .inf false) ∧ (∃ x ∈ ts, x = .inf true) then Invalid f r
  else if ∃ x ∈ ts, x = .inf false then r = (f.infEnc, 0)
  else if ∃ x ∈ ts, x = .inf true then r = (f.signed true f.infEnc, 0)
  else RoundsOnce f m (ts.map FVal.rat).sum (zeroRule m.mode ts) r

/-- The product of a zero and an infinity. -/
abbrev ZeroTimesInf (x y : FVal) : Prop := x.isZero = true ∧ y.isInf = true ∨ x.isInf = true ∧ y.isZero = true

/-- The exact product of two values, neither a NaN nor a zero with an infinity, as a term with its sign. -/
def IsProduct (x y p : FVal) : Prop :=
  p.neg = (x.neg != y.neg) ∧ p.isNan = false ∧
    if x.isInf ∨ y.isInf then p.isInf = true else p.isInf = false ∧ p.rat = x.rat * y.rat ∧ (p.isZero = true ↔ p.rat = 0)

/-- `fadd` and, with b's sign changed, `fsub` (09 R165). -/
def AddRule (f : Fmt) (m : RM) (x y : FVal) (r : FRes) : Prop :=
  if x.isNan ∨ y.isNan then NanRule f [x, y] r else SumRule f m [x, y] r

/-- `fmul` (09 R165). -/
def MulRule (f : Fmt) (m : RM) (x y : FVal) (r : FRes) : Prop :=
  if x.isNan ∨ y.isNan then NanRule f [x, y] r
  else if ZeroTimesInf x y then Invalid f r
  else if x.isInf ∨ y.isInf then r = (f.signed (x.neg != y.neg) f.infEnc, 0)
  else RoundsOnce f m (x.rat * y.rat) (x.neg != y.neg) r

/-- `ffma` (09 R163, R165): a product of zero and infinity raises NV whatever c holds. -/
def FmaRule (f : Fmt) (m : RM) (x y z : FVal) (r : FRes) : Prop :=
  if x.isNan ∨ y.isNan ∨ z.isNan then
    if ZeroTimesInf x y then ∃ r', NanRule f [x, y, z] r' ∧ r = (r'.1, NV) else NanRule f [x, y, z] r
  else if ZeroTimesInf x y then Invalid f r
  else ∃ p, IsProduct x y p ∧ SumRule f m [p, z] r

/-- `z` is the magnitude m × 2^e, or with the sticky mark a value between it and the next, of enough bits for the format. -/
def Encloses (f : Fmt) (m : Nat) (e : Int) (sticky : Bool) (z : ℚ) : Prop :=
  m ≠ 0 ∧ if sticky then 2 ^ (f.frac + 2) ≤ m ∧ (m : ℚ) * 2 ^ e < z ∧ z < (m + 1 : ℚ) * 2 ^ e else z = m * (2 : ℚ) ^ e

/-- `fdiv` (09 R166): the special operands of its table, else the quotient rounded once. -/
def DivRule (f : Fmt) (m : RM) (x y : FVal) (r : FRes) : Prop :=
  let sign := x.neg != y.neg
  if x.isNan ∨ y.isNan then NanRule f [x, y] r
  else if x.isZero ∧ y.isZero ∨ x.isInf ∧ y.isInf then Invalid f r
  else if y.isZero ∧ ¬ x.isInf then r = (f.signed sign f.infEnc, DZ)
  else if x.isInf then r = (f.signed sign f.infEnc, 0)
  else if y.isInf ∨ x.isZero then r = (f.signed sign 0, 0)
  else ∃ k e st, Encloses f k e st (|x.rat| / |y.rat|) ∧ r = f.roundReal m sign k e st

/-- `fsqrt` (09 R166). -/
def SqrtRule (f : Fmt) (m : RM) (x : FVal) (r : FRes) : Prop :=
  if x.isNan then NanRule f [x] r
  else if x.isZero then r = (f.signed x.neg 0, 0)
  else if x.neg then Invalid f r
  else if x.isInf then r = (f.infEnc, 0)
  else ∃ k e st, k ≠ 0 ∧ r = f.roundReal m false k e st ∧
    if st then 2 ^ (f.frac + 2) ≤ k ∧ ((k : ℚ) * 2 ^ e) ^ 2 < x.rat ∧ x.rat < ((k + 1 : ℚ) * 2 ^ e) ^ 2 else ((k : ℚ) * 2 ^ e) ^ 2 = x.rat

/-- A dot group without scales (08 R153). -/
def DotRule (f : Fmt) (m : RM) (acc : FVal) (as bs : List FVal) (r : FRes) : Prop :=
  let ops := acc :: as ++ bs
  if ∃ x ∈ ops, x.isNan then r = (f.canon, if ops.any FVal.isSnan then NV else 0)
  else if ∃ p ∈ as.zip bs, ZeroTimesInf p.1 p.2 then Invalid f r
  else ∃ ps, List.Forall₂ (fun p q => IsProduct p.1 p.2 q) (as.zip bs) ps ∧ SumRule f m (acc :: ps) r

/-- The order of 09 R167: −0 below +0. -/
def Below (x y : FVal) : Prop :=
  match x, y with
  | .inf a, .inf b => a = true ∧ b = false
  | .inf a, _ => a = true
  | _, .inf b => b = false
  | x, y => x.rat < y.rat ∨ (x.isZero ∧ y.isZero ∧ x.neg = true ∧ y.neg = false)

/-- The numerical order of values that are not NaNs; −0 equals +0. -/
def LessThan (x y : FVal) : Prop :=
  match x, y with
  | .inf a, .inf b => a = true ∧ b = false
  | .inf a, _ => a = true
  | _, .inf b => b = false
  | x, y => x.rat < y.rat

/-- `k` is the significand that the mode selects for a positive `x` in units of the spacing (08 R147). -/
def RoundedTo (mode : Rnd) (neg : Bool) (x : ℚ) (k : Nat) : Prop :=
  match mode with
  | .rz => (k : ℚ) ≤ x ∧ x < k + 1
  | .rp => if neg then (k : ℚ) ≤ x ∧ x < k + 1 else x ≤ k ∧ (k : ℚ) < x + 1
  | .rm => if neg then x ≤ k ∧ (k : ℚ) < x + 1 else (k : ℚ) ≤ x ∧ x < k + 1
  | _ => |x - k| < 1 / 2 ∨ (|x - k| = 1 / 2 ∧ k % 2 = 0)

/-- An integer that the mode selects for a value (08 R151). -/
def RoundedInt (mode : Rnd) (x : ℚ) (n : Int) : Prop :=
  match mode with
  | .rz => if 0 ≤ x then (n : ℚ) ≤ x ∧ x < n + 1 else x ≤ n ∧ (n : ℚ) < x + 1
  | .rp => x ≤ n ∧ (n : ℚ) < x + 1
  | .rm => (n : ℚ) ≤ x ∧ x < n + 1
  | _ => |x - n| < 1 / 2 ∨ (|x - n| = 1 / 2 ∧ n % 2 = 0)

/-- The largest finite value of a format. -/
def Fmt.maxRat (f : Fmt) : ℚ := (f.decode f.maxEnc).rat

/-- The encoding of an overflow (08 R147, R148): the largest finite value where the format is narrow, the rounding saturates or the mode rounds
toward zero for that sign, else the infinity. -/
def overflowEnc (f : Fmt) (r : RM) (neg : Bool) : Nat :=
  let away : Bool := match r.mode with
    | .rz => false
    | .rp => !neg
    | .rm => neg
    | _ => true
  f.signed neg (if f.narrow || r.sat || !away then f.maxEnc else f.infEnc)

/-- The rounding of a word in the issuing fragment (09 R162). -/
def State.rounding (s : State) (g : Group) (r : Rnd) (sat : Bool) : RM := roundOf (s.frag g).fmt r sat

/-! ### Reductions (07 R136, R137) -/

/-- A reduction of the covered terms: at the integer types exact, at the floating-point types from the exact values, rounded once. -/
def ReduceRule (op : RedOp) (t : RedTy) (m : RM) (xs : List Nat) (r : FRes) : Prop :=
  match redFmt t with
  | none =>
    r.2 = 0 ∧ r.1 < 2 ^ redW t ∧
    match op with
    | .add => r.1 = xs.sum % 2 ^ redW t
    | .and => ∀ i, i < redW t → (r.1.testBit i = true ↔ ∀ x ∈ xs, x.testBit i = true)
    | .or => ∀ i, i < redW t → (r.1.testBit i = true ↔ ∃ x ∈ xs, x.testBit i = true)
    | .xor => ∀ i, i < redW t → (r.1.testBit i = true ↔ (xs.countP fun x => x.testBit i) % 2 = 1)
    | .min => (∀ x ∈ xs, redRead t r.1 ≤ redRead t x) ∧ (xs ≠ [] → ∃ x ∈ xs, redRead t r.1 = redRead t x) ∧
        (xs = [] → ∀ y, redRead t y ≤ redRead t r.1)
    | .max => (∀ x ∈ xs, redRead t x ≤ redRead t r.1) ∧ (xs ≠ [] → ∃ x ∈ xs, redRead t r.1 = redRead t x) ∧
        (xs = [] → ∀ y, redRead t r.1 ≤ redRead t y)
  | some ty =>
    let f := fmtOf ty
    let vs := xs.map f.decode
    let nv : Flags := if vs.any FVal.isSnan then NV else 0
    match op with
    | .add =>
      if xs = [] then r = (0, 0)
      else if (∃ x ∈ vs, x = .inf false) ∧ (∃ x ∈ vs, x = .inf true) then Invalid f r
      else if vs.any FVal.isNan then r = (f.canon, nv)
      else if ∃ x ∈ vs, x = .inf false then r = (f.infEnc, 0)
      else if ∃ x ∈ vs, x = .inf true then r = (f.signed true f.infEnc, 0)
      else RoundsOnce f m (vs.map FVal.rat).sum (m.mode == .rm || vs.all fun v => v.isZero && v.neg) r
    | .min =>
      r.2 = nv ∧ if xs = [] then r.1 = f.infEnc
        else if vs.all FVal.isNan then r.1 = f.canon
        else r.1 ∈ xs ∧ (f.decode r.1).isNan = false ∧ ∀ x ∈ xs, (f.decode x).isNan = false → ¬ Below (f.decode x) (f.decode r.1)
    | _ =>
      r.2 = nv ∧ if xs = [] then r.1 = f.signed true f.infEnc
        else if vs.all FVal.isNan then r.1 = f.canon
        else r.1 ∈ xs ∧ (f.decode r.1).isNan = false ∧ ∀ x ∈ xs, (f.decode x).isNan = false → ¬ Below (f.decode r.1) (f.decode x)

/-! ### The split table (07 R116 to R127) -/

/-- From `g` to `g1` the split table alone changes, to the entries `e`. -/
def EntriesSet (g g1 : Group) (e : Nat → Entry) : Prop := g1 = { g with ents := g1.ents } ∧ ∀ j, g1.ent j = e j

/-- `divert` of 07 R118 for entry `k`: the lanes `t` go to `target`, the rest to the fall-through address; a division takes the lowest FREE
entry, whose join address is `join`. -/
def Diverts (g g1 : Group) (k : Nat) (t : BitVec 32) (target fall join : Nat) : Prop :=
  let e := g.ent k
  let rest := e.mask &&& ~~~t
  if t = 0 then EntriesSet g g1 fun j => if j = k then { e with pos := ⟨fall, 0⟩ } else g.ent j
  else if rest = 0 then EntriesSet g g1 fun j => if j = k then { e with pos := ⟨target, 0⟩ } else g.ent j
  else ∃ n, n < 32 ∧ (g.ent n).st = .free ∧ (∀ j, j < n → (g.ent j).st ≠ .free) ∧ EntriesSet g g1 fun j =>
    if j = k then { e with mask := rest, pos := ⟨fall, 0⟩, reconv := join, depth := e.depth + 1 }
    else if j = n then
      { st := .running, pos := ⟨target, 0⟩, mask := t, keeper := k, level := e.depth + 1, depth := 0, join := true, reconv := join,
        outer := e.reconv, fmt := e.fmt, saved := e.fmt, former := .free }
    else g.ent j

/-- Divisions one after another, each to its own target. -/
def DivertsAll (k fall join : Nat) : List (Nat × BitVec 32) → Group → Group → Prop
  | [], g, g1 => g1 = g
  | p :: ps, g, g1 => ∃ h, Diverts g h k p.2 p.1 fall join ∧ DivertsAll k fall join ps h g1

/-- The lanes of a jump grouped by target, the parts ordered by their lowest lane (07 R129). -/
def PartsOf (ts : List (Nat × Nat)) (ps : List (Nat × BitVec 32)) : Prop :=
  (ps.map (·.1)).Nodup ∧ (∀ p ∈ ps, ∀ l, l < 32 → (p.2.getLsbD l = true ↔ (l, p.1) ∈ ts)) ∧ (∀ x ∈ ts, ∃ p ∈ ps, p.1 = x.2) ∧
  (∀ p ∈ ps, p.2 ≠ 0) ∧
  ps.Pairwise fun p q => ∃ l, p.2.getLsbD l = true ∧ ∀ m, q.2.getLsbD m = true → l < m

/-- The lanes of a jump go on at their targets (07 R129): with no lane passed over the first part stays in the entry. -/
def Spreads (g g1 : Group) (k fall : Nat) (ts : List (Nat × Nat)) : Prop :=
  let e := g.ent k
  ∃ ps, PartsOf ts ps ∧
    match ps with
    | [] => Diverts g g1 k 0 fall fall e.reconv
    | p :: rest =>
      if e.mask &&& ~~~(maskOf (ts.map (·.1))) = 0 then
        ∃ h, DivertsAll k p.1 e.reconv rest g h ∧ EntriesSet h g1 fun j => if j = k then { h.ent k with pos := ⟨p.1, 0⟩ } else h.ent j
      else DivertsAll k fall e.reconv ps g g1

/-- An entry other than FREE that keeps the group from collapsing at `target` (07 R127). -/
abbrev Hinders (e : Entry) (target : Nat) : Prop := e.st ≠ .free ∧ e.mask ≠ 0 ∧ ¬ (e.st = .regang ∧ e.pos.caddr = target)

/-- The collapse of 07 R127 at `target`, if every entry other than FREE waits there or is empty; else nothing. -/
def Collapses (g g1 : Group) (target : Nat) : Prop :=
  ((∃ j, j < 32 ∧ Hinders (g.ent j) target) → g1 = g) ∧
  ((∀ j, j < 32 → ¬ Hinders (g.ent j) target) →
    ∃ fmt, EntriesSet g g1 (fun j =>
      if j = 0 then { g.ent 0 with st := .running, pos := ⟨target, 0⟩, mask := g.allMask, reconv := 0, depth := 0, fmt := fmt }
      else .freed) ∧
    ((∃ j, j < 32 ∧ (g.ent j).st ≠ .free ∧ (g.ent j).join = true ∧ (g.ent j).keeper = 0 ∧ (g.ent j).level = 1 ∧ fmt = (g.ent j).saved) ∨
      ((∀ j, j < 32 → (g.ent j).st ≠ .free → ¬ ((g.ent j).join = true ∧ (g.ent j).keeper = 0 ∧ (g.ent j).level = 1)) ∧
        fmt = (g.ent 0).fmt)))

/-- A fragment that runs in a split table with room for a division (07 R121). -/
structure Running (s : State) (g : Group) : Prop where
  entry : s.cur.entry < 32
  runs : (s.frag g).st = .running
  room : ∃ j, j < 32 ∧ (g.ent j).st = .free

/-- The address of the issuing word (03 R50). -/
def State.here (s : State) (g : Group) : Int := ((s.frag g).pos.caddr + 8 * (s.frag g).pos.slot : Nat)

/-- The address `off` words from the issuing word. -/
def State.wordsOn (s : State) (g : Group) (off : Int) : Int := s.here g + 8 * off

/-- An address of the virtual space (03 R49). -/
abbrev InSpace (a : Int) : Prop := 0 ≤ a ∧ a < 2 ^ 57

/-- The word takes the fault `f` at its own position and has no other effect (01 R10, 14 R253). -/
def Faults (i : Instr) (s : State) (g : Group) (f : FaultInfo) : Prop :=
  exec i s = .next (s.takeFault s.cur.core s.cur.slot s.cur.entry (s.frag g).pos f)

/-! ### Identifiers, formats and the group's own words (02 R27, R28, R32; 07 R138) -/

/-- The lanes of the issuing fragment. -/
def State.lanesHere (s : State) (g : Group) : List Nat := (List.range 32).filter fun l => (s.frag g).mask.getLsbD l

/-- The value of a lane selector of `usrd` in a lane (02 R32). -/
def laneIdent (g : Group) (sel : BitVec 32) (l : Nat) : Nat :=
  if sel = 0 then l else if sel = 1 then (Tbl.getD g.regs.orig l 0).toNat else l / 4

/-- The width in registers of a uniform selector of `usrd` (02 R32): TIME and FMT are pairs. -/
def identWidth (sel : BitVec 32) : Nat := if sel = 0x0A ∨ sel = 0x0B then 2 else 1

/-- `x` is the value of a uniform selector of `usrd` (02 R32). -/
def Identifies (s : State) (g : Group) (sel : BitVec 32) (x : Nat) : Prop :=
  (sel = 0x03 → x = g.ids.grpid) ∧ (sel = 0x04 → x = g.ids.teamid) ∧ (sel = 0x05 → x = g.ids.cluid) ∧ (sel = 0x06 → x = g.ids.gridid) ∧
  (sel = 0x07 → x = s.cur.core) ∧ (sel = 0x08 → x = if s.sched.partEn then (s.ctx g.ids.queue).desc.part else 0) ∧
  (sel = 0x09 → x = s.ownCell + 2 ^ 6 * s.fabric.self) ∧ (sel = 0x0A → x = s.time) ∧ (sel = 0x0B → x = (s.frag g).fmt.toNat) ∧
  (sel = 0x0C → x = g.fpstat.toNat) ∧ (sel = 0x0D → g.leader = none → x = g.lease % 2 ^ 14 + 2 ^ 31 * g.measured.toNat) ∧
  (sel = 0x0E → x = g.rdepth) ∧ (sel = 0x0F → x = g.regcnt.toNat) ∧
  (sel = 0x10 → x < 2 ^ 12 ∧ ∀ f, f < 12 → (x.testBit f = true ↔ s.flagSet s.cur.core s.cur.slot g f = true))

/-- A value that FMT can take (02 R27, R28): every format field a code valid in its place, every reserved bit zero. -/
def FmtValid (x : BitVec 64) : Prop :=
  x.extractLsb' 0 4 ∈ ([0, 1, 2, 3, 4, 5, 7] : List (BitVec 4)) ∧ x.extractLsb' 4 4 ∈ ([0, 1, 2, 3, 4, 5, 6, 7] : List (BitVec 4)) ∧
  x.extractLsb' 8 4 ∈ ([0, 1, 8] : List (BitVec 4)) ∧
  x.getLsbD 15 = false ∧ x.extractLsb' 22 2 = 0 ∧ x.extractLsb' 30 2 = 0 ∧ x.extractLsb' 38 26 = 0

/-- Groups of one team (10, 16 R299). -/
def TeamMates (g h : Group) : Prop :=
  g.ids.queue = h.ids.queue ∧ g.ids.grid = h.ids.grid ∧ g.ids.cluid = h.ids.cluid ∧ g.ids.teamid = h.ids.teamid

/-- A group without a shadow waits in REGROUP for a partner with the participating lanes, status register and fall-through address of `m`,
stopped by nothing, its counters zero and its flags clear (07 R138 step 3). -/
structure Meeting (s : State) (core slot : Nat) (g : Group) (partner : Nat) (m : BitVec 32 × Nat × Nat) : Prop where
  here : s.group? core slot = some g
  root : (g.ent 0).st = .regroup
  waits : g.meet = some (partner, m)
  alone : g.leader = none ∧ g.shadow = none ∧ g.trace = []
  runs : g.dbg.run = .running ∧ g.stops.unwritten = [] ∧ g.stops.unserved = []
  idle : g.inflight = [] ∧ g.batches = [] ∧ g.toksets = [] ∧ g.statuses = [] ∧ (∀ h ∈ g.holds, s.held h = false) ∧
    ∀ c ∈ s.cmdsOf core slot, c.done = true ∨ c.flag = none
  moves : (s.ctx g.ids.queue).save = none ∧ (s.ctx g.ids.queue).removing = none

/-- The quarter of `slot` can hold a group of `lanes` lanes and `nvr` registers beside the groups of it that are not in `gone` (11 R187, R189):
each of its eight banks has 64 units, and a group of n lanes takes nvr div 16 of them in the first ⌈n/4⌉. -/
def QuarterHolds (s : State) (core slot : Nat) (gone : List Nat) (lanes nvr : Nat) : Prop :=
  ∀ b, b < 8 →
    let units (n v : Nat) : Nat := if 4 * b < n then v / 16 else 0
    (((s.groups.filter fun p => p.1 / 64 == core && p.1 % 64 / 16 == slot / 16 && !gone.contains (p.1 % 64)).map fun p =>
      units p.2.regs.nlanes p.2.regs.nvr).sum + units lanes nvr ≤ 64)

/-- The lanes of a mask, ascending. -/
def maskLanes (m : BitVec 32) : List Nat := (List.range 32).filter fun l => m.getLsbD l

/-- The group goes on at the fall-through address with status `x` in its participating lanes, else unchanged (07 R138). -/
def GoesOn (g g1 : Group) (m : BitVec 32 × Nat × Nat) (x : Nat) : Prop :=
  ∃ h, VecWritten g h (maskLanes m.1) m.2.1 1 (fun _ => x) ∧
    g1 = { h.setEnt 0 { g.ent 0 with st := .running, pos := ⟨m.2.2, 0⟩ } with meet := none }

/-- The survivor `h` of a fuse of `a`, of the lower GRPID, with `b` (07 R139): its lanes are the participating ones of `a`, then those of `b`,
each with its registers, predicates and origin, and status 1; one entry, at the fall-through address, which has become its region entry;
everything else is `a`'s. -/
def FusedFrom (a b h : Group) (ma mb : BitVec 32 × Nat × Nat) : Prop :=
  let src := (maskLanes ma.1).map (fun l => (a, l)) ++ (maskLanes mb.1).map fun l => (b, l)
  h.regs.nlanes = src.length ∧
  (∀ k x, src[k]? = some x →
    (∀ r, r < 256 → h.rdV k r = if r = ma.2.1 then 1 else x.1.rdV x.2 r) ∧ (∀ r, r < 16 → h.rdP k r = x.1.rdP x.2 r) ∧
    Tbl.getD h.regs.orig k 0 = Tbl.getD x.1.regs.orig x.2 0) ∧
  (∀ j, h.ent j = if j = 0 then { a.ent 0 with
    st := .running, pos := ⟨ma.2.2, 0⟩, mask := BitVec.ofNat 32 (2 ^ src.length - 1), reconv := 0, saved := (a.ent 0).fmt } else .freed) ∧
  h.region = ⟨ma.2.2, 0⟩ ∧ h.regcnt = a.regcnt + 1 ∧
  h = { a with regs := { a.regs with nlanes := h.regs.nlanes, v := h.regs.v, p := h.regs.p, orig := h.regs.orig, badV := h.regs.badV }
               ents := h.ents, meet := none, region := h.region, regcnt := h.regcnt, restarts := 0, again := true }

/-! ### Memory (12, 18) -/

/-- A byte of the cached aperture: the L2's, where it holds the sector, else memory's (18 R330). -/
def State.byteAt (s : State) (pa : Nat) : Byte :=
  match s.l2? (pa / 32) with
  | some x => BitVec.ofNat 8 (x.data / 256 ^ (pa % 32))
  | none => s.mem.byte (lpaOf pa)

/-- The bytes that an aperture shows: the cached one by domain address, the memory-side one by local address (12 R219, 19 R347). -/
def State.view (s : State) : Aperture → Nat → Byte
  | .cached => s.byteAt
  | .ms => s.mem.byte

/-- The address of a byte in an aperture's view. -/
def viewAddr : Aperture → Nat → Nat
  | .cached, pa => pa
  | .ms, pa => lpaOf pa

/-- A byte of a team's scratchpad (12 R213). -/
def State.scratchAt (s : State) (core ts a : Nat) : Byte := Tbl.getD (s.sett core ts (a / 2048)).data (a % 2048) 0

/-- A value of `n` bytes, the first the least significant (01 R7). -/
def valueIn (m : Nat → Byte) (a : Nat) : Nat → Nat
  | 0 => 0
  | n + 1 => (m a).toNat + 256 * valueIn m (a + 1) n

/-- Bytes with `n` bytes of a value put at an address. -/
def putIn (m : Nat → Byte) (a n x : Nat) : Nat → Byte := fun b => if a ≤ b ∧ b < a + n then BitVec.ofNat 8 (x / 256 ^ (b - a)) else m b

/-- What a load writes (12 R219): the signed 1- and 2-byte sizes extend. -/
def extended (sz : MemSize) (x : Nat) : Nat :=
  match sz with
  | .s8 => ((BitVec.ofNat 8 x).signExtend 32).toNat
  | .s16 => ((BitVec.ofNat 16 x).signExtend 32).toNat
  | _ => x

/-- The address of a lane's access in an M-format word (03 R49): base, of `bw` registers, index and offset. -/
def Group.laneAddr (g : Group) (m : MAddr) (bw size l : Nat) : Int :=
  let base : Nat := if m.baseUniform then g.rdSs m.base.toNat bw else g.rdVs l m.base.toNat bw
  let index : Int :=
    if m.indexUniform then (if m.index = 0xFF then 0 else (g.rdS m.index.toNat).toInt) else (g.rdV l m.index.toNat).toInt
  base + index * (if m.scale then size else 1) + m.offset.toInt

/-- The address of a uniform M-format word (12 R218): scalar registers alone, index 0xFF for none. -/
def Group.uniAddr (g : Group) (m : MAddr) (size : Nat) : Int :=
  g.rdSs m.base.toNat 2 + (if m.index = 0xFF then 0 else (g.rdS m.index.toNat).toInt) * (if m.scale then size else 1) + m.offset.toInt

/-- The core has the translation of a virtual address, and its page allows the access (12 R206 to R208). -/
def Maps (s : State) (g : Group) (ap : Aperture) (rd wr : Bool) (va : Int) (pa : Nat) : Prop :=
  0 ≤ va ∧ va < 2 ^ 57 ∧ ∃ t, (s.coreSt s.cur.core).tlb.find? (fun t =>
      t.ctx == (s.ctx g.ids.queue).hw.getD 64 && t.base ≤ va.toNat && va.toNat < t.base + t.size) = some t ∧
    t.size % 4096 = 0 ∧ pa = (t.leaf.extractLsb' 12 48).toNat * 4096 / t.size * t.size + va.toNat % t.size ∧
    pa / 2 ^ 51 = s.fabric.self ∧ s.fabric.self < 512 ∧ lpaOf pa < dataEnd ∧
    (g.mon = true ∨ t.leaf.getLsbD 5 = true) ∧ (rd = true → t.leaf.getLsbD 2 = true) ∧ (wr = true → t.leaf.getLsbD 3 = true) ∧
    t.leaf.getLsbD 6 = (ap == .ms)

/-- The stacks can be read: no sector is poisoned or has a symbol in error, every granule's tag is its own, no channel is in its retraining
window (18 R341 to R346). -/
def GoodStacks (s : State) : Prop :=
  (∀ k, s.mem.poisonOf k = 0) ∧ (∀ k, s.mem.symsOf k = 0) ∧ (∀ k, s.tagOk k = true) ∧ ∀ k, (s.stack k).active = false

/-- The L2 holds sectors of this package's own memory alone, without poison; a clean one is as memory holds it. -/
def OwnL2 (s : State) : Prop :=
  (∀ x ∈ s.memsys.l2, x.1 * 32 / 2 ^ 51 = s.fabric.self ∧ x.2.holder = .home ∧ x.2.poison = 0) ∧
  ∀ k y, s.l2? k = some y → y.dirty = false → ∀ i, i < 32 → BitVec.ofNat 8 (y.data / 256 ^ i) = s.mem.byte (lpaOf (k * 32) + i)

/-- A package alone, with good memory, in which no other party's accesses or commands are tracked, and a group with nothing in flight. -/
structure Undisturbed (s : State) (g : Group) : Prop where
  alone : s.fabric.en = false ∧ s.fabric.dir = [] ∧ s.ctl.fenced = 0
  good : GoodStacks s ∧ OwnL2 s
  unmet : (∀ a ∈ s.track.acc, a.party = g.ids.uid) ∧ s.track.cmds = [] ∧ s.track.far = []
  unlocked : ∀ c ∈ s.clusters, c.2.locks = []
  idle : g.inflight = [] ∧ (g.batches.filter fun b => b.path == .gl || b.path == .gs || b.path == .sp) = []
  lone : g.leader = none ∧ g.shadow = none

/-- The sett of a scratchpad address is resident in a team whose setts have no error (12 R214 to R216). -/
def Resident (s : State) (g : Group) (size : Nat) (a : Int) : Prop :=
  0 ≤ a ∧ a < 2 ^ 22 ∧ a % size = 0 ∧ ∃ t x, s.team? s.cur.core g.ids.teamSlot = some t ∧ t.nsett ≠ 0 ∧ (∀ p ∈ t.setts, p.2.spillFault = none) ∧
    Tbl.find? t.setts (a.toNat / 2048) = some x ∧ (x.st = .res ∨ x.st = .dirty) ∧ x.poison = []

/-- The memory word has issued from `s` to `t` (02 R24, R26): one operation more on its path, its flag set, the position advanced; no register
is written yet; the group is else the same but for a measured lease, and so is every other group. -/
def Issued (i : Instr) (s : State) (g : Group) (path : Path) (t : State) (h : Group) : Prop :=
  exec i s = .next t ∧ t.group? s.cur.core s.cur.slot = some h ∧
  h = { g.advanced s.cur with inflight := h.inflight, lease := h.lease } ∧ (g.measured = false → h.lease = g.lease) ∧
  h.ctr path = g.ctr path + 1 ∧ (∀ p, p ≠ path → h.ctr p = g.ctr p) ∧
  (∀ f, s.cur.flag = some f → t.flagSet s.cur.core s.cur.slot h f = true) ∧
  ∀ c k, gkey c k ≠ gkey s.cur.core s.cur.slot → t.group? c k = s.group? c k

/-- The one operation in flight completes (02 R25, R26): its registers are written in the lanes `ls` (or, at `none`, as scalars), its counter
falls and its flag is released; no byte of memory changes. -/
def Completed (t : State) (core slot : Nat) (h : Group) (path : Path) (ls : Option (List Nat)) (d w : Nat) (f : Nat → Nat) : Prop :=
  ∃ h1, exec (.memoryOpCompletion core slot path) t = .next (t.setGroup core slot h1) ∧
    match ls with
    | some ls => VecWritten { h with inflight := [] } h1 ls d w f
    | none => ScaWritten { h with inflight := [] } h1 true d w (f 255)

/-- The result of an atomic (12 R222, R223). -/
def AtomResult (op : AtomOp) (ty : RedTy) (old b c new : Nat) : Prop :=
  match op with
  | .add => match redFmt ty with
    | some f => ∃ r, AddRule (fmtOf f) .nearest ((fmtOf f).decode old) ((fmtOf f).decode b) r ∧ new = r.1
    | none => new = (old + b) % 2 ^ redW ty
  | .min => redFmt ty = none → new = if redRead ty b < redRead ty old then b else old
  | .max => redFmt ty = none → new = if redRead ty old < redRead ty b then b else old
  | .and => new = old &&& b
  | .or => new = old ||| b
  | .xor => new = old ^^^ b
  | .exch => new = b
  | .cas => new = if old = c then b else old

/-- Atomics of one word, one lane after another, each on the bytes that the one before has left: `xs` are the lanes with their addresses and
operands, `olds` the old values (12 R212, R222). -/
def AtomSteps (op : AtomOp) (ty : RedTy) : List (Nat × Nat × Nat) → (Nat → Byte) → List Nat → (Nat → Byte) → Prop
  | [], m, olds, m1 => olds = [] ∧ m1 = m
  | x :: rest, m, olds, m1 =>
    let n := redW ty / 8
    ∃ new olds', AtomResult op ty (valueIn m x.1 n) x.2.1 x.2.2 new ∧ olds = valueIn m x.1 n :: olds' ∧
      AtomSteps op ty rest (putIn m x.1 n new) olds' m1

/-- A lane's check of its address at issue (12 R210, checks 1 and 2). -/
def addrCause (limit size : Nat) (a : Int) : Option Nat :=
  if a < 0 ∨ limit ≤ a then some 0x11 else if a % size ≠ 0 then some 0x13 else none

/-- An address of an aperture's view that is this package's own. -/
def Own (s : State) : Aperture → Nat → Prop
  | .cached, x => x / 2 ^ 51 = s.fabric.self
  | .ms, _ => True

/-- Every byte of the cached view reads as before. -/
def CachedSame (s t : State) : Prop := ∀ x, Own s .cached x → t.byteAt x = s.byteAt x

/-- Memory changes by nothing but the write-back of lines that the L2 replaces (18 R330): outside the bytes `hit`, a byte is as before or as the
L2 held it. -/
def WrittenBack (s t : State) (hit : Nat → Prop) : Prop :=
  ∀ x, Own s .cached x → ¬ hit x → t.mem.byte (lpaOf x) = s.mem.byte (lpaOf x) ∨ t.mem.byte (lpaOf x) = s.byteAt x

/-- Nothing but the view of one aperture changes: of memory no more than write-backs for the cached one, the L2 not at all for the memory-side
one. -/
def OtherView (s t : State) (hit : Nat → Prop) : Aperture → Prop
  | .cached => WrittenBack s t hit
  | .ms => t.memsys.l2 = s.memsys.l2

/-- The bytes that the lanes of an access touch. -/
def laneBytes (ls : List Nat) (pa : Nat → Nat) (n : Nat) (x : Nat) : Prop := ∃ l ∈ ls, pa l ≤ x ∧ x < pa l + n

/-! ### Waiting, sections and barriers (12 R225 to R227; 16 R301 to R303; 22 R386 to R394) -/

/-- The word cannot issue yet: its group stays at it, marked as waiting, and nothing else changes. -/
def Holds (i : Instr) (s : State) (g : Group) : Prop := ∃ k o, exec i s = .next (s.setCurGroup { g with block := .stall k o })

/-- A region entry has been taken at `p` (03 R43, 14 R250): the root entry saves its FMT, the count rises. -/
def RegionTaken (g g1 : Group) (p : Pos) : Prop :=
  (∀ j, g1.ent j = if j = 0 then { g.ent 0 with saved := (g.ent 0).fmt } else g.ent j) ∧
  g1 = { g with ents := g1.ents, region := p, regcnt := g.regcnt + 1, restarts := 0 }

/-- Every group but the issuing one, every byte of memory and the caches are the same. -/
def OthersSame (s t : State) : Prop :=
  (∀ c k, gkey c k ≠ gkey s.cur.core s.cur.slot → t.group? c k = s.group? c k) ∧ t.memsys = s.memsys

/-- Nothing changes but the order in which the L2 has used its lines (18 R330): what reads that find their bytes in the L2 leave. -/
def UsesOnly (s t : State) : Prop := t = { s with memsys := { s.memsys with lines := t.memsys.lines, uses := t.memsys.uses } }

/-- The L2 holds the granule of an address, without poison. -/
def HeldInL2 (s : State) (pa : Nat) : Prop := ∀ k, k < 4 → ∃ y, s.l2? (4 * (pa / 128) + k) = some y ∧ y.poison = 0

/-- The group stands alone in its split table with its root running. -/
def Undivided (s : State) (g : Group) : Prop := g.single = true ∧ s.cur.entry = 0 ∧ (g.ent 0).st = .running

/-! ### Engine commands (12 R226, 15, 16, 19) -/

/-- A field of a word. -/
def wordField (x : Word32) (lo n : Nat) : Nat := (x.extractLsb' lo n).toNat

/-- A span of bytes of a command: its space, whether it is written, its first byte, its length. -/
abbrev Span : Type := Bool × Bool × Nat × Nat

/-- The lock of a span in entry `e` of the table (16 R311): widened to whole sectors; a scratchpad span belongs to the issuing team. -/
def lockOf (s : State) (g : Group) (e : Nat) (x : Span) : Lock :=
  { entry := e, cmd := s.nextId, lo := x.2.2.1 / 32 * 32, hi := (x.2.2.1 + x.2.2.2 + 31) / 32 * 32 - 1, sp := x.1, wr := x.2.1, team := g.ids.teamid,
    teamKey := teamKeyOf g.ids, slot := s.cur.slot, disp := false, queue := g.ids.queue }

/-- The span lies in its space (15 R282, 16 R319, 19 R354). -/
def Span.inside (x : Span) : Prop := x.2.2.1 + x.2.2.2 ≤ if x.1 then 2 ^ 22 else 2 ^ 57

/-- The tokens that a command names: two inputs and an output. -/
abbrev Toks : Type := Option Nat × Option Nat × Option Nat

/-- The token word of a command is `toks` (16 R307); without TOK there is none. -/
def Names (g : Group) (tok : TokReg) (toks : Toks) : Prop :=
  match tok with
  | none => toks = (none, none, none)
  | some c =>
    let w := g.rdS c.toNat
    let of (lo : Nat) : Option Nat := if w.getLsbD (lo + 3) then some (wordField w lo 3) else none
    toks = (of 0, of 4, of 8)

/-- The token word is one that R307 admits. -/
def TokensValid (g : Group) (tok : TokReg) : Prop :=
  ∀ c, tok = some c →
    let w := g.rdS c.toNat
    wordField w 12 20 = 0 ∧ (∀ lo ∈ ([0, 4, 8] : List Nat), w.getLsbD (lo + 3) = false → wordField w lo 3 = 0) ∧
    (w.getLsbD 11 = true → (w.getLsbD 3 = true → wordField w 0 3 ≠ wordField w 8 3) ∧ (w.getLsbD 7 = true → wordField w 4 3 ≠ wordField w 8 3))

/-- The core has the translation of every page of the spans that lie in memory (12 R206, R209). -/
def Translated (s : State) (g : Group) (xs : List Span) : Prop :=
  ∀ x ∈ xs, x.1 = false → ∀ a, x.2.2.1 ≤ a → a < x.2.2.1 + x.2.2.2 →
    ((s.coreSt s.cur.core).tlb.find? fun t => t.ctx == (s.ctx g.ids.queue).hw.getD 64 && t.base ≤ a && a < t.base + t.size).isSome = true

/-- Nothing of another party is tracked, so no conflict arises. -/
def Unmet (s : State) (g : Group) : Prop := (∀ a ∈ s.track.acc, a.party = g.ids.uid) ∧ s.track.cmds = [] ∧ s.track.far = []

/-- There is room for a command (15 R276; 16 R306, R312; 02 R26): lock entries, its output token's count, its batch, its engine's table. -/
structure Room (s : State) (g : Group) (path : Path) (spans : Nat) (toks : Toks) : Prop where
  locks : ∀ k c, s.clusterOf g.ids = some (k, c) → c.locks.length + spans ≤ 32
  few : spans ≤ 32
  token : ∀ o t, toks.2.2 = some o → s.team? s.cur.core g.ids.teamSlot = some t → Tbl.getD t.pend o 0 < 63
  batch : g.ctr path < 255 ∨ ∃ b ∈ g.batches, b.path = path ∧ b.closed = false
  table : path = .mx → (s.cmds.filter fun c => c.path == .mx && benchOf c.core == benchOf s.cur.core && !c.done).length < 64
  root : g.single = true → s.cur.entry = 0 ∧ (g.ent 0).st = .running

/-- A command joins its path's open batch, or opens one (12 R226). -/
def JoinsBatch (g h : Group) (path : Path) (id : Nat) : Prop :=
  h = { g with batches := h.batches } ∧
  ((∃ b ∈ g.batches, b.path = path ∧ b.closed = false) →
    h.batches = g.batches.map fun b => if b.path = path ∧ b.closed = false then { b with cmds := b.cmds ++ [id] } else b) ∧
  ((∀ b ∈ g.batches, ¬ (b.path = path ∧ b.closed = false)) → h.batches = g.batches ++ [⟨path, [id], false⟩])

/-- The command word issues (12 R226, 14 R250, 16 R306, R311): one command more, with its operands as read, the tokens and the flag that it names,
not dispatched; it joins its path's batch, its spans are locked in free entries of the cluster's table, its output token counts it and is no
longer ready, and after a resumable command of an undivided group stands a region entry. No register, no memory byte and no other group changes; `k` is what the word does
to its own group beside. The word has first read its operands from memory, which leaves `s1`. -/
def EnqueuesFrom (i : Instr) (s s1 : State) (g : Group) (path : Path) (op : CmdOp) (rows : BitVec 32) (toks : Toks) (spans : List Span)
    (resumable : Bool) (k : Group → Group) : Prop :=
  ∃ t h h0, exec i s = .next t ∧ t.group? s.cur.core s.cur.slot = some ((k h).advanced s.cur) ∧ OthersSame s1 t ∧
    t.cmds = s.cmds ++ [{
      id := s.nextId, core := s.cur.core, slot := s.cur.slot, queue := g.ids.queue, path := path, op := op, fmt := (s.frag g).fmt,
      rows := rows, in0 := toks.1, in1 := toks.2.1, outTok := toks.2.2, flag := s.cur.flag, disp := false, suspended := false,
      granted := [], ran := [], done := false, progress := 0, buf := [], pos := (s.frag g).pos, after := (s.frag g).pos.next s.cur.len,
      entry := s.cur.entry, mask := (s.frag g).mask, ids := g.ids, mon := g.mon, start := s.cycle }] ∧
    t.nextId = s.nextId + 1 ∧ JoinsBatch g h0 path s.nextId ∧
    (if resumable = true ∧ g.single = true then RegionTaken h0 h ((s.frag g).pos.next s.cur.len) else h = h0) ∧
    (∀ k c, s.clusterOf g.ids = some (k, c) →
      ∃ es : List Nat, es.length = spans.length ∧ es.Pairwise (· < ·) ∧ (∀ e ∈ es, e < 32 ∧ ∀ l ∈ c.locks, l.entry ≠ e) ∧
        Tbl.find? t.clusters k = some { c with locks := c.locks ++ (es.zip spans).map fun p => lockOf s g p.1 p.2 }) ∧
    (∀ o x, toks.2.2 = some o → s.team? s.cur.core g.ids.teamSlot = some x →
      t.team? s.cur.core g.ids.teamSlot = some { x with
        pend := Tbl.setD x.pend o (Tbl.getD x.pend o 0 + 1) 0, rdy := x.rdy &&& ~~~(BitVec.ofNat 8 (2 ^ o)) }) ∧
    (toks.2.2 = none → t.teams = s.teams)

/-- The command word issues, having read nothing from memory. -/
def EnqueuesThen (i : Instr) (s : State) (g : Group) (path : Path) (op : CmdOp) (rows : BitVec 32) (toks : Toks) (spans : List Span)
    (resumable : Bool) (k : Group → Group) : Prop := EnqueuesFrom i s s g path op rows toks spans resumable k

/-- The command word issues and does nothing else to its group. -/
def Enqueues (i : Instr) (s : State) (g : Group) (path : Path) (op : CmdOp) (toks : Toks) (spans : List Span) (resumable : Bool) : Prop :=
  EnqueuesThen i s g path op (s.frag g).mask toks spans resumable id

/-- The command's operands are legal and there is room for it: with a true guard it issues as `Enqueues` says, with a false one it is a no-op. -/
def Commands (i : Instr) (s : State) (g : Group) (gd : Guard) (tok : TokReg) (path : Path) (op : CmdOp) (spans : List Span) (resumable : Bool)
    (legal : Prop) : Prop :=
  Ready i s g →
    (g.guardUni gd = false → Completes i s g) ∧
    (g.guardUni gd = true → legal → TokensValid g tok → (∀ x ∈ spans, x.inside) → Translated s g spans → Unmet s g →
      ∀ toks, Names g tok toks → Room s g path spans.length toks → Enqueues i s g path op toks spans resumable) ∧
    (g.guardUni gd = true → ¬ TokensValid g tok → path ≠ .mx → Faults i s g ⟨0x02, 255, 0, 0, 0⟩)

/-- The span of the rows of a mask at a pitch (15 R294). -/
def rowSpan (sp wr : Bool) (m : BitVec 32) (addr pitch len : Nat) : Span :=
  let ls := maskLanes m
  (sp, wr, addr + ls.headD 0 * pitch, (ls.getLastD 0 - ls.headD 0) * pitch + len)

/-- The group holds a reservation, and none of its bench commands is incomplete. -/
def Reserved (s : State) (g : Group) (r : Resv) : Prop :=
  g.resv = some r ∧ ∀ c ∈ s.cmds, c.core = s.cur.core → c.slot = s.cur.slot → c.path = .mx → c.done = true

/-- Bytes of an element by format code (02 R27): F8A, F8B and INT8 have one, CB4 half of one. -/
def formatBytes (c : Nat) : Nat := if c = 0 then 8 else if c = 1 ∨ c = 8 then 4 else if c = 2 ∨ c = 3 then 2 else 1

/-- The k-steps of a bed by format (15 R278). -/
def stepsHeld (c : Nat) : Nat := if c = 0 then 9 else if c = 1 then 21 else if c = 2 then 32 else 64

/-! ### Engine commands that run (15, 16, 19) -/

/-- The machine's command `c` can move: it is not suspended and not complete, and no save or removal of its context is under way. -/
structure Live (s : State) (c : Cmd) : Prop where
  found : s.cmds.find? (fun x => x.id == c.id) = some c
  goes : c.suspended = false ∧ c.done = false
  ctx : (s.ctx c.queue).save = none ∧ (s.ctx c.queue).removing = none

/-- The commands with `c` replaced. -/
def State.cmdsWith (s : State) (c : Cmd) : List Cmd := s.cmds.map fun x => if x.id = c.id then c else x

/-- The input tokens of a command are ready (16 R306). -/
def TokensReady (s : State) (c : Cmd) : Prop :=
  ∀ k, c.in0 = some k ∨ c.in1 = some k → ∃ t, s.team? c.core c.ids.teamSlot = some t ∧ t.rdy.getLsbD k = true

/-- The locks of a command's cluster. -/
def State.locksNear (s : State) (c : Cmd) : List Lock := (s.clusterOf c.ids).elim [] fun x => x.2.locks

/-- Two locks that do not admit one another (16 R313): one space, overlapping, one of them written. -/
def Collide (a b : Lock) : Prop :=
  a.sp = b.sp ∧ (a.sp = true → a.teamKey = b.teamKey) ∧ (a.wr = true ∨ b.wr = true) ∧ a.lo ≤ b.hi ∧ b.lo ≤ a.hi

/-- From `s` to `t` the command `c` is dispatched (16 R311): it and its locks show it, and nothing else changes but, in a group that `c` gives a
bed's format (15 R287), its reservation. -/
def DispatchesTo (s t : State) (c : Cmd) : Prop :=
  t = { s with cmds := t.cmds, clusters := t.clusters, groups := t.groups } ∧
  (∀ core slot, (core, slot) ≠ (c.core, c.slot) → slot < 64 → c.slot < 64 → t.group? core slot = s.group? core slot) ∧
  (∀ g, s.group? c.core c.slot = some g → ∃ h, t.group? c.core c.slot = some h ∧ h = { g with resv := h.resv } ∧
    ((∀ sp a b k o p, c.op ≠ .bload sp a b k o p) → (∀ ch sp sl a b k o p, c.op ≠ .mma ch sp sl a b k o p) → h = g)) ∧ t.cmds = s.cmdsWith { c with disp := true, start := s.cycle } ∧
  ∀ k x, s.clusterOf c.ids = some (k, x) →
    Tbl.find? t.clusters k = some { x with locks := x.locks.map fun l => if l.cmd = c.id then { l with disp := true } else l }

/-- From `s` to `t` the command `c` ends (16 R306, R312; 13 R244): it is complete, its locks are released, its output token counts one less
and is ready once none is pending, its tracked range is complete; nothing else changes. -/
def EndsTo (s t : State) (c : Cmd) : Prop :=
  t = { s with cmds := t.cmds, clusters := t.clusters, teams := t.teams, track := t.track } ∧
  t.cmds = s.cmdsWith { c with done := true, suspended := false, disp := true } ∧
  (∀ k x, s.clusterOf c.ids = some (k, x) → Tbl.find? t.clusters k = some { x with locks := x.locks.filter fun l => l.cmd != c.id }) ∧
  (c.outTok = none → t.teams = s.teams) ∧
  (∀ o x, c.outTok = some o → s.team? c.core c.ids.teamSlot = some x →
    let n := Tbl.getD x.pend o 0 - 1
    ∃ rdy : BitVec 8, t.team? c.core c.ids.teamSlot = some { x with pend := Tbl.setD x.pend o n 0, rdy := rdy } ∧
      ∀ k, k < 8 → rdy.getLsbD k = (x.rdy.getLsbD k || (k == o && n == 0))) ∧
  t.track = { s.track with
    cmds := s.track.cmds.map (fun x => if x.cmd = c.id ∧ x.stop.isNone then { x with stop := some s.track.now } else x)
    now := s.track.now + 1 }

/-- The command completes, having changed `s` to `s1`. -/
def CommandDone (s s1 : State) (c c1 : Cmd) : Prop := ∃ t, exec (.engineCommandComplete c.id) s = .next t ∧ EndsTo s1 t c1

/-- The reservations of a bench with the context of each (15 R274). -/
def State.reservations (s : State) (b : Nat) : List (Nat × Resv) :=
  (List.filter (fun p : Nat × Group => benchOf (p.1 / 64) == b) s.groups).filterMap fun p => p.2.resv.map fun r => (p.2.ids.queue, r)

/-- How many beds lie on a face of a bench (15 R275). -/
def State.bedsOn (s : State) (b f : Nat) : Nat := ((s.reservations b).flatMap fun r => r.2.faces).count f

/-- What a request asks for: the reservation's resources, all of them free of content (15 R274, R283). -/
def Grants (wide : Bool) (w : Word32) (r : Resv) : Prop :=
  r = { wide := wide, nsl := wordField w 0 7, nbed := wordField w 7 3, ncb := wordField w 10 7, slates := [], checked := [],
        badSlates := [], faces := r.faces, beds := [], books := [], badBooks := [] } ∧ r.faces.length = wordField w 7 3

/-- The element of A or B of a pass: its bytes read as the format reads them, scaled (08 R145, R146, R155). -/
def passElem (fmt : Word64) (b : Bool) (book : Nat) (x : Nat) : FVal :=
  passValue ((fmt.extractLsb' (if b then 4 else 0) 4).toNat) ((fmt.extractLsb' (if b then 32 else 24) 6).toNat) book x

/-- One element of a pass (08 R153, R156; 15 R288): the accumulator and sixteen products, added exactly, rounded once; at INT32 the exact sum,
wrapped or, with SAT, saturated. -/
def PassElement (fmt : Word64) (book acc : Nat) (as bs : List Nat) (r : FRes) : Prop :=
  if (fmt.extractLsb' 8 4).toNat = 8 then
    let x : Int := (BitVec.ofNat 32 acc).toInt + ((as.zip bs).map fun p => (BitVec.ofNat 8 p.1).toInt * (BitVec.ofNat 8 p.2).toInt).sum
    r.2 = 0 ∧ r.1 = (BitVec.ofInt 32 (if fmtSat fmt = true then Max.max (-2 ^ 31) (Min.min (2 ^ 31 - 1) x) else x)).toNat
  else
    ∃ f, fmtOfCode (fmt.extractLsb' 8 4).toNat = some f ∧
      DotRule (fmtOf f) (roundOf fmt .dyn false) ((fmtOf f).decode acc) (as.map (passElem fmt false 0)) (bs.map (passElem fmt true book)) r

/-- A row that a near-memory command names, of a page that admits it (19 R350). -/
def NearMaps (s : State) (c : Cmd) (wr : Bool) (va lpa : Nat) : Prop :=
  lpa % 1024 = 0 ∧ lpa + 1024 ≤ dataEnd ∧ ∃ t, (s.coreSt c.core).tlb.find? (fun t =>
      t.ctx == (s.ctx c.queue).hw.getD 64 && t.base ≤ va && va < t.base + t.size) = some t ∧
    t.size % 4096 = 0 ∧ (t.leaf.extractLsb' 12 48).toNat * 4096 / t.size * t.size + va % t.size = s.fabric.self * 2 ^ 51 + lpa ∧
    s.fabric.self < 512 ∧ t.leaf.getLsbD 7 = true ∧ (c.mon = true ∨ t.leaf.getLsbD 5 = true) ∧
    t.leaf.getLsbD (if wr then 3 else 2) = true

/-- The row `k` of a near-memory command is written (19 R358): `row` gives the bytes of the destination row at `ld`, the package's cached copies
of it are dropped, every other byte is the same, and the progress counts it. -/
def RowWritten (s : State) (c : Cmd) (ld : Nat) (row : (Nat → Byte) → Prop) : Prop :=
  ∃ t, exec (.nearMemoryRowComplete c.id) s = .next t ∧ t.cmds = s.cmdsWith { c with progress := c.progress + 1 } ∧
    row (fun i => t.mem.byte (ld + i)) ∧ (∀ a, ¬ (ld ≤ a ∧ a < ld + 1024) → t.mem.byte a = s.mem.byte a) ∧
    (∀ x, t.l2? x = if x / 32 = (s.fabric.self * 2 ^ 51 + ld) / 1024 then none else s.l2? x) ∧ t.groups = s.groups ∧ t.teams = s.teams

/-- A package alone with good memory. -/
def Alone (s : State) : Prop := s.fabric.en = false ∧ s.fabric.dir = [] ∧ s.ctl.fenced = 0 ∧ GoodStacks s

/-! ### Collectives and graph nodes (21, 25) -/

/-- The bytes `d` lie at `va` where the group's cached reads find them: each sector on a page that the core's translations give it, its granule in
the package's L2. -/
def ReadsHere (s : State) (g : Group) (va : Nat) (d : List Byte) : Prop :=
  s.fabric.en = false ∧ s.ctl.fenced = 0 ∧ va % 32 = 0 ∧ va + d.length ≤ 2 ^ 57 ∧ ∀ k, 32 * k < d.length → ∃ pa,
    Maps s g .cached true false (va + 32 * k : Nat) pa ∧ HeldInL2 s pa ∧
    ∀ j, j < 32 → 32 * k + j < d.length → d.getD (32 * k + j) 0 = s.byteAt (pa + j)

/-- A field of the 64-bit word `i` of a byte list. -/
def byteField (d : List Byte) (i lo n : Nat) : Nat := valueIn (fun a => d.getD a 0) (8 * i) 8 / 2 ^ lo % 2 ^ n

/-- The bytes are a group descriptor that breaks no limit, and `b` the binding it makes (25 R438). -/
def DescribesGroup (d : List Byte) (b : Binding) : Prop :=
  d.length = 64 + 8 * b.members.length ∧
  b = { gid := byteField d 0 0 40, rank := byteField d 0 40 9, members := (List.range (byteField d 0 49 9 + 1)).map fun r => byteField d (8 + r) 0 64,
        send := byteField d 1 0 64, recv := byteField d 2 0 64, len := byteField d 3 0 24,
        tmo := if byteField d 3 24 16 = 0 then 100 else byteField d 3 24 16, seq := 0, broken := none } ∧
  byteField d 0 58 6 = 0 ∧ byteField d 1 57 7 = 0 ∧ byteField d 2 57 7 = 0 ∧ byteField d 3 40 24 = 0 ∧
  (∀ i, 4 ≤ i → i < 8 → byteField d i 0 64 = 0) ∧ byteField d 0 49 9 ≠ 0 ∧ b.rank < b.members.length ∧ b.len % 8 = 0 ∧ 8 ≤ b.len ∧
  ∀ p ∈ b.members, p < 512

/-- A buffer lies on pages that R438 admits. -/
def BufferAdmitted (s : State) (g : Group) (wr : Bool) (va len : Nat) : Prop :=
  va + len ≤ 2 ^ 57 ∧ ∀ a, va ≤ a → a < va + len → ∃ r, s.leafOf s.cur.core g.ids.queue a = .ok s r ∧
    r.1.testBit 2 = true ∧ (wr = true → r.1.testBit 3 = true) ∧ r.1.testBit 5 = true ∧ r.1.testBit 6 = false ∧ r.1.testBit 7 = false ∧
    s.paOk (leafPa r.1 r.2 a) = true ∧ homeOf (leafPa r.1 r.2 a) = s.fabric.self

/-- A package lies within a scope of this one (25 R440). -/
def WithinScope (s : State) (sc : Scope) (p : Nat) : Prop :=
  p = s.fabric.self ∨ s.fabric.en = true ∧ (s.domEnt p).valid = true ∧ (sc = .dom ∨ sc = .cell ∧ s.cellOf p = s.ownCell)

/-- Entry `i` of a plan is the stream `x`, and breaks no limit (25 R441, R442). -/
def PlanEntry (d : List Byte) (i members len elt : Nat) (x : Stream) : Prop :=
  let f (w lo n : Nat) : Nat := byteField d (4 * i + w) lo n
  let hops := f 0 56 3 + 1
  let op (j : Nat) : Nat := f 1 (2 * j) 2
  let rank (j : Nat) : Nat := if j = 7 then f 3 0 9 else f 2 (9 * j) 9
  x = { off := f 0 0 32, count := f 0 32 24, route := (List.range hops).map rank, ops := (List.range hops).map op } ∧
  f 0 59 5 = 0 ∧ f 1 16 48 = 0 ∧ f 2 63 1 = 0 ∧ f 3 9 55 = 0 ∧ x.count ≠ 0 ∧ (x.off + x.count) * elt ≤ len ∧
  (∀ j, hops ≤ j → j < 8 → op j = 0 ∧ rank j = 0) ∧ (∀ j, j < hops → rank j < members) ∧ (∀ j, j + 1 < hops → op j ≠ 2) ∧ 2 ≤ op (hops - 1)

/-- The instance as the package knows it, one not yet heard of being empty. -/
def State.instHere (s : State) (gid n : Nat) : Inst := (s.inst? gid n).getD ⟨gid, n, [], [], [], none, []⟩

/-- From `s` to `t` the instance changes by `f` and no other. -/
def InstChanges (s t : State) (gid n : Nat) (f : Inst → Inst) : Prop :=
  t.inst? gid n = some (f (s.instHere gid n)) ∧ ∀ a b, (a, b) ≠ (gid, n) → t.inst? a b = s.inst? a b

/-- The instance is aborted with a cause (25 R447): it says so, its packets are gone, and each binding of it on a group here that was not broken
is; the groups' registers are the same, and memory where no hop had written to RECV. -/
def Aborts (s t : State) (gid n cause : Nat) (f : Inst → Inst) : Prop :=
  InstChanges s t gid n (fun i => { f i with abort := some cause }) ∧ ((s.instHere gid n).wrote = [] → t.memsys = s.memsys) ∧
  (∀ p ∈ t.coll.packets, ¬ (p.gid = gid ∧ p.n = n)) ∧
  (∀ p ∈ s.coll.packets, ¬ (p.gid = gid ∧ p.n = n) → p ∈ t.coll.packets) ∧
  ∀ core slot g, s.group? core slot = some g → ∃ h, t.group? core slot = some h ∧ h = { g with binds := h.binds } ∧
    ∀ k b, Tbl.find? g.binds k = some b →
      Tbl.find? h.binds k = some (if b.gid = gid then { b with broken := some (b.broken.getD (cause, n)) } else b)

/-- An announcement is told to the other packages that hold members (25 R443). -/
def toldTo (s : State) (gid : Nat) (m : Nat → Msg) (t : State) : Prop :=
  ∃ ps : List Nat, t.out = s.out ++ ps.map m ∧ ps.Nodup ∧ ∀ p, p ∈ ps ↔ p ≠ s.fabric.self ∧ ∃ x ∈ s.bindings gid, p ∈ x.2.2.members

/-! ### Stops, debug and sleep (14) -/

/-- An entry held by the debug monitor (07 R117, 14 R266). -/
def heldEntry (e : Entry) : Entry := if e.st = .free ∨ e.st = .stopped then e else { e with st := .stopped, former := e.st }

/-- The record of a stop of class S (14 R253, R256, R259): RESTART is the position `after`. -/
def stopRecord (s : State) (g : Group) (entry : Nat) (after : Pos) (f : FaultInfo) : Rec :=
  { info := f, resumable := false, regcnt := g.regcnt, faultPos := (g.ent entry).pos, restart := after, after := after, stop := true, late := false,
    mask := (g.ent entry).mask, entry := entry, progress := 0, cmd := none, tick := s.tick }

/-- From `g` to `h` the group stops with a stop record: its entry stands at `after`, its entries are held as `hold` says, its debug state names
the reason, the record waits to be written and to be served; nothing else of it changes. -/
def StopsTo (s : State) (g h : Group) (entry : Nat) (after : Pos) (run : Run) (f : FaultInfo) (hold : Nat → Bool) : Prop :=
  let r := stopRecord s g entry after f
  h = { g with ents := h.ents, block := h.block,
               dbg := { g.dbg with run := run, cause := f.cause, stepping := none, pass := h.dbg.pass },
               stops := { g.stops with unwritten := g.stops.unwritten ++ [r], unserved := g.stops.unserved ++ [r] } } ∧
  ∀ j, j < 32 →
    let e := if j = entry then { g.ent j with pos := after } else g.ent j
    h.ent j = if hold j then heldEntry e else e

/-- The debug target of a monitor group (14 R258): a live group that is no shadow, within its reach. -/
def Reaches (s : State) (g : Group) (core slot : Nat) (x : Group) : Prop :=
  s.group? core slot = some x ∧ slot < 64 ∧ core < 512 ∧ x.leader = none ∧ x.shadow = none ∧ gkey core slot ≠ gkey s.cur.core s.cur.slot ∧
  if (s.ctx g.ids.queue).regs.fqEn = true ∧ g.mon = true ∧ (s.ctx g.ids.queue).regs.handler = gkey s.cur.core s.cur.slot then x.ids.queue = g.ids.queue
  else s.sched.partEn = true → (s.ctx x.ids.queue).desc.part = (s.ctx g.ids.queue).desc.part

/-- A status for register `d` of the issuing group waits to be written, under the flag of the word (03 R42). -/
def Group.reporting (g : Group) (c : Cur) (d : Reg) (st : Nat) : Group :=
  { g with statuses := g.statuses ++ [⟨c.flag, d.toNat, BitVec.ofNat 32 st⟩] }

/-- The word of a monitor group reports a status for `d` and turns its target into `y`; nothing else changes. -/
def Reports (i : Instr) (s : State) (g : Group) (d : Reg) (st : Nat) (core slot : Nat) (y : Group) : Prop :=
  exec i s = .next ((s.setGroup core slot y).setCurGroup ((g.reporting s.cur d st).advanced s.cur))

/-- The word of a monitor group reports a status for `d` and does nothing else. -/
def ReportsOnly (i : Instr) (s : State) (g : Group) (d : Reg) (st : Nat) : Prop :=
  exec i s = .next (s.setCurGroup ((g.reporting s.cur d st).advanced s.cur))

/-- A result to a register of the target is still to come (14 R262). -/
def PendingTo (s : State) (core slot : Nat) (x : Group) (lane n : Nat) : Prop :=
  (∃ o ∈ x.inflight, (∃ a ∈ o.todo, a.writesReg lane n = true) ∨ ∃ w ∈ o.writes, w.to lane n = true) ∨
  (lane = 255 ∧ ∃ o ∈ x.statuses, o.reg = n) ∨
  ∃ c ∈ s.cmds, c.core = core ∧ c.slot = slot ∧ c.done = false ∧ lane = 255 ∧
    ((∃ w r, c.op = .srsv w r n) ∨ ∃ st, c.op = .cgrp n st)

/-- The group goes on (14 R257, R260): it runs, no record is left to be served. -/
def GoesOnAgain (x y : Group) : Prop :=
  y.regs = x.regs ∧ y.inflight = x.inflight ∧ y.batches = x.batches ∧ y.dbg.run = .running ∧ y.dbg.stepping = none ∧ y.stops.unserved = []

/-! ### Units of a core, setts, control registers (11, 12, 01) -/

/-- The group is the one unit of its core. -/
def OnlyUnit (s : State) (core slot : Nat) (g : Group) : Prop :=
  slot < 64 ∧ g.leader = none ∧ ∃ pre post, s.groups = pre ++ (gkey core slot, g) :: post ∧ (∀ p ∈ pre, p.1 < gkey core slot ∧ p.1 / 64 ≠ core) ∧
    ∀ p ∈ post, p.1 / 64 ≠ core

/-- A write of a control register that reads as `r` afterwards and touches no memory and no group. -/
def RegisterTakes (s : State) (a : Nat) (v : BitVec 64) (firmware : Bool) (r : BitVec 64) : Prop :=
  ∃ t, exec (.controlRegisterWrite a v firmware) s = .next t ∧ t.ctlRead a = r ∧ t.memsys = s.memsys ∧ t.groups = s.groups

/-- A package alone whose L2 holds its own good sectors. -/
def CleanAlone (s : State) : Prop := Alone s ∧ OwnL2 s ∧ s.fabric.self < 512

/-- The core has the context's translation of a virtual address for the hardware's own accesses, at monitor privilege, to a page of this package
that may be read and written through the cached aperture (12 R206 to R208). -/
def MonMaps (s : State) (core q va pa : Nat) : Prop :=
  ∃ t, (s.coreSt core).tlb.find? (fun t => t.ctx == (s.ctx q).hw.getD 64 && t.base ≤ va && va < t.base + t.size) = some t ∧
    t.size % 4096 = 0 ∧ pa = (t.leaf.extractLsb' 12 48).toNat * 4096 / t.size * t.size + va % t.size ∧ pa / 2 ^ 51 = s.fabric.self ∧
    s.fabric.self < 512 ∧ lpaOf pa < dataEnd ∧ t.leaf.getLsbD 2 = true ∧ t.leaf.getLsbD 3 = true ∧ t.leaf.getLsbD 6 = false

/-! ### Scheduling (21) -/

/-- The context is resident, whole on the cores, and no save or removal of it is under way. -/
structure Settled (s : State) (q : Nat) : Prop where
  resident : (s.ctx q).st = .resident
  here : (s.ctx q).image = none
  stays : (s.ctx q).save = none ∧ (s.ctx q).removing = none

/-- The register state of a launch (02 R23, 21 R370): the arguments in the first scalar registers, every other register 0, every predicate false,
one fragment of every lane at the entry position, FMT 0x133, PARKED. -/
def Launched (s : State) (d : Grid) (g : Group) : Prop :=
  (∀ n, g.rdS n = d.args.getD n 0) ∧ (∀ l n, g.rdV l n = 0) ∧ (∀ l n, n ≠ 15 → g.rdP l n = false) ∧ (∀ n, n ≠ 7 → g.rdQ n = false) ∧
  (∀ j, g.ent j = if j = 0 then
      { Entry.freed with st := .running, pos := ⟨d.entryPos, 0⟩, mask := BitVec.ofNat 32 (2 ^ d.lanes - 1), fmt := 0x133, saved := 0x133 }
    else .freed) ∧
  g.regs.nlanes = d.lanes ∧ g.regs.nvr = d.vregs ∧ g.mon = d.mon ∧ g.fpstat = 0 ∧ g.inflight = [] ∧ g.batches = [] ∧ g.block = .none ∧
  g.region = ⟨d.entryPos, 0⟩ ∧ g.regcnt = 0 ∧ g.rdepth = 0 ∧ g.act.st = .parked ∧ g.act.since = s.cycle ∧ g.dbg = .launch ∧ g.binds = [] ∧ g.resv = none

/-- A group after a restore or a migration (02 R35, 11 R190, R191; 14 R269): PARKED with the parked time it was saved with, the rest as saved. -/
def Rejoins (s : State) (x y : Group) (parked : Nat) : Prop :=
  y = { x with ids := { x.ids with teamSlot := y.ids.teamSlot }, act := y.act } ∧ y.act.st = .parked ∧ y.act.since = s.cycle - parked

/-! ### The host port and the management queue (23) -/

/-- A field of a command's first word (23 R403). -/
def cmdField (w : MgmtWords) (lo n : Nat) : Nat := ((w.getD 0 0).extractLsb' lo n).toNat

/-- No command of the queue pair is in execution (23 R403). -/
def PairFree (s : State) (qp : Nat) : Prop :=
  (∀ p ∈ s.ctxs, ∀ a, p.2.answer = some a → a.1 ≠ qp) ∧ ∀ a ∈ s.ctl.attesting, a.1 ≠ qp

/-- No command that names the context is in execution (23 R403, R404). -/
def CtxFree (s : State) (q : Nat) : Prop := (s.ctx q).answer = none ∧ ∀ a ∈ s.ctl.attesting, cmdField a.2 32 32 ≠ q

/-- A command that is taken (23 R403): its OP, its zero field zero, no earlier one of its pair unanswered, the package in service or the command one that the winding serves (23 R411). -/
structure Taken (s : State) (qp op : Nat) (w : MgmtWords) : Prop where
  code : cmdField w 0 8 = op
  zeros : cmdField w 8 8 = 0
  free : PairFree s qp
  served : s.ctl.step = 5 ∨ op = 1 ∨ op = 2 ∨ op = 9

/-- The command completes with a state `t`, and its answer leaves with a status and words (23 R403). -/
def Answers (i : Instr) (s : State) (qp : Nat) (w : MgmtWords) (status : Nat) (words : List Word64) (t : State) : Prop :=
  exec i s = .next { t with out := t.out ++ [.answer qp (cmdField w 16 16) status words] }

/-- A partition that the queue pair is not a member of (23 R403). -/
def OtherPartition (s : State) (qp part : Nat) : Prop := s.sched.partEn = true ∧ ∃ p, Config.queuePairPart qp = some p ∧ p ≠ part

/-- The partition of a queue: of an idle one that of its descriptor in memory (21 R366, 23 R403). -/
def State.queuePart (s : State) (q : Nat) : Nat := if (s.ctx q).st = .idle then (s.readDesc q).1.part else (s.ctx q).desc.part

/-- A window that the queue pair may use gives the key a right to a range (23 R401). -/
def Windowed (s : State) (qp key lpa n : Nat) (wr : Bool) : Prop :=
  ∃ p ∈ s.ctl.windows, p.2.key = key ∧ p.2.base ≤ lpa ∧ lpa + n ≤ p.2.base + p.2.len ∧ (if wr then p.2.wr else p.2.rd) = true ∧
    ¬ OtherPartition s qp p.2.part

/-- The bytes of `d` stand from `a` on in the cached view; every other byte reads as before. -/
def BytesPut (s t : State) (a : Nat) (d : List Byte) : Prop :=
  ∀ x, Own s .cached x → t.byteAt x = if a ≤ x ∧ x < a + d.length then d.getD (x - a) 0 else s.byteAt x

/-- The package asks a resident context to be saved (21 R381, 23 R412, R413). -/
def Savable (s : State) (q : Nat) : Prop :=
  s.sched.partEn = true ∧ (s.ctx q).st = .resident ∧ (s.ctx q).save = none ∧ (s.ctx q).saveDue = false ∧
    (s.ctx q).removing = none ∧ (s.ctx q).image = none

/-- From `s` to `t` the contexts of a set are asked to be saved where that is possible, and no other context and no group changes. -/
def AsksSaves (s t : State) (of : Nat → Prop) : Prop :=
  t.groups = s.groups ∧ t.memsys = s.memsys ∧ ∀ q, (of q → Savable s q → t.ctx q = { s.ctx q with save := some false }) ∧
    (¬ (of q ∧ Savable s q) → t.ctx q = s.ctx q)

/-- The context has a group on the die. -/
def OnDie (s : State) (die q : Nat) : Prop := ∃ p ∈ s.groups, p.1 / 64 / 96 = die ∧ p.2.ids.queue = q

/-! ### The fabric (24) -/

/-- A live package of the domain asks this home for data that is its own (24 R415, R416, R432). -/
structure AsksHome (s : State) (pkg lpa : Nat) : Prop where
  domain : s.fabric.en = true ∧ s.fabric.self < 512
  live : (s.domEnt pkg).valid = true ∧ (s.domEnt pkg).dead = false
  data : lpa < dirBase

/-- The firewall lets a package read or write the block of an address (24 R424). -/
def FirewallOpen (s : State) (pkg lpa : Nat) (rd wr : Bool) : Prop :=
  pkg = s.fabric.self ∨ ((rd = true → (s.fwMasks (lpa / 2 ^ 21)).1.getLsbD (s.cellOf pkg) = true) ∧
    (wr = true → (s.fwMasks (lpa / 2 ^ 21)).2.getLsbD (s.cellOf pkg) = true))

/-- The extent of an address is in release from the package's cell (24 R435). -/
def InRelease (s : State) (pkg lpa : Nat) : Prop := (s.extent (lpa / 2 ^ 30)).st = 2 ∧ (s.extent (lpa / 2 ^ 30)).cell = s.cellOf pkg

/-- The home's response to a package leaves, its cell having no rate limit; its load level is open (24 R427). -/
def Responds (i : Instr) (s s1 : State) (pkg lpa cause : Nat) (data : List Byte) : Prop :=
  ∃ level, level < 4 ∧ exec i s = .next { s1 with free := s1.free + 1, out := s1.out ++ [.response pkg lpa cause level data] }

/-- The number of a granule of this home in the domain. -/
def State.granuleNo (s : State) (lg : Nat) : Nat := s.fabric.self * 2 ^ 44 + lg

/-- A granule whose stack can be read: no symbol is in error, the tag is its own, and its channel is not in its retraining window (18 R342, R343,
R346). -/
structure GoodGranule (s : State) (lg : Nat) : Prop where
  symbols : ∀ i, i < 4 → s.mem.symsOf (4 * lg + i) = 0
  tag : s.tagOk lg = true
  window : s.inWindow (lg * 128) = false

/-- A granule of this home that no package holds (state I), whose contents are good and not in this package's L2. -/
structure Unheld (s : State) (lg : Nat) : Prop where
  entry : s.dirEnt lg = none
  swept : lg ∉ s.fabric.sweep
  supplied : Tbl.find? s.fabric.supplied lg = none
  copies : ∀ i, i < 4 → s.l2? (4 * s.granuleNo lg + i) = none
  poison : ∀ i, i < 4 → s.mem.poisonOf (4 * lg + i) = 0
  good : GoodGranule s lg

/-- The scope at which a package of the domain is met (13 R231). -/
def State.scopeOf (s : State) (pkg : Nat) : Nat := if s.cellOf pkg = s.ownCell then 4 else 5

/-- The words of a request, by their places in its granule, in this home's numbering (13 R235). -/
def State.wordsOf (s : State) (lpa : Nat) (ws : List Nat) : List Nat := ws.map fun w => (s.granuleNo (lpa / 128)) * 32 + w % 32

/-- From `s` to `t` memory is read through its cache layer and the access of package `pkg` to `ws` is recorded (13 R233, 18 R335); nothing else of
them changes. -/
def FarRecorded (s t : State) (pkg : Nat) (k : TrackKind) (sec : Bool) (ws : List Nat) : Prop :=
  t = { s with memsys := { s.memsys with dram := t.memsys.dram, uses := t.memsys.uses }, track := t.track } ∧
  (pkg = s.fabric.self → t.track = s.track) ∧
  (pkg ≠ s.fabric.self → t.track = { s.track with
    far := s.track.far ++ ws.map (fun w => ⟨pkg, s.scopeOf pkg, w, k, sec, s.track.now, none⟩)
    releases := t.track.releases, now := s.track.now + 1 } ∧ (k = .read → t.track.releases = s.track.releases))

/-- A directory entry that names one package alone (24 R417). -/
def soleHolder (s : State) (st : DirSt) (cop pkg : Nat) : DirEnt :=
  let near := s.cellOf pkg = s.ownCell
  { st := st, cop := cop, owner := if st = .c then 0 else pkg, pmask := if near then BitVec.ofNat 8 (2 ^ (s.domEnt pkg).cidx) else 0,
    cvec := if near then 0 else BitVec.ofNat 64 (2 ^ s.cellOf pkg), used := s.tick }

/-- The entry with one package more, used now (24 R417, R420). -/
def joinedBy (s : State) (e : DirEnt) (pkg : Nat) : DirEnt :=
  if s.cellOf pkg = s.ownCell then { e with pmask := e.pmask ||| BitVec.ofNat 8 (2 ^ (s.domEnt pkg).cidx), used := s.tick }
  else { e with cvec := e.cvec ||| BitVec.ofNat 64 (2 ^ s.cellOf pkg), used := s.tick }

/-- The entry names the package (24 R417). -/
def HeldBy (s : State) (e : DirEnt) (pkg : Nat) : Prop :=
  ∃ d, (pkg, d) ∈ s.fabric.dom ∧ d.valid = true ∧ (if d.cell = s.ownCell then e.pmask.getLsbD d.cidx else e.cvec.getLsbD d.cell) = true

/-- Recalls of a granule go to packages that have none outstanding (24 R418, R420); nothing else happens. -/
def RecallsFrom (i : Instr) (s : State) (lg : Nat) (share : Bool) (of : Nat → Prop) : Prop :=
  ∃ ps : List Nat, (∀ p, p ∈ ps ↔ of p ∧ ∀ r ∈ s.fabric.recalled, ¬ (r.1 = lg ∧ r.2.1 = p)) ∧
    exec i s = .next { s with out := s.out ++ ps.map fun p => .recall p (lg * 128) share
                              fabric := { s.fabric with recalled := s.fabric.recalled ++ ps.map fun p => (lg, p, share) } }

/-- The bytes of a granule as the package's L2 or else its memory holds them, with the poison codes of its sectors (18 R343). -/
def State.granuleOut (s : State) (pg : Nat) : List Byte :=
  ((List.range 128).map fun i => s.byteAt (pg * 128 + i)) ++ (s.granuleCodes pg).map fun c => BitVec.ofNat 8 c

/-- The request of a number: the one of that number among the requests of this package. -/
def IsRequest (s : State) (r : Req) : Prop := r ∈ s.fabric.reqs ∧ ∀ x ∈ s.fabric.reqs, x.id = r.id → x = r

/-- The requests with one changed. -/
def State.reqsWith (s : State) (id : Nat) (f : Req → Req) : List Req := s.fabric.reqs.map fun q => if q.id = id then f q else q

/-- No instance of a collective has written to RECV here, so an abort leaves no byte open (25 R447). -/
def NothingWritten (s : State) : Prop := ∀ i ∈ s.coll.insts, i.wrote = []

/-- A recovery from the death of cell `k` has begun between `s` and `t` (24 R432, R433, R436). -/
structure Recovers (s t : State) (k : Nat) : Prop where
  started : t.fabric.recActive = true ∧ t.fabric.recCell = k ∧ t.fabric.deadMask = (s.fabric.deadMask ||| BitVec.ofNat 64 (2 ^ k))
  dead : ∀ p, (s.domEnt p).valid = true → t.domEnt p = if s.cellOf p = k then { s.domEnt p with dead := true } else s.domEnt p
  sweep : NothingWritten s → t.fabric.sweep = Tbl.keys s.fabric.dir
  requests : NothingWritten s → t.fabric.reqs = s.fabric.reqs.map fun r =>
    if s.cellOf (homeOf r.pa) = k ∧ r.resp.all (fun x => x.1 == 0xFF) = true then
      { r with resp := some (if r.kind = 2 ∨ r.kind = 6 then 0x35 else 0x34, []) } else r
  copies : NothingWritten s → ∀ sec, homeOf (sec * 32) ≠ s.fabric.self → s.cellOf (homeOf (sec * 32)) = k → t.l2? sec = none
  others : NothingWritten s → ∀ sec, homeOf (sec * 32) = s.fabric.self → t.l2? sec = s.l2? sec
  extents : ∀ e, t.extent e =
    if (s.extent e).st ≠ 0 ∧ (s.extent e).cell = k then { s.extent e with st := 0, ack := true } else s.extent e
  memory : NothingWritten s → t.memsys.mem = s.memsys.mem

/-! ### A step (03 R53) -/

/-- A fragment stands at an instruction word that it may issue: its turn has come, its group is activated, runs and waits on nothing, and
nothing of its core or its context holds it (11 R190; 14 R257, R266; 23 R412, R413). -/
structure Issuing (s : State) (core slot k : Nat) (g : Group) : Prop where
  turn : s.turn = .issue core slot k
  here : s.group? core slot = some g
  active : g.act.st = .active ∨ g.act.st = .forced
  entered : g.again = false ∨ g.inflight = []
  runs : g.dbg.run = .running ∧ g.dbg.stepping = none ∧ g.stops.unwritten = [] ∧ g.stops.unserved = []
  entry : (g.ent k).st = .running ∧ (g.ent k).pos.slot ≠ 0
  sound : ∀ o ∈ g.inflight, o.fault = none
  lone : g.block = .none ∧ g.leader = none ∧ g.shadow = none
  unwatched : ∀ b ∈ g.dbg.bp, b.getLsbD 58 = false
  free : (s.ctx g.ids.queue).save = none ∧ (s.ctx g.ids.queue).removing = none ∧ s.ctl.held = false ∧ (s.die (core / 96)).stopped = false

/-- The word that a fetch at a virtual address reads: the core has the translation, its page may be executed, and the package, alone, holds the
granule in its L2 without poison (12 R206 to R208). -/
def FetchesAt (s : State) (core : Nat) (g : Group) (va w : Nat) : Prop :=
  s.fabric.en = false ∧ s.ctl.fenced = 0 ∧ va < 2 ^ 57 ∧ ∃ t pa, (s.coreSt core).tlb.find? (fun t =>
      t.ctx == (s.ctx g.ids.queue).hw.getD 64 && t.base ≤ va && va < t.base + t.size) = some t ∧
    t.size % 4096 = 0 ∧ pa = (t.leaf.extractLsb' 12 48).toNat * 4096 / t.size * t.size + va % t.size ∧ pa / 2 ^ 51 = s.fabric.self ∧
    s.fabric.self < 512 ∧ lpaOf pa < dataEnd ∧ pa % 8 = 0 ∧
    (g.mon = true ∨ t.leaf.getLsbD 5 = true) ∧ t.leaf.getLsbD 4 = true ∧ t.leaf.getLsbD 6 = false ∧
    HeldInL2 s pa ∧ w = valueIn s.byteAt pa 8

/-- The record of an instruction's fault (14 R250, R253, R256). -/
def faultRecord (s : State) (g : Group) (entry : Nat) (pos : Pos) (f : FaultInfo) : Rec :=
  { info := f, resumable := false, regcnt := g.regcnt, faultPos := pos, restart := g.region,
    after := if pos.slot = 0 then ⟨pos.caddr, 1⟩ else pos.next s.cur.len, stop := false, late := false, mask := (g.ent entry).mask, entry := entry,
    progress := 0, cmd := none, tick := s.tick }

end Sys2Proof.Machine
end

