-- ==== Sys2Proof/Certificates/Slice0/Obligations.lean ====
section
/-! DEFINITION. The statements for the provers. `Ready`, `Completes` and the frames are those of Sys2Proof/Safety.lean. -/

open Sys2Proof Sys2Proof.Machine

/-! ### Integer and uniform words (06) -/

/-- 06 R90: `add`, `sub`, `mul` and `mad` and their uniform forms compute exactly and wrap or saturate once, at every type and with every
source form; nothing but the destination and the position changes, so no status records saturation. -/
def Obligations.SumsAndProducts : Prop :=
  ∀ (s : State) (g : Group) (gd : Guard) (t : IntTy) (sat : Bool) (d : Reg),
    (∀ a b : Src, Ready (.add gd t sat d a b) s g →
      LaneWrites (.add gd t sat d a b) gd d t.width s g fun l => narrowed t sat (g.laneVal t a l + g.laneVal t b l)) ∧
    (∀ a b : Src, Ready (.sub gd t sat d a b) s g →
      LaneWrites (.sub gd t sat d a b) gd d t.width s g fun l => narrowed t sat (g.laneVal t a l - g.laneVal t b l)) ∧
    (∀ a b : Src, Ready (.mul gd t sat d a b) s g →
      LaneWrites (.mul gd t sat d a b) gd d t.width s g fun l => narrowed t sat (g.laneVal t a l * g.laneVal t b l)) ∧
    (∀ a b c : Src, Ready (.mad gd t sat d a b c) s g →
      LaneWrites (.mad gd t sat d a b c) gd d t.width s g fun l =>
        narrowed t sat (g.laneVal t a l * g.laneVal t b l + g.laneVal t c l)) ∧
    (∀ a b : Reg, Ready (.uadd gd t sat d a b) s g →
      UniWrites (.uadd gd t sat d a b) gd d t.width s g (narrowed t sat (g.uniVal t a + g.uniVal t b))) ∧
    (∀ a b : Reg, Ready (.usub gd t sat d a b) s g →
      UniWrites (.usub gd t sat d a b) gd d t.width s g (narrowed t sat (g.uniVal t a - g.uniVal t b))) ∧
    (∀ a b : Reg, Ready (.umul gd t sat d a b) s g →
      UniWrites (.umul gd t sat d a b) gd d t.width s g (narrowed t sat (g.uniVal t a * g.uniVal t b))) ∧
    (∀ a b c : Reg, Ready (.umad gd t sat d a b c) s g →
      UniWrites (.umad gd t sat d a b c) gd d t.width s g (narrowed t sat (g.uniVal t a * g.uniVal t b + g.uniVal t c)))

/-- 06 R91 to R93, R95, R96: the upper half of an exact product rounded toward minus infinity, the magnitude, the lesser and the greater as the
type reads them, the absolute difference added to an unsigned c, and the dot product of four bytes summed exactly. -/
def Obligations.HighProductsMagnitudesAndDots : Prop :=
  ∀ (s : State) (g : Group) (gd : Guard) (t : IntTy) (d : Reg),
    (∀ a b : Src, Ready (.mulh gd t d a b) s g →
      LaneWrites (.mulh gd t d a b) gd d t.width s g fun l => narrowed t false (g.laneVal t a l * g.laneVal t b l / 2 ^ tyBits t)) ∧
    (∀ a b : Reg, Ready (.umulh gd t d a b) s g →
      UniWrites (.umulh gd t d a b) gd d t.width s g (narrowed t false (g.uniVal t a * g.uniVal t b / 2 ^ tyBits t))) ∧
    (∀ sat a, Ready (.abs gd t sat d a) s g →
      LaneWrites (.abs gd t sat d a) gd d t.width s g fun l => narrowed t sat (|g.laneVal t a l|)) ∧
    (∀ a b : Src, Ready (.min gd t d a b) s g →
      LaneWrites (.min gd t d a b) gd d t.width s g fun l => narrowed t false (Min.min (g.laneVal t a l) (g.laneVal t b l))) ∧
    (∀ a b : Src, Ready (.max gd t d a b) s g →
      LaneWrites (.max gd t d a b) gd d t.width s g fun l => narrowed t false (Max.max (g.laneVal t a l) (g.laneVal t b l))) ∧
    (∀ a b : Reg, Ready (.umin gd t d a b) s g →
      UniWrites (.umin gd t d a b) gd d t.width s g (narrowed t false (Min.min (g.uniVal t a) (g.uniVal t b)))) ∧
    (∀ a b : Reg, Ready (.umax gd t d a b) s g →
      UniWrites (.umax gd t d a b) gd d t.width s g (narrowed t false (Max.max (g.uniVal t a) (g.uniVal t b)))) ∧
    (∀ a b c : Src, Ready (.sad gd t d a b c) s g →
      LaneWrites (.sad gd t d a b c) gd d 1 s g fun l =>
        (BitVec.ofInt 32 (|typed t (g.src a 1 l) - typed t (g.src b 1 l)| + (g.src c 1 l : Int))).toNat) ∧
    (∀ t2 sat (a b c : Src), Ready (.dp4 gd t t2 sat d a b c) s g →
      LaneWrites (.dp4 gd t t2 sat d a b c) gd d 1 s g fun l =>
        let byte (x i : Nat) : Int := match t2 with
          | .s8 => (BitVec.ofNat 8 (x >>> (8 * i))).toInt
          | .n8 => ((x >>> (8 * i)) % 256 : Nat)
        let x := g.src a 1 l
        let y := g.src b 1 l
        narrowed t sat (typed t (g.src c 1 l) + byte x 0 * byte y 0 + byte x 1 * byte y 1 + byte x 2 * byte y 2 + byte x 3 * byte y 3))

/-- 06 R94: `addc` and `subb` take the carry or borrow in from predicate c of the lane and put the carry or borrow out into it; a write of p15
has no effect, and it reads as 1 (R88). Nothing else of the group changes but the position.
06 R97, R98: the bitwise instructions act on all the bits of their type; `lop3` gives at each bit position the bit of the table that the
bits of a, b and c select with weights 1, 2 and 4. -/
def Obligations.CarriesAndBitwiseLogic : Prop :=
  (∀ (s : State) (g : Group) (gd : Guard) (d c : Reg) (a b : Src),
     (Ready (.addc gd d a b c) s g →
       let sum (l : Nat) : Nat := g.src a 1 l + g.src b 1 l + (g.rdP l c.toNat).toNat
       ∃ gv gp, Completes (.addc gd d a b c) s gp ∧
         VecWritten g gv (s.lanes g gd) d.toNat 1 (fun l => sum l % 2 ^ 32) ∧
         PredWritten gv gp (s.lanes g gd) c.toNat fun l => decide (2 ^ 32 ≤ sum l)) ∧
     (Ready (.subb gd d a b c) s g →
       let diff (l : Nat) : Int := (g.src a 1 l : Int) - g.src b 1 l - (g.rdP l c.toNat).toNat
       ∃ gv gp, Completes (.subb gd d a b c) s gp ∧
         VecWritten g gv (s.lanes g gd) d.toNat 1 (fun l => (diff l % 2 ^ 32).toNat) ∧
         PredWritten gv gp (s.lanes g gd) c.toNat fun l => decide (diff l < 0))) ∧
  (∀ (s : State) (g : Group) (gd : Guard) (t : IntTy) (d : Reg),
     (∀ a b : Src, Ready (.and gd t d a b) s g →
       LaneWrites (.and gd t d a b) gd d t.width s g fun l => g.src a t.width l &&& g.src b t.width l) ∧
     (∀ a b : Src, Ready (.or gd t d a b) s g →
       LaneWrites (.or gd t d a b) gd d t.width s g fun l => g.src a t.width l ||| g.src b t.width l) ∧
     (∀ a b : Src, Ready (.xor gd t d a b) s g →
       LaneWrites (.xor gd t d a b) gd d t.width s g fun l => g.src a t.width l ^^^ g.src b t.width l) ∧
     (∀ a b : Reg, Ready (.uand gd t d a b) s g →
       UniWrites (.uand gd t d a b) gd d t.width s g (g.rdSs a.toNat t.width &&& g.rdSs b.toNat t.width)) ∧
     (∀ a b : Reg, Ready (.uor gd t d a b) s g →
       UniWrites (.uor gd t d a b) gd d t.width s g (g.rdSs a.toNat t.width ||| g.rdSs b.toNat t.width)) ∧
     (∀ a b : Reg, Ready (.uxor gd t d a b) s g →
       UniWrites (.uxor gd t d a b) gd d t.width s g (g.rdSs a.toNat t.width ^^^ g.rdSs b.toNat t.width)) ∧
     (∀ tt (a b c : Src), Ready (.lop3 gd tt d a b c) s g →
       ∃ f, LaneWrites (.lop3 gd tt d a b c) gd d 1 s g f ∧ ∀ l i, i < 32 →
         (f l).testBit i = tt.getLsbD ((if (g.src a 1 l).testBit i then 1 else 0) + (if (g.src b 1 l).testBit i then 2 else 0) +
           (if (g.src c 1 l).testBit i then 4 else 0))))

/-- 06 R99: the shifts take their count from one 32-bit register read unsigned at every width; a count at or above the width gives zero, or
for `sar` copies of the sign bit; `rot` rotates left by the count modulo the width. -/
def Obligations.ShiftsAndRotates : Prop :=
  ∀ (s : State) (g : Group) (gd : Guard) (t : IntTy) (d : Reg),
    (∀ a b : Src, Ready (.shl gd t d a b) s g →
      LaneWrites (.shl gd t d a b) gd d t.width s g fun l => (BitVec.ofNat (tyBits t) (g.src a t.width l) <<< g.src b 1 l).toNat) ∧
    (∀ a b : Src, Ready (.shr gd t d a b) s g →
      LaneWrites (.shr gd t d a b) gd d t.width s g fun l => (BitVec.ofNat (tyBits t) (g.src a t.width l) >>> g.src b 1 l).toNat) ∧
    (∀ a b : Src, Ready (.sar gd t d a b) s g →
      LaneWrites (.sar gd t d a b) gd d t.width s g fun l =>
        ((BitVec.ofNat (tyBits t) (g.src a t.width l)).sshiftRight (g.src b 1 l)).toNat) ∧
    (∀ a b : Src, Ready (.rot gd t d a b) s g →
      LaneWrites (.rot gd t d a b) gd d t.width s g fun l =>
        ((BitVec.ofNat (tyBits t) (g.src a t.width l)).rotateLeft (g.src b 1 l)).toNat) ∧
    (∀ a b : Reg, Ready (.ushl gd t d a b) s g →
      UniWrites (.ushl gd t d a b) gd d t.width s g (BitVec.ofNat (tyBits t) (g.rdSs a.toNat t.width) <<< g.rdSs b.toNat 1).toNat) ∧
    (∀ a b : Reg, Ready (.ushr gd t d a b) s g →
      UniWrites (.ushr gd t d a b) gd d t.width s g (BitVec.ofNat (tyBits t) (g.rdSs a.toNat t.width) >>> g.rdSs b.toNat 1).toNat) ∧
    (∀ a b : Reg, Ready (.usar gd t d a b) s g →
      UniWrites (.usar gd t d a b) gd d t.width s g
        ((BitVec.ofNat (tyBits t) (g.rdSs a.toNat t.width)).sshiftRight (g.rdSs b.toNat 1)).toNat)

/-- 06 R100 to R104: fields are clamped to the width, extracted with the sign of the type or inserted with every other bit kept; `sext` extends
from the low bits that b counts; `prmt` builds each byte from the source byte and the fill mode that its selector byte names.
06 R102: `popc` counts the bits that are 1, `clz` the zero bits above the highest 1 (the width for zero), both in one 32-bit register;
`brev` reverses the bits of the type's width. -/
def Obligations.FieldsBytesAndBitCounts : Prop :=
  (∀ (s : State) (g : Group) (gd : Guard) (t : IntTy) (d : Reg),
     (∀ a b c : Src, Ready (.bfe gd t d a b c) s g →
       LaneWrites (.bfe gd t d a b c) gd d t.width s g fun l => extracted t (g.src a t.width l) (g.src b 1 l) (g.src c 1 l)) ∧
     (∀ a b c : Reg, Ready (.ubfe gd t d a b c) s g →
       UniWrites (.ubfe gd t d a b c) gd d t.width s g (extracted t (g.rdSs a.toNat t.width) (g.rdSs b.toNat 1) (g.rdSs c.toNat 1))) ∧
     (∀ a b c : Src, Ready (.bfi gd t d a b c) s g →
       ∃ f, LaneWrites (.bfi gd t d a b c) gd d t.width s g f ∧ ∀ l i, i < tyBits t →
         let p := clampedField (tyBits t) (g.src b 1 l) (g.src c 1 l)
         (f l).testBit i = if p.1 ≤ i ∧ i < p.1 + p.2 then (g.src a t.width l).testBit (i - p.1) else (g.rdVs l d.toNat t.width).testBit i) ∧
     (∀ a b c : Reg, Ready (.ubfi gd t d a b c) s g →
       ∃ x, UniWrites (.ubfi gd t d a b c) gd d t.width s g x ∧ ∀ i, i < tyBits t →
         let p := clampedField (tyBits t) (g.rdSs b.toNat 1) (g.rdSs c.toNat 1)
         x.testBit i = if p.1 ≤ i ∧ i < p.1 + p.2 then (g.rdSs a.toNat t.width).testBit (i - p.1)
           else (g.rdSs d.toNat t.width).testBit i) ∧
     (∀ a b : Src, Ready (.sext gd t d a b) s g →
       LaneWrites (.sext gd t d a b) gd d t.width s g fun l =>
         if tyBits t ≤ g.src b 1 l then g.src a t.width l
         else ((BitVec.ofNat (g.src b 1 l) (g.src a t.width l)).signExtend (tyBits t)).toNat) ∧
     (∀ a b c : Src, Ready (.prmt gd d a b c) s g →
       ∃ f, LaneWrites (.prmt gd d a b c) gd d 1 s g f ∧ ∀ l i, i < 4 →
         let sel := g.src c 1 l >>> (8 * i) % 256
         let e := (g.src a 1 l + 2 ^ 32 * g.src b 1 l) >>> (8 * (sel % 8)) % 256
         f l >>> (8 * i) % 256 = (match sel / 8 % 4 with
           | 0 => e
           | 1 => 0
           | 2 => if e.testBit 7 then 255 else 0
           | _ => 255))) ∧
  (∀ (s : State) (g : Group) (gd : Guard) (t : IntTy) (d : Reg),
     let ones (x : Nat) : Nat := (List.range (tyBits t)).countP fun i => x.testBit i
     let zerosAbove (x n : Nat) : Prop :=
       n ≤ tyBits t ∧ (∀ i, tyBits t ≤ i + n → i < tyBits t → x.testBit i = false) ∧ (n < tyBits t → x.testBit (tyBits t - 1 - n) = true)
     (∀ a, Ready (.popc gd t d a) s g → LaneWrites (.popc gd t d a) gd d 1 s g fun l => ones (g.src a t.width l)) ∧
     (∀ a, Ready (.upopc gd t d a) s g → UniWrites (.upopc gd t d a) gd d 1 s g (ones (g.rdSs a.toNat t.width))) ∧
     (∀ a, Ready (.clz gd t d a) s g →
       ∃ f, LaneWrites (.clz gd t d a) gd d 1 s g f ∧ ∀ l, zerosAbove (g.src a t.width l) (f l)) ∧
     (∀ a, Ready (.uclz gd t d a) s g →
       ∃ x, UniWrites (.uclz gd t d a) gd d 1 s g x ∧ zerosAbove (g.rdSs a.toNat t.width) x) ∧
     (∀ a, Ready (.brev gd t d a) s g →
       LaneWrites (.brev gd t d a) gd d t.width s g fun l => (BitVec.ofNat (tyBits t) (g.src a t.width l)).reverse.toNat))

/-- 06 R105 to R108: comparisons write a predicate by the type's reading, `sel` and `usel` choose by a predicate, `mov`, `li` and their uniform
forms copy bits as they are, and `ulih` puts its immediate into the upper half of a pair. -/
def Obligations.ComparesSelectsMoves : Prop :=
  ∀ (s : State) (g : Group) (gd : Guard) (t : IntTy) (d : Reg),
    (∀ cc (a b : Src), Ready (.cmp gd t cc d a b) s g →
      ∃ f, LanePredWrites (.cmp gd t cc d a b) gd d s g f ∧ ∀ l, f l = true ↔ compares cc (g.laneVal t a l) (g.laneVal t b l)) ∧
    (∀ cc (a b : Reg), Ready (.ucmp gd t cc d a b) s g →
      ∃ g1 x, Completes (.ucmp gd t cc d a b) s g1 ∧ UniPredWritten g g1 (g.guardUni gd) d.toNat x ∧
        (x = true ↔ compares cc (g.uniVal t a) (g.uniVal t b))) ∧
    (∀ (a b : Src) u c, Ready (.sel gd t d a b u c) s g →
      LaneWrites (.sel gd t d a b u c) gd d t.width s g fun l =>
        bif (bif u then g.rdQ c.toNat else g.rdP l c.toNat) then g.src a t.width l else g.src b t.width l) ∧
    (∀ a b c : Reg, Ready (.usel gd t d a b c) s g →
      UniWrites (.usel gd t d a b c) gd d t.width s g (bif g.rdQ c.toNat then g.rdSs a.toNat t.width else g.rdSs b.toNat t.width)) ∧
    (∀ a, Ready (.mov gd t d a) s g → LaneWrites (.mov gd t d a) gd d t.width s g fun l => g.src a t.width l) ∧
    (∀ a, Ready (.umov gd t d a) s g → UniWrites (.umov gd t d a) gd d t.width s g (g.rdSs a.toNat t.width)) ∧
    (∀ imm, Ready (.li gd d imm) s g → LaneWrites (.li gd d imm) gd d 1 s g fun _ => imm.toNat) ∧
    (∀ imm, Ready (.uli gd d imm) s g → UniWrites (.uli gd d imm) gd d 1 s g imm.toNat) ∧
    (∀ imm, Ready (.ulih gd d imm) s g → UniWrites (.ulih gd d imm) gd d 2 s g (imm.toNat <<< 32))

/-! ### Floating-point words (08, 09) -/

/-- 09 R163, R165: `fadd`, `fsub`, `fmul` and `ffma` form their result exactly and round it once; the flags of the active lanes are taken into
FPSTAT; nothing else changes but the destination and the position. -/
def Obligations.FloatArithmetic : Prop :=
  ∀ (s : State) (g : Group) (gd : Guard) (t : FTy) (r : Rnd) (sat : Bool) (d : Reg) (a b c : Src),
    let f := fmtOf t
    let m := s.rounding g r sat
    (Ready (.fadd gd t r sat d a b) s g → ∃ x, FloatWrites (.fadd gd t r sat d a b) gd d t.width s g x ∧
      ∀ l, AddRule f m (g.fsrc a t l) (g.fsrc b t l) (x l)) ∧
    (Ready (.fsub gd t r sat d a b) s g → ∃ x, FloatWrites (.fsub gd t r sat d a b) gd d t.width s g x ∧
      ∀ l, AddRule f m (g.fsrc a t l) (g.fsrc b t l).negate (x l)) ∧
    (Ready (.fmul gd t r sat d a b) s g → ∃ x, FloatWrites (.fmul gd t r sat d a b) gd d t.width s g x ∧
      ∀ l, MulRule f m (g.fsrc a t l) (g.fsrc b t l) (x l)) ∧
    (Ready (.ffma gd t r sat d a b c) s g → ∃ x, FloatWrites (.ffma gd t r sat d a b c) gd d t.width s g x ∧
      ∀ l, FmaRule f m (g.fsrc a t l) (g.fsrc b t l) (g.fsrc c t l) (x l))

/-- 09 R166, R176: `fdiv`, `fsqrt` and `frcp`: the special operands of their table, else the exact quotient or root rounded once. -/
def Obligations.DivisionAndRoot : Prop :=
  ∀ (s : State) (g : Group) (gd : Guard) (t : FTy) (r : Rnd) (sat : Bool) (d : Reg) (a b : Src),
    (Ready (.fdiv gd t r sat d a b) s g → ∃ x, FloatWrites (.fdiv gd t r sat d a b) gd d t.width s g x ∧
      ∀ l, DivRule (fmtOf t) (s.rounding g r sat) (g.fsrc a t l) (g.fsrc b t l) (x l)) ∧
    (Ready (.fsqrt gd t r sat d a) s g → ∃ x, FloatWrites (.fsqrt gd t r sat d a) gd d t.width s g x ∧
      ∀ l, SqrtRule (fmtOf t) (s.rounding g r sat) (g.fsrc a t l) (x l)) ∧
    (Ready (.frcp gd d a) s g → ∃ x, FloatWrites (.frcp gd d a) gd d 1 s g x ∧
      ∀ l, DivRule (fmtOf .f32) (s.rounding g .dyn false) (.fin false 1 0) (g.fsrc a .f32 l) (x l))

/-- 09 R167 to R169: `fmin` and `fmax` write one of their operands unchanged, `fcmp` a predicate and `fclass` a mask with one bit set. -/
def Obligations.FloatChoicesAndClasses : Prop :=
  ∀ (s : State) (g : Group) (gd : Guard) (t : FTy) (d : Reg) (a b : Src),
    let f := fmtOf t
    let snan (l : Nat) : Flags := if (g.fsrc a t l).isSnan || (g.fsrc b t l).isSnan then NV else 0
    let anyNan (l : Nat) : Prop := (g.fsrc a t l).isNan ∨ (g.fsrc b t l).isNan
    let choice (pick : FVal → FVal → Prop) (l : Nat) (e : Nat) : Prop :=
      if (g.fsrc a t l).isNan ∧ (g.fsrc b t l).isNan then e = f.canon
      else if (g.fsrc a t l).isNan then e = g.fbits b t l
      else if (g.fsrc b t l).isNan then e = g.fbits a t l
      else (pick (g.fsrc a t l) (g.fsrc b t l) → e = g.fbits b t l) ∧ (¬ pick (g.fsrc a t l) (g.fsrc b t l) → e = g.fbits a t l)
    (Ready (.fmin gd t d a b) s g → ∃ x, FloatWrites (.fmin gd t d a b) gd d t.width s g x ∧
      ∀ l, (x l).2 = snan l ∧ choice (fun p q => Below q p) l (x l).1) ∧
    (Ready (.fmax gd t d a b) s g → ∃ x, FloatWrites (.fmax gd t d a b) gd d t.width s g x ∧
      ∀ l, (x l).2 = snan l ∧ choice (fun p q => Below p q) l (x l).1) ∧
    (∀ cc, Ready (.fcmp gd t cc d a b) s g →
      ∃ x : Nat → Bool × Flags, ∃ g1,
        Completes (.fcmp gd t cc d a b) s { g1 with fpstat := (s.lanes g gd).foldl (fun acc l => acc ||| (x l).2) g.fpstat } ∧
        PredWritten g g1 (s.lanes g gd) d.toNat (fun l => (x l).1) ∧
        ∀ l,
          let p := g.fsrc a t l
          let q := g.fsrc b t l
          ((x l).1 = true ↔ match cc with
            | .eq => ¬ anyNan l ∧ ¬ LessThan p q ∧ ¬ LessThan q p
            | .ne => anyNan l ∨ LessThan p q ∨ LessThan q p
            | .lt => ¬ anyNan l ∧ LessThan p q
            | .le => ¬ anyNan l ∧ ¬ LessThan q p
            | .gt => ¬ anyNan l ∧ LessThan q p
            | .ge => ¬ anyNan l ∧ ¬ LessThan p q
            | .num => ¬ anyNan l
            | .nan => anyNan l) ∧
          (x l).2 = match cc with
            | .eq | .ne | .num | .nan => snan l
            | _ => if p.isNan || q.isNan then NV else 0) ∧
    (Ready (.fclass gd t d a) s g → ∃ x, FloatWrites (.fclass gd t d a) gd d 1 s g x ∧
      ∀ l, (x l).2 = 0 ∧ (x l).1 = match g.fsrc a t l with
        | .inf n => if n then 2 ^ 0 else 2 ^ 7
        | .nan _ quiet _ _ => if quiet then 2 ^ 9 else 2 ^ 8
        | .fin n k e =>
          if k = 0 then (if n then 2 ^ 3 else 2 ^ 4)
          else if |(FVal.fin n k e).rat| < 2 ^ f.emin then (if n then 2 ^ 2 else 2 ^ 5)
          else if n then 2 ^ 1 else 2 ^ 6)

/-- 09 R170 to R175, 08 R150 to R152: the conversions, `fint`, `fldexp`, `ffrexp`, `fpack` and `funpack`. -/
def Obligations.FloatConversions : Prop :=
  ∀ (s : State) (g : Group) (gd : Guard) (t t2 : FTy) (r : Rnd) (sat : Bool) (d : Reg) (a b : Src),
    let f := fmtOf t
    let m := s.rounding g r sat
    (Ready (.fcvt gd t t2 r sat d a) s g → ∃ x, FloatWrites (.fcvt gd t t2 r sat d a) gd d t.width s g x ∧
      ∀ l, x l = f.roundTo m (g.fsrc a t2 l)) ∧
    (∀ ti, Ready (.i2f gd t ti r sat d a) s g → ∃ x, FloatWrites (.i2f gd t ti r sat d a) gd d t.width s g x ∧
      ∀ l, RoundsOnce f m (g.laneVal ti a l) false (x l)) ∧
    (∀ ti, Ready (.f2i gd ti t2 r d a) s g → ∃ x, FloatWrites (.f2i gd ti t2 r d a) gd d ti.width s g x ∧
      ∀ l, ∃ n : Int, (x l).1 = narrowed ti false n ∧ match g.fsrc a t2 l with
        | .nan .. => n = 0 ∧ (x l).2 = NV
        | .inf neg => n = (if neg then tyLo ti else tyHi ti) ∧ (x l).2 = NV
        | v => ∃ k, RoundedInt (s.rounding g r false).mode v.rat k ∧
          if k < tyLo ti then n = tyLo ti ∧ (x l).2 = NV
          else if tyHi ti < k then n = tyHi ti ∧ (x l).2 = NV
          else n = k ∧ (x l).2 = if (k : ℚ) = v.rat then 0 else NX) ∧
    (Ready (.fint gd t r d a) s g → ∃ x, FloatWrites (.fint gd t r d a) gd d t.width s g x ∧
      ∀ l, match g.fsrc a t l with
        | .nan n q p w => NanRule f [.nan n q p w] (x l)
        | .inf n => x l = (f.signed n f.infEnc, 0)
        | .fin n k e => ∃ i, RoundedInt (s.rounding g r false).mode (FVal.fin n k e).rat i ∧
          x l = ((f.roundTo .nearest (.fin n i.natAbs 0)).1, 0)) ∧
    (Ready (.fldexp gd t r sat d a b) s g → ∃ x, FloatWrites (.fldexp gd t r sat d a b) gd d t.width s g x ∧
      ∀ l, match g.fsrc a t l with
        | .nan n q p w => NanRule f [.nan n q p w] (x l)
        | .inf n => x l = (f.signed n f.infEnc, 0)
        | .fin n k e => x l = f.roundTo m (.fin n k (e + (BitVec.ofNat 32 (g.src b 1 l)).toInt))) ∧
    (∀ er, Ready (.ffrexp gd t d a er) s g →
      ∃ x : Nat → Nat × Nat × Flags, ∃ g1 g2,
        Completes (.ffrexp gd t d a er) s { g2 with fpstat := (s.lanes g gd).foldl (fun acc l => acc ||| (x l).2.2) g.fpstat } ∧
        VecWritten g g1 (s.lanes g gd) d.toNat t.width (fun l => (x l).1) ∧
        VecWritten g1 g2 (s.lanes g gd) er.toNat 1 (fun l => (x l).2.1) ∧
        ∀ l, match g.fsrc a t l with
          | .nan n q p w => NanRule f [.nan n q p w] ((x l).1, (x l).2.2) ∧ (x l).2.1 = 0
          | .inf n => x l = (f.signed n f.infEnc, 0, 0)
          | .fin n k e =>
            if k = 0 then x l = (f.signed n 0, 0, 0)
            else ∃ z : Int, (x l).2 = (narrowed .s32 false z, 0) ∧ (f.decode (x l).1).rat * 2 ^ z = (FVal.fin n k e).rat ∧
              1 / 2 ≤ |(f.decode (x l).1).rat| ∧ |(f.decode (x l).1).rat| < 1) ∧
    (Ready (.fpack gd t r sat d a b) s g → ∃ x, FloatWrites (.fpack gd t r sat d a b) gd d 1 s g x ∧
      ∀ l,
        let lo := f.roundTo m (g.fsrc a .f32 l)
        let hi := f.roundTo m (g.fsrc b .f32 l)
        x l = (lo.1 + hi.1 <<< 16, lo.2 ||| hi.2)) ∧
    (Ready (.funpack gd t2 d a) s g → ∃ x, FloatWrites (.funpack gd t2 d a) gd d 2 s g x ∧
      ∀ l,
        let lo := (fmtOf .f32).roundTo (s.rounding g .dyn false) ((fmtOf t2).decode (g.src a 1 l % 2 ^ 16))
        let hi := (fmtOf .f32).roundTo (s.rounding g .dyn false) ((fmtOf t2).decode (g.src a 1 l >>> 16))
        x l = (lo.1 + hi.1 <<< 32, lo.2 ||| hi.2))

/-- 09 R177 to R179: the special and exact cases of the approximated functions and their flags, and the two destinations of `frred`, its quadrant
written last.
The readings of the model in it are log entry 7. -/
def Obligations.FloatApproximations : Prop :=
  ∀ (s : State) (g : Group) (gd : Guard) (d : Reg) (a : Src),
    let f := fmtOf .f32
    let small (x : FRes) : Prop := (f.decode x.1).isInf = false → x.2 = if |(f.decode x.1).rat| < 2 ^ f.emin then UF ||| NX else NX
    (Ready (.frsq gd d a) s g → ∃ x, FloatWrites (.frsq gd d a) gd d 1 s g x ∧
      ∀ l, match g.fsrc a .f32 l with
        | .nan n q p w => NanRule f [.nan n q p w] (x l)
        | .inf n => x l = if n then (f.canon, NV) else (0, 0)
        | .fin n k e =>
          if k = 0 then x l = (f.signed n f.infEnc, DZ)
          else if n then x l = (f.canon, NV)
          else
            (∀ i : Int, (FVal.fin n k e).rat = 2 ^ (2 * i) → (f.decode (x l).1).rat = 2 ^ (-i) ∧ (x l).2 = 0) ∧
            ((∀ i : Int, (FVal.fin n k e).rat ≠ 2 ^ (2 * i)) → (x l).2 = NX)) ∧
    (Ready (.fex2 gd d a) s g → ∃ x, FloatWrites (.fex2 gd d a) gd d 1 s g x ∧
      ∀ l, match g.fsrc a .f32 l with
        | .nan n q p w => NanRule f [.nan n q p w] (x l)
        | .inf n => x l = if n then (0, 0) else (f.infEnc, 0)
        | v =>
          (v.rat = 0 → x l = (0x3F800000, 0)) ∧
          (128 ≤ v.rat → x l = (if fmtSat (s.frag g).fmt then 0x7F7FFFFF else f.infEnc, OF ||| NX)) ∧
          (v.rat ≤ -150 → x l = (0, UF ||| NX)) ∧
          (∀ i : Int, -149 ≤ i → i ≤ 127 → v.rat = i → (f.decode (x l).1).rat = 2 ^ i ∧ (x l).2 = 0) ∧
          (v.rat < 128 → -150 < v.rat → (∀ i : Int, v.rat ≠ i) → small (x l))) ∧
    (Ready (.flg2 gd d a) s g → ∃ x, FloatWrites (.flg2 gd d a) gd d 1 s g x ∧
      ∀ l, match g.fsrc a .f32 l with
        | .nan n q p w => NanRule f [.nan n q p w] (x l)
        | .inf n => x l = if n then (f.canon, NV) else (f.infEnc, 0)
        | .fin n k e =>
          if k = 0 then x l = (f.signed true f.infEnc, DZ)
          else if n then x l = (f.canon, NV)
          else
            (∀ i : Int, (FVal.fin n k e).rat = 2 ^ i → (f.decode (x l).1).rat = i ∧ (x l).2 = 0) ∧
            ((∀ i : Int, (FVal.fin n k e).rat ≠ 2 ^ i) → small (x l))) ∧
    (Ready (.fsin gd d a) s g → ∃ x, FloatWrites (.fsin gd d a) gd d 1 s g x ∧
      ∀ l, match g.fsrc a .f32 l with
        | .nan n q p w => NanRule f [.nan n q p w] (x l)
        | .inf _ => x l = (f.canon, NV)
        | v =>
          (v.rat = 0 → x l = (f.signed v.neg 0, 0)) ∧
          (v.rat ≠ 0 → |v.rat| < 2 ^ (-12 : Int) → (x l).1 = g.fbits a .f32 l ∧ small (x l)) ∧
          (2 ^ (-12 : Int) ≤ |v.rat| → (x l).2 = NX)) ∧
    (Ready (.fcos gd d a) s g → ∃ x, FloatWrites (.fcos gd d a) gd d 1 s g x ∧
      ∀ l, match g.fsrc a .f32 l with
        | .nan n q p w => NanRule f [.nan n q p w] (x l)
        | .inf _ => x l = (f.canon, NV)
        | v => (v.rat = 0 → x l = (0x3F800000, 0)) ∧ (v.rat ≠ 0 → (x l).2 = NX)) ∧
    (∀ q, Ready (.frred gd d a q) s g →
      ∃ x : Nat → Nat × Nat × Flags, ∃ g1 g2,
        Completes (.frred gd d a q) s { g2 with fpstat := (s.lanes g gd).foldl (fun acc l => acc ||| (x l).2.2) g.fpstat } ∧
        VecWritten g g1 (s.lanes g gd) d.toNat 1 (fun l => (x l).1) ∧
        VecWritten g1 g2 (s.lanes g gd) q.toNat 1 (fun l => (x l).2.1) ∧
        ∀ l, match g.fsrc a .f32 l with
          | .nan n qt p w => NanRule f [.nan n qt p w] ((x l).1, (x l).2.2) ∧ (x l).2.1 = 0
          | .inf _ => x l = (f.canon, 0, NV)
          | v => (x l).2.1 < 4 ∧ (v.rat = 0 → x l = (f.signed v.neg 0, 0, 0)) ∧
            (v.rat ≠ 0 → small ((x l).1, (x l).2.2)))

/-- 09 R180, 08 R153: `fdot2` and `fdot4` are one dot group: products exact, summed exactly with the accumulator, rounded once. -/
def Obligations.LaneDotProducts : Prop :=
  ∀ (s : State) (g : Group) (gd : Guard) (t t2 : FTy) (r : Rnd) (sat : Bool) (d : Reg) (a b c : Src),
    let el (x : Src) (w i l : Nat) : FVal := (fmtOf t2).decode ((g.src x 1 l >>> (w * i)) % 2 ^ w)
    (Ready (.fdot2 gd t t2 r sat d a b c) s g → ∃ x, FloatWrites (.fdot2 gd t t2 r sat d a b c) gd d t.width s g x ∧
      ∀ l, DotRule (fmtOf t) (s.rounding g r sat) (g.fsrc c t l) [el a 16 0 l, el a 16 1 l] [el b 16 0 l, el b 16 1 l] (x l)) ∧
    (Ready (.fdot4 gd t t2 r sat d a b c) s g → ∃ x, FloatWrites (.fdot4 gd t t2 r sat d a b c) gd d t.width s g x ∧
      ∀ l, DotRule (fmtOf t) (s.rounding g r sat) (g.fsrc c t l) [el a 8 0 l, el a 8 1 l, el a 8 2 l, el a 8 3 l]
        [el b 8 0 l, el b 8 1 l, el b 8 2 l, el b 8 3 l] (x l))

/-- 08 R147, R148: `RoundTo` of a nonzero value is right in every format and mode: the significand is the one that the mode selects at the
spacing of the value, subnormals included; a result above the largest finite value overflows; NX marks an inexact result and UF one that is
also below 2^emin after rounding. -/
def Obligations.RoundToIsCorrect : Prop :=
  ∀ (t : FTy) (r : RM) (neg : Bool) (m : Nat) (e : Int) (sticky : Bool) (z : ℚ),
    let f := fmtOf t
    Encloses f m e sticky z →
      let q : Int := Max.max (e + m.log2) f.emin - f.frac
      let out := f.roundReal r neg m e sticky
      ∃ k : Nat, RoundedTo r.mode neg (z / 2 ^ q) k ∧
        if (k : ℚ) * 2 ^ q ≤ f.maxRat then
          (f.decode out.1).rat = (if neg then -1 else 1) * (k * (2 : ℚ) ^ q) ∧ (f.decode out.1).neg = neg ∧ out.1 < 2 ^ f.bits ∧
          out.2 = if (k : ℚ) * 2 ^ q = z then 0 else if (k : ℚ) * 2 ^ q < 2 ^ f.emin then UF ||| NX else NX
        else out = (overflowEnc f r neg, OF ||| NX)

/-! ### Cross-lane words (07 R132 to R137) -/

/-- 07 R133 to R135: `shfl` and `pswap` read from participating lanes alone and else the lane's own a; `vote`, `ballot` and `match` report across
the participating lanes. -/
def Obligations.CrossLaneExchangeAndReports : Prop :=
  ∀ (s : State) (g : Group) (gd : Guard) (t : IntTy) (d : Reg),
    (∀ mode (a b : Src), Ready (.shfl gd t mode d a b) s g →
      LaneWrites (.shfl gd t mode d a b) gd d t.width s g fun l =>
        let x : Int := match mode with
          | .idx => (g.src b 1 l % 32 : Nat)
          | .up => (l : Int) - g.src b 1 l
          | .down => (l : Int) + g.src b 1 l
          | .xor => (l ^^^ (g.src b 1 l % 32) : Nat)
        if 0 ≤ x ∧ x ≤ 31 ∧ x.toNat ∈ s.lanes g gd then g.src a t.width x.toNat else g.src a t.width l) ∧
    (∀ a b : Src, Ready (.pswap gd t d a b) s g →
      LaneWrites (.pswap gd t d a b) gd d t.width s g fun l =>
        let m := l ^^^ 1
        if m ∈ s.lanes g gd then (if l % 2 = 0 then g.src b t.width m else g.src a t.width m) else g.src a t.width l) ∧
    (∀ mode a, Ready (.vote gd mode d a) s g →
      let n := (s.lanes g gd).length
      let k := (s.lanes g gd).countP fun l => g.rdP l a.toNat
      LanePredWrites (.vote gd mode d a) gd d s g fun _ => match mode with
        | .any => decide (1 ≤ k)
        | .all => decide (k = n)
        | .none => decide (k = 0)
        | .odd => decide (k % 2 = 1)
        | .agree => decide (k = 0 ∨ k = n)) ∧
    (∀ a, Ready (.ballot gd d a) s g →
      ∃ x, x < 2 ^ 32 ∧ LaneWrites (.ballot gd d a) gd d 1 s g (fun _ => x) ∧
        ∀ l, l < 32 → (x.testBit l = true ↔ l ∈ s.lanes g gd ∧ g.rdP l a.toNat = true)) ∧
    (∀ a, Ready (.matchl gd t d a) s g →
      ∃ f, LaneWrites (.matchl gd t d a) gd d 1 s g f ∧
        ∀ l m, m < 32 → ((f l).testBit m = true ↔ m ∈ s.lanes g gd ∧ g.src a t.width m = g.src a t.width l))

/-- 07 R136, R137: `lscan` gives each participating lane the reduction of the participating lanes up to it, or below it with `.excl`, and
`lred` the reduction of all. -/
def Obligations.ScansAndReductions : Prop :=
  ∀ (s : State) (g : Group) (gd : Guard) (op : RedOp) (t : RedTy) (d : Reg) (a : Src),
    let term (l : Nat) : Nat := g.src a t.width l
    (∀ excl, Ready (.lscan gd op t excl d a) s g →
      ∃ x, FloatWrites (.lscan gd op t excl d a) gd d t.width s g x ∧ ∀ l,
        ReduceRule op t (s.rounding g .dyn false) (((s.lanes g gd).filter fun m => if excl then m < l else m ≤ l).map term) (x l)) ∧
    (Ready (.lred gd op t d a) s g →
      ∃ x, FloatWrites (.lred gd op t d a) gd d t.width s g x ∧ ∀ l,
        ReduceRule op t (s.rounding g .dyn false) ((s.lanes g gd).map term) (x l))

/-! ### Control words (07 R116 to R131) -/

/-- 07 R118, R125, R126, 03 R50: `bra`, `brq` and `bdiv` divide the issuing fragment by `divert`; a target or a join address outside the virtual
space raises cause 0x11 with that address. -/
def Obligations.Branches : Prop :=
  ∀ (s : State) (g : Group) (gd : Guard) (off : BitVec 32), Running s g →
    let to_ := s.wordsOn g off.toInt
    let k := s.cur.entry
    let act := maskOf (s.lanes g gd)
    let fall := (s.frag g).pos.caddr + 8 * (s.cur.len + 1)
    let join := (s.frag g).reconv
    (Ready (.bra gd off) s g →
      if InSpace to_ then ∃ g1, Steers (.bra gd off) s g1 ∧ Diverts g g1 k act to_.toNat fall join
      else Faults (.bra gd off) s g (.addr 0x11 to_)) ∧
    (∀ whenFalse q, Ready (.brq gd whenFalse q off) s g →
      if InSpace to_ then
        ∃ g1, Steers (.brq gd whenFalse q off) s g1 ∧ Diverts g g1 k (if g.rdQ q.toNat = whenFalse then 0 else act) to_.toNat fall join
      else Faults (.brq gd whenFalse q off) s g (.addr 0x11 to_)) ∧
    (∀ jo : BitVec 16, Ready (.bdiv gd jo off) s g →
      let j := s.wordsOn g jo.toInt
      if InSpace to_ then
        if InSpace j then ∃ g1, Steers (.bdiv gd jo off) s g1 ∧ Diverts g g1 k act to_.toNat fall j.toNat
        else Faults (.bdiv gd jo off) s g (.addr 0x11 j)
      else Faults (.bdiv gd jo off) s g (.addr 0x11 to_))

/-- 07 R127, R128: `regang` sends the passed-over lanes on, waits at its target and collapses the group when every fragment waits there; `loop`
counts down and branches back while the counter is not zero, the scalar counter once and the vector counter in each active lane. -/
def Obligations.RegangAndLoop : Prop :=
  ∀ (s : State) (g : Group) (gd : Guard) (off : BitVec 32), Running s g →
    let to_ := s.wordsOn g off.toInt
    let k := s.cur.entry
    let ls := s.lanes g gd
    let act := maskOf ls
    let fall := (s.frag g).pos.caddr + 8 * (s.cur.len + 1)
    let join := (s.frag g).reconv
    InSpace to_ →
    (Ready (.regang gd off) s g →
      ∃ g1, Steers (.regang gd off) s g1 ∧
        if act = 0 then Diverts g g1 k 0 to_.toNat fall join
        else ∃ h h', (if (s.frag g).mask &&& ~~~act = 0 then h = g else Diverts g h k ((s.frag g).mask &&& ~~~act) fall to_.toNat join) ∧
          EntriesSet h h' (fun j => if j = k then { h.ent k with pos := ⟨to_.toNat, 0⟩, st := .regang } else h.ent j) ∧
          Collapses h' g1 to_.toNat) ∧
    (∀ c, Ready (.loop gd false c off) s g →
      let x := g.rdS c.toNat - 1
      ∃ g0 g1, Steers (.loop gd false c off) s g1 ∧ ScaWritten g g0 (!ls.isEmpty) c.toNat 1 x.toNat ∧
        Diverts g0 g1 k (if ls = [] ∨ x = 0 then 0 else act) to_.toNat fall join) ∧
    (∀ c, Ready (.loop gd true c off) s g →
      ∃ g0 g1, Steers (.loop gd true c off) s g1 ∧ VecWritten g g0 ls c.toNat 1 (fun l => (g.rdV l c.toNat - 1).toNat) ∧
        Diverts g0 g1 k (maskOf (ls.filter fun l => g.rdV l c.toNat ≠ 1)) to_.toNat fall join)

/-- 07 R129: the calls keep the fall-through address in the link pair of each active lane; each lane goes on at its own target; the lowest lane
whose target is not aligned or lies outside the virtual space raises cause 0x13 or 0x11 with that target. -/
def Obligations.CallsAndJumps : Prop :=
  ∀ (s : State) (g : Group) (gd : Guard), Running s g →
    let k := s.cur.entry
    let ls := s.lanes g gd
    let fall := (s.frag g).pos.caddr + 8 * (s.cur.len + 1)
    let bad (t : Nat) : Prop := t % 8 ≠ 0 ∨ 2 ^ 57 ≤ t
    let jump (i : Instr) (a : Src) (link : Option Reg) : Prop :=
      let ts := ls.map fun l => (l, g.src a 2 l)
      (∀ l ∈ ls, bad (g.src a 2 l) → (∀ m ∈ ls, m < l → ¬ bad (g.src a 2 m)) →
        Faults i s g (.at (if g.src a 2 l % 8 ≠ 0 then 0x13 else 0x11) l (g.src a 2 l))) ∧
      ((∀ l ∈ ls, ¬ bad (g.src a 2 l)) →
        ∃ g0 g1, Steers i s g1 ∧ Spreads g0 g1 k fall ts ∧ match link with
          | none => g0 = g
          | some d => VecWritten g g0 ls d.toNat 2 fun _ => fall)
    (∀ a, Ready (.ret gd a) s g → jump (.ret gd a) a none) ∧
    (∀ a, Ready (.jmpi gd a) s g → jump (.jmpi gd a) a none) ∧
    (∀ d a, Ready (.calli gd d a) s g → jump (.calli gd d a) a (some d)) ∧
    (∀ d off, Ready (.call gd d off) s g →
      let to_ := s.wordsOn g off.toInt
      if InSpace to_ then
        ∃ g0 g1, Steers (.call gd d off) s g1 ∧ VecWritten g g0 ls d.toNat 2 (fun _ => fall) ∧
          Diverts g0 g1 k (maskOf ls) to_.toNat fall (s.frag g).reconv
      else Faults (.call gd d off) s g (.addr 0x11 to_))

/-- 07 R119: a join of an entry into its keeper, both ARRIVED, at the keeper's depth: the masks unite, the keeper takes back the join address and
the FMT of before the split, the entry is freed, and a keeper with lanes goes on at the join address or has arrived again. -/
def Obligations.JoinsFuse : Prop :=
  ∀ (g : Group) (k t : Nat), k ≠ t → (g.ent k).st = .arrived → (g.ent t).st = .arrived → (g.ent t).join = true → (g.ent t).keeper = k →
    (g.ent t).level = (g.ent k).depth → (g.ent t).depth = 0 → t < 32 →
      g.joinable ≠ none ∧
      ∃ g1, g.joinOne k t = g1 ∧ EntriesSet g g1 fun j =>
        if j = t then .freed
        else if j = k then
          let e : Entry := { g.ent k with
            mask := (g.ent k).mask ||| (g.ent t).mask, reconv := (g.ent t).outer, fmt := (g.ent t).saved, depth := (g.ent k).depth - 1 }
          if e.mask = 0 then e
          else { e with pos := ⟨(g.ent t).reconv, 0⟩, st := if (g.ent t).outer = (g.ent t).reconv then .arrived else .running }
        else g.ent j

/-- 07 R120, R130, R131: `nop` and `yield` advance and nothing else; `exit` takes its active lanes out of its entry, whose other lanes go on at
the fall-through address; the last lane of the group leaves its read sections, and the group only drains.
The readings of the model in it are log entries 38, 40. -/
def Obligations.NopYieldExit : Prop :=
  ∀ (s : State) (g : Group) (gd : Guard),
    (Ready (.nop gd) s g → Completes (.nop gd) s g) ∧
    (Ready (.yield gd) s g → Completes (.yield gd) s g) ∧
    (Ready (.exit gd) s g → Running s g →
      let act := maskOf (s.lanes g gd)
      let rest := (s.frag g).mask &&& ~~~act
      let fall := (s.frag g).pos.caddr + 8 * (s.cur.len + 1)
      (rest ≠ 0 → g.joinable = none →
        ∃ g1, Steers (.exit gd) s g1 ∧ EntriesSet g g1 fun j =>
          if j = s.cur.entry then { s.frag g with mask := rest, pos := ⟨fall, 0⟩ } else g.ent j) ∧
      (rest = 0 → (∀ j, j ≠ s.cur.entry → (g.ent j).mask = 0) → g.inflight = [] →
        ∃ t h, exec (.exit gd) s = .next t ∧ t.group? s.cur.core s.cur.slot = some h ∧ h.over = true ∧ h.rdepth = 0 ∧ h.act.st = .ending ∧
          h.regs = g.regs ∧ h.fpstat = g.fpstat ∧ ∀ a, t.mem.byte a = s.mem.byte a))

/-! ### Identifiers, formats and the group's own words (02, 06) -/

/-- 02 R32, 06 R109: `usrd` writes a lane selector in every lane of the fragment, a uniform one in a scalar register or pair; a shadow takes
TIME and FLAGS as its leader has read them (14 R270).
06 R110 to R112: `uswr` clears the flags of FPSTAT whose bits are 1; `ufmt` writes the issuing fragment's copy of FMT alone, and a value
that FMT cannot take raises cause 0x02; `ulease` sets the lease and its mode, at least one line in measured mode, and nothing in a shadow.
The readings of the model in it are log entry 15. -/
def Obligations.UniformSystemWords : Prop :=
  (∀ (s : State) (g : Group) (gd : Guard) (d : Reg) (sel : BitVec 32), Ready (.usrd gd d sel) s g →
     (sel.toNat < 3 → ∃ g1, Completes (.usrd gd d sel) s g1 ∧
       VecWritten g g1 (if g.guardUni gd then s.lanesHere g else []) d.toNat 1 (laneIdent g sel)) ∧
     (3 ≤ sel.toNat → g.leader = none ∨ (sel ≠ 0x0A ∧ sel ≠ 0x10) →
       ∃ x h g1, Identifies s g sel x ∧ Completes (.usrd gd d sel) s g1 ∧ ScaWritten h g1 (g.guardUni gd) d.toNat (identWidth sel) x ∧
         (g.shadow = none ∨ (sel ≠ 0x0A ∧ sel ≠ 0x10) ∨ g.guardUni gd = false → h = g) ∧
         (g.shadow ≠ none → sel = 0x0A ∨ sel = 0x10 → g.leader = none → g.guardUni gd = true →
           h = { g with readQueue := g.readQueue ++ [x] })) ∧
     (∀ l h x rest, sel = 0x0A ∨ sel = 0x10 → g.guardUni gd = true → g.leader = some l → s.group? s.cur.core l = some h → l ≠ s.cur.slot →
       h.readQueue = x :: rest →
       ∃ g1, ScaWritten g g1 true d.toNat (identWidth sel) x ∧
         exec (.usrd gd d sel) s = .next ((s.setGroup s.cur.core l { h with readQueue := rest }).setCurGroup (g1.advanced s.cur)))) ∧
  (∀ (s : State) (g : Group) (gd : Guard),
     (∀ a sel, Ready (.uswr gd a sel) s g →
       Completes (.uswr gd a sel) s
         (if g.guardUni gd then { g with fpstat := g.fpstat &&& ~~~((g.rdS a.toNat).setWidth 5) } else g)) ∧
     (∀ a, Ready (.ufmt gd a) s g →
       let x := BitVec.ofNat 64 (g.rdSs a.toNat 2)
       (g.guardUni gd = false → Completes (.ufmt gd a) s g) ∧
       (g.guardUni gd = true → FmtValid x → (s.frag g).st ≠ .free →
         ∃ g1, Completes (.ufmt gd a) s g1 ∧ EntriesSet g g1 fun j => if j = s.cur.entry then { s.frag g with fmt := x } else g.ent j) ∧
       (g.guardUni gd = true → ¬ FmtValid x → Faults (.ufmt gd a) s g (.word 0x02))) ∧
     (∀ imm, Ready (.ulease gd imm) s g →
       let n := (imm.setWidth 14).toNat
       Completes (.ulease gd imm) s
         (if g.guardUni gd ∧ g.leader = none then { g with lease := if imm.getLsbD 31 ∧ n = 0 then 1 else n, measured := imm.getLsbD 31 }
          else g)))

/-- 07 R138 steps 1 and 2: `regroup` in a split table with a second entry raises cause 0x01; without a partner, and with nothing in flight, the
participating lanes take status 2 and the region ends; else entry 0 waits in REGROUP for the group that s[a] names.
07 R138 steps 3 to 5, R139: at the rendezvous of two groups of one team both get status 3 where a read section or a slate reservation is open,
else 0 beyond 32 lanes, else 4 where the survivor's quarter cannot hold the fused group, and go on unchanged; else they fuse: the group of the
lower GRPID survives and the other is gone.
The readings of the model in it are log entries 20, 21. -/
def Obligations.Regroup : Prop :=
  (∀ (s : State) (g : Group) (gd : Guard) (d a : Reg), Ready (.regroup gd d a) s g →
     let ls := s.lanes g gd
     let p := (g.rdS a.toNat).toNat
     let partner : Prop := ∃ q ∈ s.groups, q.1 / 64 = s.cur.core ∧ q.2.leader = none ∧ TeamMates q.2 g ∧ q.2.ids.grpid = p ∧ q.2.allMask ≠ 0
     (g.single = false → Faults (.regroup gd d a) s g (.word 0x01)) ∧
     (g.single = true → ls = [] → Completes (.regroup gd d a) s g) ∧
     (g.single = true → ls ≠ [] → (p = g.ids.grpid ∨ ¬ partner) → g.inflight = [] →
       ∃ g1, VecWritten g g1 ls d.toNat 1 (fun _ => 2) ∧
         exec (.regroup gd d a) s = .next ((s.boundary g.ids.uid 5).setCurGroup (g1.advanced s.cur))) ∧
     (g.single = true → ls ≠ [] → p ≠ g.ids.grpid → partner → s.cur.entry = 0 → (s.frag g).st = .running →
       ∃ g1, EntriesSet g g1 (fun j => if j = 0 then { g.ent 0 with st := .regroup } else g.ent j) ∧
         Steers (.regroup gd d a) s
           { g1 with meet := some (p, maskOf ls, d.toNat, (s.frag g).pos.caddr + 8 * (s.cur.len + 1)), blockPos := (s.frag g).pos })) ∧
  (∀ (s : State) (core ka kb : Nat) (a b : Group) (ma mb : BitVec 32 × Nat × Nat),
     ka < 64 → kb < 64 → ka ≠ kb → Meeting s core ka a b.ids.grpid ma → Meeting s core kb b a.ids.grpid mb → TeamMates a b →
     a.ids.grpid < b.ids.grpid → b.ids.uid ≠ a.ids.uid →
     let n := (maskLanes ma.1).length + (maskLanes mb.1).length
     let held (g : Group) : Prop := 0 < g.rdepth ∨ ∃ r, g.resv = some r ∧ 0 < r.nsl
     let holds : Prop := QuarterHolds s core ka [ka, kb] n a.regs.nvr
     let cut := (s.boundary a.ids.uid 5).boundary b.ids.uid 5
     let stays (x : Nat) : Prop := ma.2.1 < 256 → mb.2.1 < 256 → ∃ a1 b1, GoesOn a a1 ma x ∧ GoesOn b b1 mb x ∧
       exec (.regroupRendezvous core ka kb) s = .next ((cut.setGroup core ka a1).setGroup core kb b1)
     (held a ∨ held b → stays 3) ∧
     (¬ (held a ∨ held b) → 32 < n → stays 0) ∧
     (¬ (held a ∨ held b) → n ≤ 32 → ¬ holds → stays 4) ∧
     (¬ (held a ∨ held b) → n ≤ 32 → holds → ma.2.1 < 256 → b.binds = [] →
       ∃ t h, exec (.regroupRendezvous core ka kb) s = .next t ∧ t.group? core ka = some h ∧ FusedFrom a b h ma mb ∧
         t.group? core kb = none ∧ ∀ x, t.mem.byte x = s.mem.byte x))

/-! ### Memory words (12) -/

/-- 12 R210 checks 1 and 2, 01 R10: the lowest active lane whose address lies outside its space, or is not a multiple of the access size, raises
cause 0x11 or 0x13 with that address, and the word has no other effect, where every lower active lane passes its checks of R210.
The readings of the model in it are log entries 22, 23, 27. -/
def Obligations.AddressChecks : Prop :=
  ∀ (s : State) (g : Group) (gd : Guard),
    let clear : Prop := s.fabric.en = false ∧ s.ctl.fenced = 0 ∧ ∀ c ∈ s.clusters, c.2.locks = []
    let inMemory (ap : Aperture) (rd wr : Bool) (a : Int) : Prop := clear ∧ ∃ pa, Maps s g ap rd wr a pa
    let inPad (size : Nat) (a : Int) : Prop := clear ∧ Resident s g size a
    let checked (i : Instr) (limit size : Nat) (addr : Nat → Int) (passes : Int → Prop) : Prop :=
      ∀ l c, Ready i s g → l ∈ s.lanes g gd → addrCause limit size (addr l) = some c →
        (∀ m ∈ s.lanes g gd, m < l → addrCause limit size (addr m) = none ∧ passes (addr m)) →
        Faults i s g ⟨c, l, 0, (BitVec.ofInt 64 (addr l)).toNat, 0⟩
    let checkedU (i : Instr) (size : Nat) (addr : Int) : Prop :=
      ∀ c, Ready i s g → g.guardUni gd = true → addrCause (2 ^ 57) size addr = some c →
        Faults i s g ⟨c, 255, 0, (BitVec.ofInt 64 addr).toNat, 0⟩
    (∀ sz ap pol d m, checked (.ld gd sz ap pol d m) (2 ^ 57) sz.bytes (g.laneAddr m 2 sz.bytes) (inMemory ap true false)) ∧
    (∀ sz ap pol d m, checked (.st gd sz ap pol d m) (2 ^ 57) sz.bytes (g.laneAddr m 2 sz.bytes) (inMemory ap false true)) ∧
    (∀ sz ap pol d m, checkedU (.ldu gd sz ap pol d m) sz.bytes (g.uniAddr m sz.bytes)) ∧
    (∀ sz ap pol d m, checkedU (.stu gd sz ap pol d m) sz.bytes (g.uniAddr m sz.bytes)) ∧
    (∀ sz d m, checked (.lds gd sz d m) (2 ^ 22) sz.bytes (g.laneAddr m 1 sz.bytes) (inPad sz.bytes)) ∧
    (∀ sz d m, checked (.sts gd sz d m) (2 ^ 22) sz.bytes (g.laneAddr m 1 sz.bytes) (inPad sz.bytes)) ∧
    (∀ x ap d a b c, checked (.atom gd x ap d a b c) (2 ^ 57) (redW x.ty / 8) (fun l => g.src a 2 l) (inMemory ap true true)) ∧
    (∀ x ap d a b c, checkedU (.atomu gd x ap d a b c) (redW x.ty / 8) (g.rdSs a.toNat 2)) ∧
    (∀ x d a b c, checked (.atoms gd x d a b c) (2 ^ 22) (redW x.ty / 8) (fun l => g.src a 1 l) (inPad (redW x.ty / 8))) ∧
    (∀ m, checked (.cln gd m) (2 ^ 57) 1 (g.laneAddr m 2 1) (inMemory .cached true false)) ∧
    (∀ m, checked (.inv gd m) (2 ^ 57) 1 (g.laneAddr m 2 1) (inMemory .cached false true)) ∧
    (∀ m, checked (.clninv gd m) (2 ^ 57) 1 (g.laneAddr m 2 1) (inMemory .cached false true))

/-- 12 R210, R219, 02 R24 to R26: `ld` and `ldu` raise the counter gl and hold their flag; at completion each destination takes the bytes at its
address, extended by their size. No byte reads otherwise through the aperture, and the other view changes by no more than the write-back of lines that the
L2 replaces (18 R330).
The readings of the model in it are log entries 11, 23, 27. -/
def Obligations.Loads : Prop :=
  ∀ (s : State) (g : Group) (gd : Guard) (sz : MemSize) (ap : Aperture) (pol : Policy) (d : Reg) (m : MAddr), Undisturbed s g →
    (Ready (.ld gd sz ap pol d m) s g → s.lanes g gd = [] → Completes (.ld gd sz ap pol d m) s g) ∧
    (Ready (.ldu gd sz ap pol d m) s g → g.guardUni gd = false → Completes (.ldu gd sz ap pol d m) s g) ∧
    (∀ pa : Nat → Nat, Ready (.ld gd sz ap pol d m) s g → s.lanes g gd ≠ [] →
      (∀ l ∈ s.lanes g gd, g.laneAddr m 2 sz.bytes l % sz.bytes = 0 ∧ Maps s g ap true false (g.laneAddr m 2 sz.bytes l) (pa l)) →
      ∃ t h, Issued (.ld gd sz ap pol d m) s g .gl t h ∧ (∀ x, Own s ap x → t.view ap x = s.view ap x) ∧ OtherView s t (fun _ => False) ap ∧
        Completed t s.cur.core s.cur.slot h .gl (some (s.lanes g gd)) d.toNat sz.width fun l =>
          extended sz (valueIn (s.view ap) (viewAddr ap (pa l)) sz.bytes)) ∧
    (∀ pa : Nat, Ready (.ldu gd sz ap pol d m) s g → g.guardUni gd = true →
      g.uniAddr m sz.bytes % sz.bytes = 0 → Maps s g ap true false (g.uniAddr m sz.bytes) pa →
      ∃ t h, Issued (.ldu gd sz ap pol d m) s g .gl t h ∧ (∀ x, Own s ap x → t.view ap x = s.view ap x) ∧ OtherView s t (fun _ => False) ap ∧
        Completed t s.cur.core s.cur.slot h .gl none d.toNat sz.width fun _ =>
          extended sz (valueIn (s.view ap) (viewAddr ap pa) sz.bytes))

/-- 12 R212, R220: `st` and `stu` raise the counter gs and put the low bytes of their data at the address of each active lane, the highest lane
last; every other byte reads as before through the aperture, and the other view changes by no more than the write-back of lines that the L2
replaces; the completion writes no register.
The readings of the model in it are log entries 11, 23, 27. -/
def Obligations.Stores : Prop :=
  ∀ (s : State) (g : Group) (gd : Guard) (sz : MemSize) (ap : Aperture) (pol : Policy) (d : Reg) (m : MAddr), Undisturbed s g →
    (Ready (.st gd sz ap pol d m) s g → s.lanes g gd = [] → Completes (.st gd sz ap pol d m) s g) ∧
    (Ready (.stu gd sz ap pol d m) s g → g.guardUni gd = false → Completes (.stu gd sz ap pol d m) s g) ∧
    (∀ pa : Nat → Nat, Ready (.st gd sz ap pol d m) s g → s.lanes g gd ≠ [] →
      (∀ l ∈ s.lanes g gd, g.laneAddr m 2 sz.bytes l % sz.bytes = 0 ∧ Maps s g ap false true (g.laneAddr m 2 sz.bytes l) (pa l)) →
      ∃ t h, Issued (.st gd sz ap pol d m) s g .gs t h ∧ OtherView s t (laneBytes (s.lanes g gd) pa sz.bytes) ap ∧
        (∀ x, Own s ap x → t.view ap x =
          (s.lanes g gd).foldl (fun b l => putIn b (viewAddr ap (pa l)) sz.bytes (g.rdVs l d.toNat sz.width)) (s.view ap) x) ∧
        Completed t s.cur.core s.cur.slot h .gs (some []) 0 0 fun _ => 0) ∧
    (∀ pa : Nat, Ready (.stu gd sz ap pol d m) s g → g.guardUni gd = true →
      g.uniAddr m sz.bytes % sz.bytes = 0 → Maps s g ap false true (g.uniAddr m sz.bytes) pa →
      ∃ t h, Issued (.stu gd sz ap pol d m) s g .gs t h ∧ OtherView s t (fun x => pa ≤ x ∧ x < pa + sz.bytes) ap ∧
        (∀ x, Own s ap x → t.view ap x = putIn (s.view ap) (viewAddr ap pa) sz.bytes (g.rdSs d.toNat sz.width) x) ∧
        Completed t s.cur.core s.cur.slot h .gs (some []) 0 0 fun _ => 0)

/-- 12 R212, R222, R223: `atom` and `atomu` apply their operation at the address of each active lane in ascending order, each to the result of the
one before, and without `.post` give each lane the old value at completion; with it they are counted on gs.
The readings of the model in it are log entries 11, 23, 27. -/
def Obligations.Atomics : Prop :=
  ∀ (s : State) (g : Group) (gd : Guard) (x : AtomMod) (ap : Aperture), Undisturbed s g →
    let path : Path := if x.post then .gs else .gl
    (∀ (d : Reg) (a b c : Src) (pa : Nat → Nat), Ready (.atom gd x ap d a b c) s g → s.lanes g gd ≠ [] →
      (∀ l ∈ s.lanes g gd, g.src a 2 l % (redW x.ty / 8) = 0 ∧ Maps s g ap true true (g.src a 2 l) (pa l)) →
      ∃ t h olds m1, Issued (.atom gd x ap d a b c) s g path t h ∧
        OtherView s t (laneBytes (s.lanes g gd) pa (redW x.ty / 8)) ap ∧ (∀ y, Own s ap y → t.view ap y = m1 y) ∧
        AtomSteps x.op x.ty ((s.lanes g gd).map fun l => (viewAddr ap (pa l), g.src b x.ty.width l, g.src c x.ty.width l)) (s.view ap) olds m1 ∧
        ∃ f, (s.lanes g gd).map f = olds ∧
          Completed t s.cur.core s.cur.slot h path (some (if x.post then [] else s.lanes g gd)) d.toNat x.ty.width f) ∧
    (∀ (d a b c : Reg) (pa : Nat), Ready (.atomu gd x ap d a b c) s g → g.guardUni gd = true →
      g.rdSs a.toNat 2 % (redW x.ty / 8) = 0 → Maps s g ap true true (g.rdSs a.toNat 2) pa →
      ∃ t h old m1, Issued (.atomu gd x ap d a b c) s g path t h ∧
        OtherView s t (fun y => pa ≤ y ∧ y < pa + redW x.ty / 8) ap ∧ (∀ y, Own s ap y → t.view ap y = m1 y) ∧
        AtomSteps x.op x.ty [(viewAddr ap pa, g.rdSs b.toNat x.ty.width, g.rdSs c.toNat x.ty.width)] (s.view ap) [old] m1 ∧
        if x.post then Completed t s.cur.core s.cur.slot h path (some []) 0 0 fun _ => 0
        else Completed t s.cur.core s.cur.slot h path none d.toNat x.ty.width fun _ => old)

/-- 12 R213, R219, R220, R222: `lds`, `sts` and `atoms` act on the setts of the group's team as `ld`, `st` and `atom` on memory; no byte of memory
changes.
12 R221, R224: `cln` writes the dirty sectors of each named 256-byte block to memory and keeps the copies, `inv` drops every copy, so that
the block reads as memory holds it, `clninv` writes and then drops; `prf` changes no byte that is read, no
counter and no tracking.
The readings of the model in it are log entries 24, 28, 46. -/
def Obligations.ScratchpadMaintenanceAndPrefetch : Prop :=
  (∀ (s : State) (g : Group) (gd : Guard), Undisturbed s g → s.lanes g gd ≠ [] →
     let ls := s.lanes g gd
     let pad (t : State) : Nat → Byte := t.scratchAt s.cur.core g.ids.teamSlot
     (∀ sz d m, Ready (.lds gd sz d m) s g → (∀ l ∈ ls, Resident s g sz.bytes (g.laneAddr m 1 sz.bytes l)) →
       ∃ t h, Issued (.lds gd sz d m) s g .sp t h ∧ (∀ a, pad t a = pad s a) ∧ t.memsys = s.memsys ∧
         Completed t s.cur.core s.cur.slot h .sp (some ls) d.toNat sz.width fun l =>
           extended sz (valueIn (pad s) (g.laneAddr m 1 sz.bytes l).toNat sz.bytes)) ∧
     (∀ sz d m, Ready (.sts gd sz d m) s g → (∀ l ∈ ls, Resident s g sz.bytes (g.laneAddr m 1 sz.bytes l)) →
       ∃ t h, Issued (.sts gd sz d m) s g .sp t h ∧ t.memsys = s.memsys ∧
         (∀ a, pad t a =
           ls.foldl (fun b l => putIn b (g.laneAddr m 1 sz.bytes l).toNat sz.bytes (g.rdVs l d.toNat sz.width)) (pad s) a) ∧
         (∀ l ∈ ls, (t.sett s.cur.core g.ids.teamSlot ((g.laneAddr m 1 sz.bytes l).toNat / 2048)).st = .dirty) ∧
         Completed t s.cur.core s.cur.slot h .sp (some []) 0 0 fun _ => 0) ∧
     (∀ x d a b c, Ready (.atoms gd x d a b c) s g → (∀ l ∈ ls, Resident s g (redW x.ty / 8) (g.src a 1 l)) →
       ∃ t h olds m1, Issued (.atoms gd x d a b c) s g .sp t h ∧ t.memsys = s.memsys ∧ (∀ y, pad t y = m1 y) ∧
         AtomSteps x.op x.ty (ls.map fun l => (g.src a 1 l, g.src b x.ty.width l, g.src c x.ty.width l)) (pad s) olds m1 ∧
         ∃ f, ls.map f = olds ∧ Completed t s.cur.core s.cur.slot h .sp (some (if x.post then [] else ls)) d.toNat x.ty.width f)) ∧
  (∀ (s : State) (g : Group) (gd : Guard) (m : MAddr) (pa : Nat → Nat), Undisturbed s g → s.lanes g gd ≠ [] →
     let ls := s.lanes g gd
     let inBlock (x : Nat) : Prop := ∃ l ∈ ls, x / 256 = pa l / 256
     let dirty (x : Nat) : Prop := ∃ y, s.l2? (x / 32) = some y ∧ y.dirty = true
     let maps (rd wr : Bool) : Prop := ∀ l ∈ ls, Maps s g .cached rd wr (g.laneAddr m 2 1 l) (pa l)
     let ends (t : State) (h : Group) : Prop := Completed t s.cur.core s.cur.slot h .gs (some []) 0 0 fun _ => 0
     let written (t : State) : Prop :=
       (∀ x, inBlock x → dirty x → t.mem.byte (lpaOf x) = s.byteAt x) ∧
       ∀ y, (∀ x, inBlock x → dirty x → lpaOf x ≠ y) → t.mem.byte y = s.mem.byte y
     (Ready (.cln gd m) s g → maps true false → ∃ t h, Issued (.cln gd m) s g .gs t h ∧ ends t h ∧ written t ∧
       CachedSame s t ∧ ∀ x y, inBlock x → t.l2? (x / 32) = some y → y.dirty = false) ∧
     (Ready (.inv gd m) s g → maps false true → ∃ t h, Issued (.inv gd m) s g .gs t h ∧ ends t h ∧ (∀ y, t.mem.byte y = s.mem.byte y) ∧
       (∀ x, inBlock x → t.l2? (x / 32) = none) ∧ ∀ x, ¬ inBlock x → t.byteAt x = s.byteAt x) ∧
     (Ready (.clninv gd m) s g → maps false true → ∃ t h, Issued (.clninv gd m) s g .gs t h ∧ ends t h ∧ written t ∧
       (∀ x, inBlock x → t.l2? (x / 32) = none) ∧ ∀ x, ¬ inBlock x → t.l2? (x / 32) = s.l2? (x / 32)) ∧
     (∀ pol, Ready (.prf gd pol m) s g → ∃ t h, exec (.prf gd pol m) s = .next t ∧ t.group? s.cur.core s.cur.slot = some h ∧
       h = { g.advanced s.cur with lease := h.lease } ∧ (g.measured = false → h.lease = g.lease) ∧ t.track = s.track ∧
       CachedSame s t ∧ WrittenBack s t fun _ => False))

/-! ### Completion, waiting and boundaries (12, 13, 16, 22) -/

/-- 02 R25, R26: of a path's operations the oldest completes once its accesses are performed: its registers are written, and its
counter falls by one; one whose fault has been found leaves it too and stops the group at its instruction.
12 R225 to R227, 13 R230: `fence` waits for every earlier access and ends the region at its scope; `commit` closes the open batch of its path;
`wait` closes it too and blocks the group until the counter is at most s[a]; a false guard makes each a no-op. A closed batch whose
commands are all complete leaves its counter in order.
The readings of the model in it are log entries 26, 29, 40. -/
def Obligations.OperationsFencesAndWaits : Prop :=
  (∀ (s : State) (core slot : Nat) (path : Path) (g : Group) (pre post : List PendOp) (o : PendOp),
     s.group? core slot = some g → g.inflight = pre ++ o :: post → (∀ x ∈ pre, x.path ≠ path) → o.path = path → g.shadow = none →
     (∀ x ∈ g.inflight, x.todo = [] ∨ x.fault ≠ none) → o.awaits = none → o.fromLeader = false →
     let gone := { g with inflight := pre ++ post }
     (o.fault = none → (∀ x ∈ g.inflight, x.path = path → x.fault = none) →
       exec (.memoryOpCompletion core slot path) s = .next (s.setGroup core slot (o.writes.foldl Group.applyWrite gone)) ∧
       (o.writes.foldl Group.applyWrite gone).ctr path + 1 = g.ctr path) ∧
     (∀ f, o.fault = some f → g.ownRecord = false →
       ∃ h r, exec (.memoryOpCompletion core slot path) s = .next (s.setGroup core slot h) ∧ h.inflight = pre ++ post ∧ h.regs = g.regs ∧
         h.ents = g.ents ∧ h.dbg.run = .faulted ∧ h.stops.unwritten = g.stops.unwritten ++ [r] ∧ r.info = f ∧ r.faultPos = o.pos ∧
         r.restart = g.region ∧ r.resumable = false)) ∧
  (∀ (s : State) (g : Group) (gd : Guard),
     (∀ sc o, Ready (.fence gd sc o) s g →
       (g.guardUni gd = false → Completes (.fence gd sc o) s g) ∧
       (g.guardUni gd = true → g.inflight ≠ [] → Holds (.fence gd sc o) s g) ∧
       (g.guardUni gd = true → g.inflight = [] →
         exec (.fence gd sc o) s = .next ((s.boundary g.ids.uid (scopeLevel sc)).setCurGroup (g.advanced s.cur)))) ∧
     (∀ p, Ready (.commit gd p) s g →
       Completes (.commit gd p) s (if g.guardUni gd then
         { g with batches := g.batches.map fun b : Batch => if b.path = p then { b with closed := true } else b } else g)) ∧
     (∀ p a, Ready (.wait gd p a) s g →
       let g1 := { g with batches := g.batches.map fun b : Batch => if b.path = p then { b with closed := true } else b }
       let thr := (g.rdS a.toNat).toNat
       (g.guardUni gd = false → Completes (.wait gd p a) s g) ∧
       (g.guardUni gd = true → g.ctr p ≤ thr →
         ∃ t, exec (.wait gd p a) s = .next t ∧ t.group? s.cur.core s.cur.slot = some (g1.advanced s.cur) ∧ OthersSame s t ∧
           ⟨g.ids.uid, 5, s.track.now⟩ ∈ t.track.bounds) ∧
       (g.guardUni gd = true → thr < g.ctr p → Completes (.wait gd p a) s { g1 with block := .wait p thr })) ∧
     (∀ core slot p (h : Group) (pre post : List Batch) (b : Batch), s.group? core slot = some h → h.batches = pre ++ b :: post → (∀ x ∈ pre, x.path ≠ p) → b.path = p →
       (b.closed = true → (∀ x ∈ s.cmds, x.id ∈ b.cmds → x.done = true) →
         exec (.batchComplete core slot p) s =
           .next { s.setGroup core slot { h with batches := pre ++ post } with cmds := s.cmds.filter fun x => !b.cmds.contains x.id }) ∧
       (b.closed = false ∨ (∃ x ∈ s.cmds, x.id ∈ b.cmds ∧ x.done = false) → exec (.batchComplete core slot p) s = .next s)))

/-- 16 R301 to R303: `bar` in a divided group raises cause 0x01; it waits for every earlier access, arrives and blocks; the last member's arrival
completes the instance, and a blocked group is released once its instance has completed.
The readings of the model in it are log entry 40. -/
def Obligations.Barriers : Prop :=
  ∀ (s : State) (g : Group) (gd : Guard) (lv : BarLevel),
    (Ready (.bar gd lv) s g →
      (g.guardUni gd = false → Completes (.bar gd lv) s g) ∧
      (g.guardUni gd = true → g.single = false → Faults (.bar gd lv) s g (.word 0x01)) ∧
      (g.guardUni gd = true → g.single = true → g.inflight ≠ [] → Holds (.bar gd lv) s g) ∧
      (g.guardUni gd = true → g.single = true → g.inflight = [] → ∀ gen, s.barGen s.cur.core g.ids lv = gen →
        ∃ t, exec (.bar gd lv) s = .next t ∧ OthersSame s t ∧
          t.group? s.cur.core s.cur.slot = some ({ g with block := .bar lv gen : Group }.advanced s.cur) ∧
          match lv with
          | .team => ∀ x, s.team? s.cur.core g.ids.teamSlot = some x → g.ids.grpid < 16 →
            let arr := x.arr ||| BitVec.ofNat 16 (2 ^ g.ids.grpid)
            t.team? s.cur.core g.ids.teamSlot =
              some (if arr = x.memb then { x with arr := 0, gen := (x.gen + 1) % 2 ^ 16 } else { x with arr := arr })
          | .clu => ∀ k c, s.clusterOf g.ids = some (k, c) →
            Tbl.find? t.clusters k = some
              (if ∀ m ∈ s.clusterMembers g.ids, m = (g.ids.teamid, g.ids.grpid) ∨ m ∈ c.arr then
                { c with arr := [], gen := (c.gen + 1) % 2 ^ 16 } else { c with arr := c.arr ++ [(g.ids.teamid, g.ids.grpid)] })
          | .grid => ∀ d, s.gridOf g.ids = some d →
            t.gridOf g.ids = some (if d.live ≤ d.arr + 1 then { d with arr := 0, gen := (d.gen + 1) % 2 ^ 16 } else { d with arr := d.arr + 1 }))) ∧
    (∀ core slot h gen, s.group? core slot = some h → h.block = .bar lv gen → h.runs = true →
      exec (.barrierRelease core slot) s =
        .next (if s.barGen core h.ids lv = gen then s else s.setGroup core slot { h with block := .none }))

/-- 22 R386, R387: `rdenter` and `rdexit` raise cause 0x01 in a divided group, at depth 15 and at depth 0; they change the depth by one, count the
group for its tag when the depth leaves 0 and uncount it when it returns there, are boundaries of scope .dom, and take a region entry at the
position that follows.
The readings of the model in it are log entry 26. -/
def Obligations.ReadSections : Prop :=
  ∀ (s : State) (g : Group) (gd : Guard),
    let q := g.ids.queue
    let next := (s.frag g).pos.next s.cur.len
    let counts (t : State) (r0 r1 : Nat) : Prop :=
      (∀ p, t.ctx p = { s.ctx p with dfSeen := (t.ctx p).dfSeen, rc0 := (t.ctx p).rc0, rc1 := (t.ctx p).rc1 }) ∧
      (∀ p, p ≠ q → (t.ctx p).rc0 = (s.ctx p).rc0 ∧ (t.ctx p).rc1 = (s.ctx p).rc1) ∧ (t.ctx q).rc0 = r0 ∧ (t.ctx q).rc1 = r1
    let went (i : Instr) (h : Group) (r0 r1 : Nat) : Prop :=
      ∃ t g1, exec i s = .next t ∧ RegionTaken h g1 next ∧ t.group? s.cur.core s.cur.slot = some (g1.advanced s.cur) ∧ OthersSame s t ∧
        counts t r0 r1 ∧ ⟨g.ids.uid, 5, s.track.now⟩ ∈ t.track.bounds
    (Ready (.rdenter gd) s g →
      (g.guardUni gd = false → Completes (.rdenter gd) s g) ∧
      (g.guardUni gd = true → g.single = false ∨ g.rdepth = 15 → Faults (.rdenter gd) s g (.word 0x01)) ∧
      (g.guardUni gd = true → Undivided s g → g.rdepth = 0 →
        let tag := (s.graceOf (s.domOf q)).ph
        went (.rdenter gd) { g with rdepth := 1, rtag := tag } ((s.ctx q).rc0 + (!tag).toNat) ((s.ctx q).rc1 + tag.toNat)) ∧
      (g.guardUni gd = true → Undivided s g → 0 < g.rdepth → g.rdepth ≠ 15 →
        went (.rdenter gd) { g with rdepth := g.rdepth + 1 } (s.ctx q).rc0 (s.ctx q).rc1)) ∧
    (Ready (.rdexit gd) s g →
      (g.guardUni gd = false → Completes (.rdexit gd) s g) ∧
      (g.guardUni gd = true → g.single = false ∨ g.rdepth = 0 → Faults (.rdexit gd) s g (.word 0x01)) ∧
      (g.guardUni gd = true → g.single = true → 0 < g.rdepth → g.inflight ≠ [] → Holds (.rdexit gd) s g) ∧
      (g.guardUni gd = true → Undivided s g → g.rdepth = 1 → g.inflight = [] →
        went (.rdexit gd) { g with rdepth := 0 } ((s.ctx q).rc0 - (!g.rtag).toNat) ((s.ctx q).rc1 - g.rtag.toNat)) ∧
      (g.guardUni gd = true → Undivided s g → 1 < g.rdepth → g.inflight = [] →
        went (.rdexit gd) { g with rdepth := g.rdepth - 1 } (s.ctx q).rc0 (s.ctx q).rc1))

/-- 22 R389 to R391, R398: `gwait` is refused inside a read section, waits for earlier accesses, requests a period of its scope and blocks until one
that began no earlier has ended; requests of the wider scopes are taken together where no period of the scope runs; a local period begins by turning
the phase and ends, counted, when no member context has a reader of the old tag; a package without a member
context reports a wider request at once, and a .cell period ends when every package has reported.
22 R393, R394: `dfree` is refused in a divided group, for an address beyond the virtual space and without a valid reclaim node; with room in the
ring it appends its record, of the address, the tag and the target of a period of DSCOPE, counts on gs and takes a region entry. An empty ring posts
nothing; a record whose period has ended is posted to the reclaim node, and a post that could not be written is made again.
The readings of the model in it are log entries 57, 58. -/
def Obligations.GracePeriodsAndDeferredFrees : Prop :=
  (∀ (s : State),
     (∀ g gd sc, Ready (.gwait gd sc) s g →
       let d := s.domOf g.ids.queue
       let x := s.graceOf d
       (g.guardUni gd = false → Completes (.gwait gd sc) s g) ∧
       (g.guardUni gd = true → g.rdepth ≠ 0 → Faults (.gwait gd sc) s g (.word 0x01)) ∧
       (g.guardUni gd = true → g.rdepth = 0 → g.inflight ≠ [] → Holds (.gwait gd sc) s g) ∧
       (g.guardUni gd = true → g.rdepth = 0 → g.inflight = [] →
         let asked (y : Grace) (n : Nat) : Prop :=
           exec (.gwait gd sc) s = .next ((s.setGrace d y).setCurGroup ({ g with block := .gwait sc n : Group }.advanced s.cur))
         (sc = .pkg → asked { x with request := true } (x.gcp + if x.busy then 2 else 1)) ∧
         (sc = .cell → asked { x with cellReq := true } (x.gcc + if x.cell.isSome then 2 else 1)) ∧
         (sc = .dom → asked { x with domReq := true } (x.gcd + if x.dom.isSome then 2 else 1)))) ∧
     (∀ d, let x := s.graceOf d
       let next := x.gcp + if x.busy then 2 else 1
       let begun (y : Grace) : Grace := if y.request = true ∧ y.busy = false then { y with request := false, busy := true, old := y.ph, ph := !y.ph } else y
       ((x.cellReq = false ∨ x.cell ≠ none) → (x.domReq = false ∨ x.dom ≠ none) →
         exec (.localGraceBegin d) s = .next (if x.request = true ∧ x.busy = false then s.setGrace d (begun x) else s)) ∧
       (x.cellReq = true → x.cell = none → (x.domReq = false ∨ x.dom ≠ none) →
         ∃ t, exec (.localGraceBegin d) s = .next t ∧ t.out = s.out ++ [.graceRequest d .cell] ∧ t.groups = s.groups ∧ t.memsys = s.memsys ∧
           t.graceOf d = begun { x with request := true, cell := some (s.scopePackages .cell, next), cellReq := false }) ∧
       (x.domReq = true → x.dom = none → (x.cellReq = false ∨ x.cell ≠ none) →
         ∃ t, exec (.localGraceBegin d) s = .next t ∧ t.out = s.out ++ [.graceRequest d .dom] ∧ t.groups = s.groups ∧ t.memsys = s.memsys ∧
           t.graceOf d = begun { x with request := true, dom := some (s.scopePackages .dom, next), domReq := false }) ∧
       (x.cellReq = true → x.cell = none → x.domReq = true → x.dom = none →
         ∃ t, exec (.localGraceBegin d) s = .next t ∧ t.out = s.out ++ [.graceRequest d .cell, .graceRequest d .dom] ∧ t.groups = s.groups ∧
           t.memsys = s.memsys ∧ t.graceOf d = begun { x with
             request := true, cell := some (s.scopePackages .cell, next), cellReq := false, dom := some (s.scopePackages .dom, next), domReq := false })) ∧
     (∀ d, let x := s.graceOf d
       (x.busy = false ∨ (∃ q ∈ s.members d, 0 < if x.old then (s.ctx q).rc1 else (s.ctx q).rc0) → exec (.localGraceEnd d) s = .next s) ∧
       (x.busy = true → (∀ q ∈ s.members d, (if x.old then (s.ctx q).rc1 else (s.ctx q).rc0) = 0) → x.cell = none → x.dom = none →
         exec (.localGraceEnd d) s = .next
           { s.setGrace d { x with busy := false, gcp := x.gcp + 1, remote := x.remote.filter fun r => x.gcp + 1 < r.2.2 } with
             out := s.out ++ (x.remote.filter fun r => r.2.2 ≤ x.gcp + 1).map fun r => Msg.graceReport d r.1 r.2.1 })) ∧
     (∀ d pkg sc, d < 2 ^ 16 →
       exec (.graceRequestMessage d pkg sc) s = .next (if s.members d = [] then s.emit (.graceReport d pkg sc)
         else s.setGrace d { s.graceOf d with
           request := true, remote := (s.graceOf d).remote ++ [(pkg, sc, (s.graceOf d).gcp + if (s.graceOf d).busy then 2 else 1)] })) ∧
     (∀ d pkg ps t, let x := s.graceOf d
       x.cell = some (ps, t) → x.dom = none →
         exec (.graceReport d pkg .cell) s = .next (s.setGrace d
           (if (∀ p ∈ ps, p = pkg) ∧ t ≤ x.gcp then { x with gcc := x.gcc + 1, cell := none }
            else { x with cell := some (ps.filter fun p => p != pkg, t) })))) ∧
  (∀ (s : State) (g : Group) (gd : Guard) (a b : Reg),
     let q := g.ids.queue
     let r := (s.ctx q).regs
     let x := g.rdSs a.toNat 2
     let at_ := r.dfRing + 16 * (r.dfTail % 2 ^ r.dfLogn)
     let sc : Scope := if r.dscope = 2 then .dom else if r.dscope = 1 then .cell else .pkg
     (Ready (.dfree gd a b) s g →
       (g.guardUni gd = false → Completes (.dfree gd a b) s g) ∧
       (g.guardUni gd = true → g.single = false → Faults (.dfree gd a b) s g (.word 0x01)) ∧
       (g.guardUni gd = true → g.single = true → 2 ^ 57 ≤ x → Faults (.dfree gd a b) s g ⟨0x11, 255, 0, x, 0⟩) ∧
       (g.guardUni gd = true → g.single = true → x < 2 ^ 57 → r.rvalid = false → Faults (.dfree gd a b) s g ⟨0x11, 255, 0, r.rnode, 0⟩) ∧
       (∀ n s1, g.guardUni gd = true → Undivided s g → x < 2 ^ 57 → r.rvalid = true → s.nodeOf q r.rnode = .ok s1 (some n) → UsesOnly s s1 →
         Undisturbed s g → (r.dfTail + 2 ^ 17 - r.dfHead) % 2 ^ 17 ≠ 2 ^ r.dfLogn → at_ % 16 = 0 →
         ∀ pa, Maps s { g with mon := true } .cached false true at_ pa →
         let target := (s.graceOf (s.domOf q)).target sc
         ∃ (t : State) (h g1 : Group), exec (.dfree gd a b) s = .next t ∧ t.group? s.cur.core s.cur.slot = some (h.advanced s.cur) ∧
           RegionTaken g g1 ((s.frag g).pos.next s.cur.len) ∧ h = { g1 with inflight := h.inflight } ∧ h.ctr .gs = g.ctr .gs + 1 ∧
           (t.ctx q).regs = { r with dfTail := (r.dfTail + 1) % 2 ^ 17 } ∧
           (∃ y, (t.ctx q).dfSeen = (s.ctx q).dfSeen ++ [y] ∧ y.target = target) ∧
           (let z := t.graceOf (s.domOf q)
            (sc = .pkg → z.request = true) ∧ (sc = .cell → z.cellReq = true) ∧ (sc = .dom → z.domReq = true)) ∧
           WrittenBack s t (fun y => pa ≤ y ∧ y < pa + 16) ∧ (∀ y, Own s .cached y → t.byteAt y = putIn s.byteAt pa 16
             (x + 2 ^ 64 * (g.rdS b.toNat).toNat + 2 ^ 96 * (target % 2 ^ 16) + 2 ^ 112 * (r.dscope % 256)) y))) ∧
     (∀ p, (s.ctx p).regs.dfHead = (s.ctx p).regs.dfTail → exec (.dfreePost p) s = .next s ∧ exec (.dfreePostRetry p) s = .next s) ∧
     (∀ p core d n (s1 s2 s3 s4 : State), let c := s.ctx p
       let rnode := c.regs.rnode
       core = s.schedCore p → c.regs.dfHead ≠ c.regs.dfTail → c.removing = none → c.st ≠ .removed →
       s.vread core p (c.regs.dfRing + 16 * (c.regs.dfHead % 2 ^ c.regs.dfLogn)) 2 16 = .ok s1 d → UsesOnly s s1 →
       (c.dfSeen.head?.map DfSeen.target).getD 0 ≤
         (s.graceOf (s.domOf p)).count (if d.getD 14 0 &&& 3 = 2 then .dom else if d.getD 14 0 &&& 3 = 1 then .cell else .pkg) →
       s1.nodeOf p rnode = .ok s2 (some n) → UsesOnly s1 s2 → (s.nodeSt p rnode).slotFree n.logn (s.nodeSt p rnode).seq = true →
       let written : Try Unit := s2.vwrite core p (n.ring + n.rsize * ((s.nodeSt p rnode).seq % 2 ^ n.logn)) (n.rsize + 1)
         (d.take 12 ++ List.replicate (n.rsize - 12) 0)
       let posts (i : Instr) : Prop :=
         (written = .ok s3 () → s3.ctxs = s.ctxs → ∃ t, exec i s = .next t ∧ t.memsys = s3.memsys ∧
           (t.ctx p).regs = { c.regs with dfHead := (c.regs.dfHead + 1) % 2 ^ 17 } ∧
             (t.nodeSt p rnode).seq = (s.nodeSt p rnode).seq + 1 ∧ (t.ctx p).postStopped = false) ∧
         (written = .bad s4 0x11 0 none → s4.ctxs = s.ctxs → ∃ t, exec i s = .next t ∧ (t.ctx p).regs = c.regs ∧ (t.ctx p).postStopped = true ∧
           (t.nodeSt p rnode).seq = (s.nodeSt p rnode).seq)
       (c.postStopped = false → posts (.dfreePost p)) ∧ (c.postStopped = true → posts (.dfreePostRetry p))))

/-! ### Engine commands at issue (15, 16, 19) -/

/-- 16 R307, R316 to R319: `cpy`, `gath`, `scat` and `fill` read their operands at issue and register their ranges; an illegal operand word or
token word raises cause 0x02, a misaligned address cause 0x13, and then nothing is registered.
19 R352 to R354: the near-memory commands read their operands at issue and register their rows; a bad operand word, an overlap, a misaligned
row address are refused.
The readings of the model in it are log entries 23, 27, 28. -/
def Obligations.CopyAndRowCommandsIssue : Prop :=
  (∀ (s : State) (g : Group) (gd : Guard) (d a b : Reg) (tok : TokReg),
     let dst := g.rdSs d.toNat 2
     let src := g.rdSs a.toNat 2
     let w (k : Nat) : Word32 := g.rdS (b.toNat + k)
     let apart (xs : List Span) : Prop := ∀ x ∈ xs, ∀ y ∈ xs, x.2.1 = true → y.2.1 = false → x.1 = y.1 →
       ¬ (x.2.2.1 < y.2.2.1 + y.2.2.2 ∧ y.2.2.1 < x.2.2.1 + x.2.2.2)
     (let len := wordField (w 0) 0 21
      let rows := wordField (w 0) 21 9 + 1
      let sp := 16 * wordField (w 1) 0 16
      let dp := 16 * wordField (w 1) 16 16
      let spans : List Span := [((w 0).getLsbD 30, false, src, (rows - 1) * sp + len), ((w 0).getLsbD 31, true, dst, (rows - 1) * dp + len)]
      let ok : Prop := len ≠ 0 ∧ (1 < rows → len ≤ dp) ∧ apart spans
      Commands (.cpy gd d a b tok) s g gd tok .cp (.cpy ((w 0).getLsbD 31) ((w 0).getLsbD 30) dst src len rows dp sp) spans true ok ∧
      (Ready (.cpy gd d a b tok) s g → g.guardUni gd = true → TokensValid g tok → ¬ ok → Faults (.cpy gd d a b tok) s g ⟨0x02, 255, 0, 0, 0⟩)) ∧
     (∀ t : ElemTy,
       let e := t.bytes
       let idx := g.rdSs b.toNat 2
       let n := wordField (w 2) 0 16
       let bound := (w 3).toNat
       let ok (xs : List Span) : Prop := wordField (w 2) 19 13 = 0 ∧ bound ≠ 0 ∧ apart xs
       let aligned : Prop := dst % e = 0 ∧ src % e = 0 ∧ idx % 4 = 0
       let gs : List Span := [((w 2).getLsbD 16, false, idx, 4 * (n + 1)), ((w 2).getLsbD 17, false, src, e * bound),
         ((w 2).getLsbD 18, true, dst, e * (n + 1))]
       let ss : List Span := [((w 2).getLsbD 16, false, idx, 4 * (n + 1)), ((w 2).getLsbD 18, false, src, e * (n + 1)),
         ((w 2).getLsbD 17, true, dst, e * bound)]
       Commands (.gath gd t d a b tok) s g gd tok .cp
         (.gath e ((w 2).getLsbD 18) ((w 2).getLsbD 17) ((w 2).getLsbD 16) dst src idx n bound) gs true (ok gs ∧ aligned) ∧
       Commands (.scat gd t d a b tok) s g gd tok .cp
         (.scat e ((w 2).getLsbD 17) ((w 2).getLsbD 18) ((w 2).getLsbD 16) dst src idx n bound) ss true (ok ss ∧ aligned) ∧
       (Ready (.gath gd t d a b tok) s g → g.guardUni gd = true → TokensValid g tok →
         (¬ ok gs → Faults (.gath gd t d a b tok) s g ⟨0x02, 255, 0, 0, 0⟩) ∧
         (ok gs → dst % e ≠ 0 → Faults (.gath gd t d a b tok) s g ⟨0x13, 255, 0, dst, 0⟩)) ∧
       (Ready (.scat gd t d a b tok) s g → g.guardUni gd = true → TokensValid g tok →
         (¬ ok ss → Faults (.scat gd t d a b tok) s g ⟨0x02, 255, 0, 0, 0⟩) ∧
         (ok ss → dst % e ≠ 0 → Faults (.scat gd t d a b tok) s g ⟨0x13, 255, 0, dst, 0⟩))) ∧
     (∀ wide : Bool,
       let e := if wide then 8 else 4
       let n := wordField (w 0) 0 26
       let ok : Prop := wordField (w 0) 26 5 = 0 ∧ n ≠ 0
       Commands (.fill gd wide d a b tok) s g gd tok .cp (.fill e ((w 0).getLsbD 31) dst (g.rdSs a.toNat (if wide then 2 else 1)) n)
         [((w 0).getLsbD 31, true, dst, e * n)] true (ok ∧ dst % e = 0) ∧
       (Ready (.fill gd wide d a b tok) s g → g.guardUni gd = true → TokensValid g tok →
         (¬ ok → Faults (.fill gd wide d a b tok) s g ⟨0x02, 255, 0, 0, 0⟩) ∧
         (ok → dst % e ≠ 0 → Faults (.fill gd wide d a b tok) s g ⟨0x13, 255, 0, dst, 0⟩)))) ∧
  (∀ (s : State) (g : Group) (gd : Guard) (d a b : Reg) (tok : TokReg),
     let dst := g.rdSs d.toNat 2
     let src := g.rdSs a.toNat 2
     let meet (x y rows : Nat) : Prop := x < y + 1024 * rows ∧ y < x + 1024 * rows
     let refused (i : Instr) (bad : Prop) (misaligned : Option Nat) : Prop :=
       Ready i s g → g.guardUni gd = true → TokensValid g tok →
         (bad → Faults i s g ⟨0x02, 255, 0, 0, 0⟩) ∧ ∀ x, misaligned = some x → ¬ bad → Faults i s g ⟨0x13, 255, 0, x, 0⟩
     (let n := wordField (g.rdS b.toNat) 0 16 + 1
      let bad : Prop := wordField (g.rdS b.toNat) 16 16 ≠ 0 ∨ meet dst src n
      Commands (.rowcp gd d a b tok) s g gd tok .nm (.rowcp dst src n) [(false, false, src, 1024 * n), (false, true, dst, 1024 * n)] true
        (¬ bad ∧ dst % 1024 = 0 ∧ src % 1024 = 0) ∧
      refused (.rowcp gd d a b tok) bad (if dst % 1024 ≠ 0 then some dst else if src % 1024 ≠ 0 then some src else none)) ∧
     (let n := wordField (g.rdS b.toNat) 0 16 + 1
      let bad : Prop := wordField (g.rdS b.toNat) 16 16 ≠ 0
      Commands (.rowz gd d b tok) s g gd tok .nm (.rowz dst n) [(false, true, dst, 1024 * n)] true (¬ bad ∧ dst % 1024 = 0) ∧
      refused (.rowz gd d b tok) bad (if dst % 1024 ≠ 0 then some dst else none)) ∧
     (∀ op : PimOp,
       let rb := g.rdSs b.toNat 2
       let n := wordField (g.rdS (b.toNat + 2)) 0 16 + 1
       let x := g.rdS (b.toNat + 3)
       let sources : List Nat := if op = .scale then [src] else [src, rb]
       let bad : Prop := wordField (g.rdS (b.toNat + 2)) 16 16 ≠ 0 ∨ wordField x 16 16 ≠ 0 ∨ (op = .scale ∧ rb ≠ 0) ∨ (op = .add ∧ x ≠ 0) ∨
         ∃ r ∈ sources, r ≠ dst ∧ meet dst r n
       Commands (.pim gd op d a b tok) s g gd tok .nm (.pim op dst src rb n x)
         (((sources.filter fun r => r != dst).map fun r => (false, false, r, 1024 * n)) ++ [(false, true, dst, 1024 * n)]) true
         (¬ bad ∧ dst % 1024 = 0 ∧ ∀ r ∈ sources, r % 1024 = 0) ∧
       refused (.pim gd op d a b tok) bad (if dst % 1024 ≠ 0 then some dst else if src % 1024 ≠ 0 then some src else none)))

/-- 15 R280 to R282, R287, R294: the bench commands read their operand words at issue and register their spans; without a reservation
they raise cause 0x11, an `mma` of formats that do not go together raises cause 0x02; `srsv` is refused for nothing.
16 R306, R309: `tokset` waits, without holding its group, until every earlier access has completed; then its clears and after them its sets
take effect, a set only where nothing is pending; a nonzero upper half raises cause 0x02.
The readings of the model in it are log entry 42. -/
def Obligations.BenchCommandsAndToksetsIssue : Prop :=
  (∀ (s : State) (g : Group) (gd : Guard) (d a b : Reg) (tok : TokReg),
     let fmt := (s.frag g).fmt
     let rows := (s.frag g).mask
     let code (lo : Nat) : Nat := (fmt.extractLsb' lo 4).toNat
     let addr := g.rdSs a.toNat 2
     let w := g.rdS d.toNat
     let x := g.rdS b.toNat
     let pitch := 16 * wordField x 18 14
     let without (i : Instr) : Prop := Ready i s g → g.guardUni gd = true → g.resv = none →
       (∀ c ∈ s.cmds, c.core = s.cur.core → c.slot = s.cur.slot → c.path = .mx → c.done = true) → Faults i s g ⟨0x11, 255, 0, 0, 0⟩
     (∀ wide, Commands (.srsv gd wide d a) s g gd none .mx (.srsv wide (g.rdS a.toNat) d.toNat) [] false True) ∧
     (Commands (.srel gd) s g gd none .mx .srel [] false (∃ r, Reserved s g r) ∧ without (.srel gd)) ∧
     (Commands (.bload gd a b) s g gd none .mx (.bload (x.getLsbD 5) addr (wordField x 0 5) (wordField x 6 6 + 1) (wordField x 12 6) pitch)
       [(x.getLsbD 5, false, addr, (16 * (wordField x 6 6 + 1) - 1) * pitch + (if code 4 = 6 then 32 else 64 * formatBytes (code 4)))] true
       ((∃ r, Reserved s g r ∧ wordField x 0 5 < r.nbed) ∧ wordField x 12 6 + (wordField x 6 6 + 1) ≤ stepsHeld (code 4) ∧ addr % 16 = 0) ∧
      without (.bload gd a b)) ∧
     (Commands (.cbt gd d a) s g gd none .mx (.cbt (w.getLsbD 31) addr (wordField w 0 6)) [(w.getLsbD 31, false, addr, 32)] false
       ((∃ r, Reserved s g r ∧ wordField w 0 6 < r.ncb) ∧ wordField w 6 25 = 0 ∧ addr % 32 = 0) ∧ without (.cbt gd d a)) ∧
     (∀ chk : Bool, let bed := wordField x 0 5
       let passes (r : Resv) : Prop :=
         ((code 0 = 7 ∧ code 4 = 7 ∧ (code 8 = 8 ∨ code 8 = 0)) ∨ (code 0 ≤ 5 ∧ code 4 ≤ 6 ∧ (code 8 = 1 ∨ code 8 = 0))) ∧
         (r.wide = true ↔ code 8 = 0) ∧ wordField w 0 6 + chk.toNat < r.nsl ∧ bed + chk.toNat < r.nbed ∧
         (code 4 = 6 → (fmt.extractLsb' 16 6).toNat < r.ncb) ∧
         ∀ k, k ≤ chk.toNat → ∀ y f, Tbl.find? r.beds (bed + k) = some y → y.fmt = some f → f = code 4
       Commands (.mma gd chk d a b tok) s g gd tok .mx
         (.mma chk (x.getLsbD 5) (wordField w 0 6) addr bed (wordField x 6 6 + 1) (wordField x 12 6) pitch)
         [rowSpan (x.getLsbD 5) false rows addr pitch (16 * (wordField x 6 6 + 1) * formatBytes (code 0))] true
         ((∃ r, Reserved s g r ∧ passes r) ∧ wordField w 6 26 = 0 ∧ wordField x 12 6 + (wordField x 6 6 + 1) ≤ stepsHeld (code 4) ∧ addr % 16 = 0) ∧
       without (.mma gd chk d a b tok) ∧
       (∀ r, Ready (.mma gd chk d a b tok) s g → g.guardUni gd = true → Reserved s g r → TokensValid g tok → wordField w 0 6 + 1 < r.nsl →
         bed + 1 < r.nbed → (fmt.extractLsb' 16 6).toNat < r.ncb →
         ¬ ((code 0 = 7 ∧ code 4 = 7 ∧ (code 8 = 8 ∨ code 8 = 0)) ∨ (code 0 ≤ 5 ∧ code 4 ≤ 6 ∧ (code 8 = 1 ∨ code 8 = 0))) →
         Faults (.mma gd chk d a b tok) s g ⟨0x02, 255, 0, 0, 0⟩)) ∧
     (Commands (.szero gd d tok) s g gd tok .mx (.szero (wordField w 0 6)) [] false
       ((∃ r, Reserved s g r ∧ wordField w 0 6 < r.nsl) ∧ wordField w 6 26 = 0) ∧ without (.szero gd d tok)) ∧
     (let row (r : Resv) : Nat := if r.wide then 512 else 256
      ∀ r, Reserved s g r → wordField w 0 6 < r.nsl → wordField w 6 26 = 0 → addr % 16 = 0 →
       Commands (.srd gd d a b tok) s g gd tok .mx (.srd (x.getLsbD 0) (wordField w 0 6) addr pitch)
         [rowSpan (x.getLsbD 0) true rows addr pitch (row r)] false (wordField x 1 17 = 0 ∧ row r ≤ pitch) ∧
       Commands (.swr gd d a b tok) s g gd tok .mx (.swr (x.getLsbD 0) (wordField w 0 6) addr pitch)
         [rowSpan (x.getLsbD 0) false rows addr pitch (row r)] false (wordField x 1 17 = 0) ∧
       Commands (.sst gd d a b tok) s g gd tok .mx (.sst (x.getLsbD 0) (wordField w 0 6) addr pitch (wordField x 1 4))
         [rowSpan (x.getLsbD 0) true rows addr pitch (64 * formatBytes (wordField x 1 4))] false
         (wordField x 5 13 = 0 ∧ 64 * formatBytes (wordField x 1 4) ≤ pitch ∧
           (if code 8 = 8 then wordField x 1 4 = 8 ∨ wordField x 1 4 = 7 else wordField x 1 4 ≤ 5))) ∧
     without (.srd gd d a b tok) ∧ without (.swr gd d a b tok) ∧ without (.sst gd d a b tok)) ∧
  (∀ (s : State),
     (∀ (g : Group) (gd : Guard) (a : Reg), Ready (.tokset gd a) s g →
       let w := g.rdS a.toNat
       (g.guardUni gd = false → Completes (.tokset gd a) s g) ∧
       (g.guardUni gd = true → wordField w 16 16 ≠ 0 → Faults (.tokset gd a) s g (.word 0x02)) ∧
       (g.guardUni gd = true → wordField w 16 16 = 0 →
         exec (.tokset gd a) s = .next ({ s with nextId := s.nextId + 1 }.setCurGroup
           ({ g with toksets := g.toksets ++ [(w, s.nextId)] }.advanced s.cur)))) ∧
     (∀ core slot g w before rest t, s.group? core slot = some g → g.toksets = (w, before) :: rest → s.team? core g.ids.teamSlot = some t →
       ((∃ o ∈ g.inflight, o.born < before) → exec (.toksetApply core slot) s = .next s) ∧
       ((∀ o ∈ g.inflight, before ≤ o.born) →
         ∃ rdy : BitVec 8, exec (.toksetApply core slot) s =
           .next ((s.setGroup core slot { g with toksets := rest }).setTeam core g.ids.teamSlot { t with rdy := rdy }) ∧
           ∀ k, k < 8 → rdy.getLsbD k =
             ((w.getLsbD k && Tbl.getD t.pend k 0 == 0) || (t.rdy.getLsbD k && !w.getLsbD (8 + k))))))

/-! ### Steps of engines (15, 16, 19) -/

/-- 16 R308, R313, 15 R276, R277, R284, R455: a command is dispatched once its input tokens are ready and no earlier lock excludes it, a bench command
once no earlier one of its bench is incomplete and its reservation holds what it names; a token that is not ready, or an earlier lock of a
dispatched command, holds it back; a `srel` whose group then holds no reservation completes with no effect and its group stops with cause 0x11.
Once the row buffers hold what is asked for, a face grants one copy of a k-step to an eligible entry: of the aged ones the oldest, else one of
the highest priority.
The readings of the model in it are log entries 4, 95. -/
def Obligations.CommandsAreDispatched : Prop :=
  ∀ (s : State) (c : Cmd),
    (Live s c → c.disp = false →
      let unlocked : Prop := ∀ l ∈ s.locksNear c, l.cmd < c.id → ∀ o ∈ s.locksNear c, o.cmd = c.id → ¬ Collide o l
      let first : Prop := s.cmds.find? (fun x => x.path == .mx && benchOf x.core == benchOf c.core && !x.done) = some c ∧
        ∀ x ∈ s.cmds, x.path = .mx → x.done = false → c.id ≤ x.id
      (¬ TokensReady s c → exec (.commandDispatch c.id) s = .next s) ∧
      (∀ o ∈ s.locksNear c, o.cmd = c.id → ∀ l ∈ s.locksNear c, l.cmd < c.id → Collide o l →
        (∃ d, s.cmds.find? (fun x => x.id == l.cmd) = some d ∧ d.disp = true) → exec (.commandDispatch c.id) s = .next s) ∧
      (TokensReady s c → unlocked →
        (c.path ≠ .mx ∧ (∀ h gid n r ty x, c.op ≠ .cstart h gid n r ty x) ∨ c.path = .mx ∧ first ∧ s.lateCheck c = none) →
        ∃ t, exec (.commandDispatch c.id) s = .next t ∧ DispatchesTo s t c) ∧
      (TokensReady s c → unlocked → c.path = .mx → first → c.op = .srel → ∀ g, s.group? c.core c.slot = some g → g.resv = none → g.ownRecord = false →
        ∃ t h r, exec (.commandDispatch c.id) s = .next t ∧ t.cmds = s.cmdsWith { c with done := true, disp := true } ∧
          t.group? c.core c.slot = some h ∧ h.resv = none ∧ h.regs = g.regs ∧ h.dbg.run = .faulted ∧ h.stops.unwritten = g.stops.unwritten ++ [r] ∧
          r.info.cause = 0x11 ∧ r.faultPos = c.pos ∧ r.resumable = false ∧ t.memsys = s.memsys)) ∧
    (∀ bench face : Nat,
      let eligible (c : Cmd) (k : Nat) : Prop := c ∈ s.cmds ∧ c.path = .mx ∧ benchOf c.core = bench ∧ c.done = false ∧ c.disp = true ∧
        c.suspended = false ∧ s.faceOf c k = some face ∧ k ∉ c.ran ∧
        ((∃ sp addr bed n off pitch, c.op = .bload sp addr bed n off pitch ∧ c.progress < n ∧ k = 0) ∨
          ∃ chk sp sl addr bed n off pitch, c.op = .mma chk sp sl addr bed n off pitch ∧ c.progress < n ∧ k ≤ chk.toNat ∧ c.stepBytes ≤ c.buf.length)
      let aged (c : Cmd) : Prop := c.start + 64 * Tbl.getD s.mxAge bench 0x40 < s.cycle
      face < 5 → (∀ c ∈ s.cmds, c.path = .mx → benchOf c.core = bench → c.granted = []) →
      (∀ c ∈ s.cmds, c.wantsA * c.stepBytes ≤ c.buf.length) →
      ((∀ c k, ¬ eligible c k) → exec (.faceGrant bench face) s = .next s) ∧
      ((∃ c k, eligible c k) → ∃ c k, eligible c k ∧
        exec (.faceGrant bench face) s = .next { s with cmds := s.cmdsWith { c with granted := [k] } } ∧
        ((∃ x j, eligible x j ∧ aged x) → aged c ∧ ∀ x j, eligible x j → aged x → c.start ≤ x.start) ∧
        ((∀ x j, eligible x j → ¬ aged x) → ∀ x j, eligible x j → (s.ctx x.queue).desc.prio ≤ (s.ctx c.queue).desc.prio)))

/-- 15 R274, R283, R284, R286, R288, R290, R292, R296: in its turn at the slate port `srsv` writes its status and takes the reservation when it is 0,
`srel` gives it back and `szero` clears the rows of its slate; a granted k-step whose operand bytes have been read writes its bed's rows or,
copy by copy of an `mma`, row by row and column by column, adds its products to its slate, raises the flags, and hands its grant back.
16 R312, R320, 14 R251, 19 R355 to R358, 25 R438: `fill` puts its value in its whole range; a row command writes its next row (`rowz` zeros,
`rowcp` the source row, `pim` each BF16 element formed exactly and rounded once), and completes after its last; `cgrp` writes its status;
a row that its page does not admit suspends the command with its progress in a resumable record.
The readings of the model in it are log entries 4, 41, 43, 44, 51, 53. -/
def Obligations.CommandsRun : Prop :=
  (∀ (s : State) (c : Cmd) (g : Group), Live s c → c.disp = true → c.path = .mx → s.group? c.core c.slot = some g → g.shadow = none →
     let b := benchOf c.core
     let rows := maskLanes c.rows
     let code (lo : Nat) : Nat := (c.fmt.extractLsb' lo 4).toNat
     let port : Prop := ∀ x ∈ s.entriesBefore c, x.copies ≠ [] ∨ s.moving x = false
     (∀ wide w dst, c.op = .srsv wide w dst → port →
       let need := if wide then 2 * wordField w 0 7 else wordField w 0 7
       let held (xs : List (Nat × Resv)) : Nat := (xs.map fun x => if x.2.wide then 2 * x.2.nsl else x.2.nsl).sum
       let bad : Prop := wordField w 0 7 = 0 ∨ (if wide then 32 else 64) < wordField w 0 7 ∨ 4 < wordField w 7 3 ∨ 64 < wordField w 10 7 ∨
         wordField w 17 15 ≠ 0
       let beyond : Prop := (s.ctx c.queue).desc.slmax < held ((s.reservations b).filter fun x => x.1 == c.queue) + need
       let short : Prop := 64 < held (s.reservations b) + need ∨ 64 < ((s.reservations b).map fun x => x.2.ncb).sum + wordField w 10 7 ∨
         ((List.range 5).countP fun f => s.bedsOn b f < 4) < wordField w 7 3
       let answers (st : Nat) (r : Option Resv) : Prop :=
         CommandDone s (s.setGroup c.core c.slot { g.wrS dst (BitVec.ofNat 32 st) with resv := r }) c c
       (g.resv ≠ none → answers 3 g.resv) ∧ (g.resv = none → bad → answers 4 none) ∧ (g.resv = none → ¬ bad → beyond → answers 2 none) ∧
       (g.resv = none → ¬ bad → ¬ beyond → short → answers 1 none) ∧
       (g.resv = none → ¬ bad → ¬ beyond → ¬ short → ∃ r, Grants wide w r ∧ answers 0 (some r) ∧ r.faces.Nodup ∧
         ∀ f ∈ r.faces, f < 5 ∧ s.bedsOn b f < 4 ∧ ∀ e, e < 5 → e ∉ r.faces → s.bedsOn b f ≤ s.bedsOn b e)) ∧
     (c.op = .srel → port → CommandDone s (s.setGroup c.core c.slot { g with resv := none }) c c) ∧
     (∀ slate r, c.op = .szero slate → port → g.resv = some r →
       ∃ r1, CommandDone s (s.setGroup c.core c.slot { g with resv := some r1 }) c c ∧
         r1 = { r with slates := r1.slates, checked := r.checked.filter (· != slate),
                       badSlates := r.badSlates.filter fun x => !(x.1 == slate && rows.contains (x.2 / 64)) } ∧
         ∀ sl i j, j < 64 → r1.elem sl i j = if sl = slate ∧ c.rows.getLsbD i = true then 0 else r.elem sl i j) ∧
     (∀ sp addr bed steps off pitch r, c.op = .bload sp addr bed steps off pitch → g.resv = some r → c.granted ≠ [] → c.progress < steps →
       let n := formatBytes (code 4)
       c.buf.length = (if code 4 = 6 then 512 else 1024 * n) →
       ∃ r1, exec (.mmaKstep c.id) s = .next { s.setGroup c.core c.slot { g with resv := some r1 } with
           cmds := s.cmdsWith { c with progress := c.progress + 1, buf := [], granted := [], start := s.cycle } } ∧
         r1 = { r with beds := r1.beds } ∧ (∀ k, k ≠ bed → Tbl.find? r1.beds k = Tbl.find? r.beds k) ∧
         ∃ x, Tbl.find? r1.beds bed = some x ∧ x.fmt = some (code 4) ∧
         (∀ e, e ∈ x.bad ↔ (∃ y, Tbl.find? r.beds bed = some y ∧ y.fmt = some (code 4) ∧ e ∈ y.bad) ∧
           ¬ (16 * (off + c.progress) * 64 ≤ e ∧ e < 16 * (off + c.progress) * 64 + 1024)) ∧
         ∀ i j, j < 64 →
           Tbl.getD x.cells (i * 64 + j) 0 =
             if 16 * (off + c.progress) ≤ i ∧ i < 16 * (off + c.progress) + 16 then
               let k := (i - 16 * (off + c.progress)) * 64 + j
               if code 4 = 6 then (c.buf.getD (k / 2) 0).toNat / 16 ^ (k % 2) % 16
               else valueIn (fun a => c.buf.getD a 0) (k * n) n
             else if ∃ y, Tbl.find? r.beds bed = some y ∧ y.fmt = some (code 4) then
               (Tbl.find? r.beds bed).elim 0 fun y => Tbl.getD y.cells (i * 64 + j) 0
             else 0) ∧
     (∀ chk sp slate addr bed steps off pitch r q, c.op = .mma chk sp slate addr bed steps off pitch → g.resv = some r → c.granted = [q] →
       q ≤ chk.toNat → c.progress < steps → r.badPass c.fmt (slate + q) (bed + q) (off + c.progress) rows = false → (code 8 = 8 ∨ code 8 ≤ 5) →
       let n := formatBytes (code 0)
       let book := Tbl.getD r.books (c.fmt.extractLsb' 16 6).toNat 0
       let bedCell (i j : Nat) : Nat := Tbl.getD (r.bedAs (bed + q) (code 4)).cells (i * 64 + j) 0
       let whole : Bool := (List.range (chk.toNat + 1)).all fun k => k == q || c.ran.contains k
       c.stepBytes ≤ c.buf.length →
       ∃ (r1 : Resv) (fl : Flags) (res : Nat → Nat → FRes),
         exec (.mmaKstep c.id) s = .next { s.setGroup c.core c.slot { g with resv := some r1, fpstat := g.fpstat ||| fl } with
           cmds := s.cmdsWith (if whole then
               { c with progress := c.progress + 1, buf := c.buf.drop c.stepBytes, granted := [], ran := [], start := s.cycle }
             else { c with granted := [], ran := c.ran ++ [q] }) } ∧
         r1 = { r with slates := r1.slates, beds := r1.beds,
                       checked := if q = 0 then r.checked.filter (· != slate) ++ (if chk then [slate] else []) else r.checked } ∧
         (∀ p i, rows[p]? = some i → ∀ j, j < 64 →
           PassElement c.fmt book (r.elem (slate + q) i j)
             ((List.range 16).map fun t => valueIn (fun a => c.buf.getD a 0) ((p * 16 + t) * n) n)
             ((List.range 16).map fun t => bedCell (16 * (off + c.progress) + t) j) (res i j) ∧
           r1.elem (slate + q) i j = (res i j).1) ∧
         (∀ sl i j, j < 64 → ¬ (sl = slate + q ∧ i ∈ rows) → r1.elem sl i j = r.elem sl i j) ∧
         (∀ k, fl.getLsbD k = true ↔ ∃ i j, i ∈ rows ∧ j < 64 ∧ (res i j).2.getLsbD k = true))) ∧
  (∀ (s : State) (c : Cmd), Live s c → c.disp = true →
     (∀ n dst value count g t, c.path = .cp → c.op = .fill n true dst value count → (n = 4 ∨ n = 8) → dst % n = 0 → c.progress ≤ count →
       s.team? c.core c.ids.teamSlot = some t → t.nsett ≠ 0 → (∀ p ∈ t.setts, p.2.spillFault = none) →
       (∀ i, i < count → ∃ x, Tbl.find? t.setts ((dst + n * i) / 2048) = some x ∧ (x.st = .res ∨ x.st = .dirty)) →
       s.group? c.core c.slot = some g →
       ∃ s1, CommandDone s s1 c { c with progress := count } ∧ s1.memsys = s.memsys ∧ s1.groups = s.groups ∧
         s1.cmds = s.cmdsWith { c with progress := count } ∧
         ∀ a, s1.scratchAt c.core c.ids.teamSlot a =
           if dst + n * c.progress ≤ a ∧ a < dst + n * count then BitVec.ofNat 8 (value / 256 ^ ((a - dst) % n))
           else s.scratchAt c.core c.ids.teamSlot a) ∧
     (c.path = .nm → ((∃ dst rows, c.op = .rowz dst rows ∧ rows ≤ c.progress) ∨ (∃ dst src rows, c.op = .rowcp dst src rows ∧ rows ≤ c.progress) ∨
       ∃ op dst a b rows x, c.op = .pim op dst a b rows x ∧ rows ≤ c.progress) → CommandDone s s c c) ∧
     (∀ dst st g, c.path = .cl → c.op = .cgrp dst st → s.group? c.core c.slot = some g → g.shadow = none →
       CommandDone s (s.setGroup c.core c.slot (g.wrS dst st)) c c) ∧
     (Alone s →
       let row (a : Nat) : Nat := a + 1024 * c.progress
       (∀ dst rows ld, c.op = .rowz dst rows → c.progress < rows → NearMaps s c true (row dst) ld →
         RowWritten s c ld fun m => ∀ i, i < 1024 → m i = 0) ∧
       (∀ dst src rows ld la, c.op = .rowcp dst src rows → c.progress < rows → NearMaps s c true (row dst) ld → NearMaps s c false (row src) la →
         RowWritten s c ld fun m => ∀ i, i < 1024 → m i = s.mem.byte (la + i)) ∧
       (∀ op dst a b rows x ld la lb, c.op = .pim op dst a b rows x → c.progress < rows → NearMaps s c true (row dst) ld →
         NearMaps s c false (row a) la → (op ≠ .scale → NearMaps s c false (row b) lb) →
         RowWritten s c ld fun m => ∀ e, e < 512 →
           let val (k : Nat) : FVal := (fmtOf .bf16).decode (valueIn s.mem.byte k 2)
           let k := (fmtOf .bf16).decode (x.toNat % 2 ^ 16)
           ∃ r, valueIn m (2 * e) 2 = r.1 ∧
             match op with
             | .add => AddRule (fmtOf .bf16) .nearest (val (la + 2 * e)) (val (lb + 2 * e)) r
             | .fma => FmaRule (fmtOf .bf16) .nearest (val (la + 2 * e)) k (val (lb + 2 * e)) r
             | .scale => MulRule (fmtOf .bf16) .nearest (val (la + 2 * e)) k r) ∧
       (∀ dst rows g t, c.path = .nm → c.op = .rowz dst rows → c.progress + 1 = rows → s.group? c.core c.slot = some g →
         (s.coreSt c.core).tlb.find? (fun t => t.ctx == (s.ctx c.queue).hw.getD 64 && t.base ≤ row dst && row dst < t.base + t.size) = some t →
         t.leaf.getLsbD 7 = false → homeOf (leafPa t.leaf.toNat t.size (row dst)) = s.fabric.self →
         lpaOf (leafPa t.leaf.toNat t.size (row dst)) < dataEnd →
         ∃ u h r, exec (.engineFaultSuspend c.id) s = .next u ∧ u.group? c.core c.slot = some h ∧ u.memsys = s.memsys ∧
           u.cmds = s.cmdsWith { c with suspended := true } ∧ h.regs = g.regs ∧ h.ents = g.ents ∧ h.dbg.run = .faulted ∧
           h.stops.unwritten = g.stops.unwritten ++ [r] ∧ r.info = ⟨0x11, 255, 0, row dst, 0⟩ ∧ r.resumable = true ∧ r.cmd = some c.id ∧
           r.progress = c.progress ∧ r.faultPos = c.pos)))

/-! ### Collectives and graph nodes (21, 25) -/

/-- 25 R438, R440, R441, R443, R445, R447, R448: `cgrp` binds the lowest free handle to the descriptor's group and counts a command that will
write the handle, gives a bound handle up, reports 4 for an unbound one; `cstart` registers SEND and RECV, numbers its instance and
blocks for the announcements of the one before; `cwait` passes when every instance started is complete and blocks otherwise; `red`
issues a command that will fold its value; each refuses what its rules refuse.
The readings of the model in it are log entries 29, 53, 54, 55. -/
def Obligations.CollectiveWords : Prop :=
  ∀ (s : State) (g : Group) (gd : Guard),
    let none3 : Toks := (none, none, none)
    (∀ sc d a, Ready (.cgrp gd sc d a) s g →
      let x := g.rdSs a.toNat 2
      let h := wordField (g.rdS d.toNat) 0 3
      (g.guardUni gd = false → Completes (.cgrp gd sc d a) s g) ∧
      (g.guardUni gd = true → g.single = false → Faults (.cgrp gd sc d a) s g (.word 0x01)) ∧
      (g.guardUni gd = true → g.single = true → x ≠ 0 → x % 64 ≠ 0 → Faults (.cgrp gd sc d a) s g ⟨0x13, 255, 0, x, 0⟩) ∧
      (g.guardUni gd = true → g.single = true → Room s g .cl 0 none3 → x = 0 → Tbl.find? g.binds h = none →
        Enqueues (.cgrp gd sc d a) s g .cl (.cgrp d.toNat 4) none3 [] false) ∧
      (g.guardUni gd = true → g.single = true → Room s g .cl 0 none3 → x = 0 → ∀ b, Tbl.find? g.binds h = some b →
        (∀ n, n < b.seq → s.instComplete b n = true) → (∀ i ∈ s.coll.insts, i.gid = b.gid → i.n < b.seq) →
        Enqueues (.cgrp gd sc d a) s { g with binds := Tbl.del g.binds h } .cl (.cgrp d.toNat 0) none3 [] false) ∧
      (g.guardUni gd = true → g.single = true → Room s g .cl 0 none3 → x ≠ 0 → x % 64 = 0 → ∀ bytes b k, ReadsHere s g x bytes →
        DescribesGroup bytes b → BufferAdmitted s g false b.send b.len → BufferAdmitted s g true b.recv b.len →
        (∀ p ∈ b.members, WithinScope s sc p) → k < 8 → Tbl.find? g.binds k = none → (∀ j, j < k → Tbl.find? g.binds j ≠ none) →
        ∃ s1, UsesOnly s s1 ∧ EnqueuesFrom (.cgrp gd sc d a) s s1 { g with binds := Tbl.put g.binds k b } .cl
          (.cgrp d.toNat (BitVec.ofNat 32 (256 * k))) (s.frag g).mask none3 [] true id)) ∧
    (∀ t a b, Ready (.cstart gd t a b) s g →
      let w := g.rdS b.toNat
      let h := wordField w 0 3
      let plan := g.rdSs a.toNat 2
      let elt := if t = .f64 then 8 else 4
      (g.guardUni gd = false → Completes (.cstart gd t a b) s g) ∧
      (g.guardUni gd = true → g.single = false → Faults (.cstart gd t a b) s g (.word 0x01)) ∧
      (g.guardUni gd = true → g.single = true → Tbl.find? g.binds h = none → Faults (.cstart gd t a b) s g ⟨0x11, 255, 0, h, 0⟩) ∧
      (∀ bd, g.guardUni gd = true → g.single = true → Tbl.find? g.binds h = some bd →
        (∀ x, bd.broken = some x → Faults (.cstart gd t a b) s g ⟨x.1, 255, 0, bd.seq, bd.gid⟩) ∧
        (bd.broken = none → bd.seq ≠ 0 → s.inst? bd.gid (bd.seq - 1) = none →
          Faults (.cstart gd t a b) s g ⟨0x41, 255, 0, bd.seq, bd.gid⟩) ∧
        (bd.broken = none → bd.seq = 0 → plan % 32 ≠ 0 → Faults (.cstart gd t a b) s g ⟨0x13, 255, 0, plan, 0⟩) ∧
        (bd.broken = none → (bd.seq = 0 ∨ ∃ i x, s.inst? bd.gid (bd.seq - 1) = some i ∧ i.ranks.find? (fun r => r.1 == bd.rank) = some x ∧
            x.2.2 ≤ Tbl.getD i.ended bd.rank 0) →
          plan % 32 = 0 → wordField w 3 5 = 0 → wordField w 13 3 = 0 → wordField w 8 5 ≤ 16 →
          ∀ bytes streams, ReadsHere s g plan bytes → bytes.length = 32 * wordField w 8 5 → streams.length = wordField w 8 5 →
          (∀ i x, streams[i]? = some x → PlanEntry bytes i bd.members.length bd.len elt x) →
          (bd.send + bd.len ≤ 2 ^ 57 ∧ bd.recv + bd.len ≤ 2 ^ 57) → Unmet s g → Room s g .cl 2 none3 →
          let spans : List Span := [(false, false, bd.send, bd.len), (false, true, bd.recv, bd.len)]
          Translated s g spans →
          ∃ s1, UsesOnly s s1 ∧ EnqueuesFrom (.cstart gd t a b) s s1 g .cl (.cstart h bd.gid bd.seq bd.rank t streams)
            (BitVec.ofNat 32 (t.code.toNat * 2 ^ 16 + wordField w 16 16)) none3 spans false
            fun h0 => { h0 with block := .cstart h s.nextId s.time }))) ∧
    (∀ a, Ready (.cwait gd a) s g →
      let h := wordField (g.rdS a.toNat) 0 3
      (g.guardUni gd = false → Completes (.cwait gd a) s g) ∧
      (g.guardUni gd = true → Tbl.find? g.binds h = none → Faults (.cwait gd a) s g ⟨0x11, 255, 0, h, 0⟩) ∧
      (∀ bd, g.guardUni gd = true → Tbl.find? g.binds h = some bd →
        (∀ x, bd.broken = some x → Faults (.cwait gd a) s g ⟨x.1, 255, 0, x.2, bd.gid⟩) ∧
        (bd.broken = none → (∀ n, n < bd.seq → s.instComplete bd n = true) → (∀ c ∈ s.cmds, c.core = s.cur.core → c.slot = s.cur.slot → c.done = true) →
          ∃ t, exec (.cwait gd a) s = .next t ∧ t.group? s.cur.core s.cur.slot = some (g.advanced s.cur) ∧ OthersSame s t ∧
            ⟨g.ids.uid, 5, s.track.now⟩ ∈ t.track.bounds) ∧
        (bd.broken = none → (∃ n, n < bd.seq ∧ s.instComplete bd n = false) →
          Completes (.cwait gd a) s { g with block := .cwait h s.time }))) ∧
    (∀ op t sc a b, Ready (.red gd op t sc a b) s g →
      let va := g.rdSs a.toNat 2
      (g.guardUni gd = false → Completes (.red gd op t sc a b) s g) ∧
      (g.guardUni gd = true → ∀ c, addrCause (2 ^ 57) (redW t / 8) va = some c → Faults (.red gd op t sc a b) s g ⟨c, 255, 0, va, 0⟩) ∧
      (g.guardUni gd = true → va % (redW t / 8) = 0 → ∀ pa, Undisturbed s g → Maps s g .cached false true va pa →
        (∀ x ∈ (s.coreSt s.cur.core).tlb, x.leaf.getLsbD 7 = false) → Room s g .cl 0 none3 →
        Enqueues (.red gd op t sc a b) s g .cl (.red op t sc va pa (g.rdSs b.toNat t.width)) none3 [] true))

/-- 21 R375, R376: `emit` writes the record of each active lane, in ascending LANEID, at the next free sequence numbers of the node's ring, counts
on gs and advances the node's sequence count; below a full group the records wait, and where they fill one a group launches. A node
that does not exist and records that do not fit the declared registers are refused, with or without an active lane (02 R20).
25 R442 to R447: an announcement is counted once for its rank and an ended stream for its member; signatures that differ abort the instance
with cause 0x40; a packet is held when it arrives and, hop by hop, goes to the next rank of its route; an abort reaches every binding
here, with memory as it was where no hop had written to RECV; a block in `cwait` longer than TMO aborts with cause 0x42; a `cstart` command completes with its instance, a graph node's timer
launches what is pending.
The readings of the model in it are log entries 47, 49, 50, 59, 77, 85. -/
def Obligations.EmittedRecordsAndCollectiveSteps : Prop :=
  (∀ (s : State) (g : Group) (gd : Guard) (a b : Reg), Ready (.emit gd a b) s g →
     let ls := s.lanes g gd
     let m := (g.rdS a.toNat).toNat
     let q := g.ids.queue
     let st := Tbl.getD (s.ctx q).nodes m .start
     (((s.ctx q).desc.graph = 0 ∨ (s.ctx q).desc.nnodes < m) → Faults (.emit gd a b) s g ⟨0x11, 255, 0, m, 0⟩) ∧
     (∀ x s1, s.nodeOf q m = .ok s1 (some x) → g.regs.nvr < b.toNat + x.rsize / 4 → Faults (.emit gd a b) s g (.word 0x01)) ∧
     (∀ x s1, ls = [] → s.nodeOf q m = .ok s1 (some x) → UsesOnly s s1 → b.toNat + x.rsize / 4 ≤ g.regs.nvr →
       exec (.emit gd a b) s = .next (s1.setCurGroup (g.advanced s.cur))) ∧
     (∀ (x : Node) (s1 : State) (pa : Nat → Nat),
       let slot (i : Nat) : Nat := x.ring + x.rsize * ((st.seq + i) % 2 ^ x.logn)
       let covered (v i : Nat) : Prop := i < ls.length ∧ slot i ≤ v ∧ v < slot i + x.rsize
       ls ≠ [] → s.nodeOf q m = .ok s1 (some x) → UsesOnly s s1 → b.toNat + x.rsize / 4 ≤ g.regs.nvr → Undisturbed s g → g.ctr .gs < 255 → x.rsize % 4 = 0 →
       x.rsize ≤ 256 → ls.length ≤ 2 ^ x.logn → (s.ctx q).removing = none →
       (∀ i, i < ls.length → ∀ k, (k ∈ st.used ∨ ∃ p ∈ st.pending, p.1 = k) → k % 2 ^ x.logn ≠ (st.seq + i) % 2 ^ x.logn) →
       (∀ v i, covered v i → Maps s g .cached false true v (pa v) ∧ ∀ j w, covered w j →
         (v / 32 = w / 32 → pa v / 32 = pa w / 32) ∧ (pa v = pa w → v = w)) →
       ∃ t o, exec (.emit gd a b) s = .next t ∧
         t.group? s.cur.core s.cur.slot = some ({ g with inflight := g.inflight ++ [o] }.advanced s.cur) ∧ o.path = .gs ∧ o.todo = [] ∧ o.writes = [] ∧
         o.flag = s.cur.flag ∧ WrittenBack s t (fun y => ∃ v i, covered v i ∧ pa v = y) ∧
         (∀ i l v, ls[i]? = some l → covered v i → t.byteAt (pa v) = BitVec.ofNat 8 (g.rdVs l b.toNat (x.rsize / 4) / 256 ^ (v - slot i))) ∧
         (∀ y, Own s .cached y → (∀ v i, covered v i → pa v ≠ y) → t.byteAt y = s.byteAt y) ∧
         (Tbl.getD (t.ctx q).nodes m .start).seq = st.seq + ls.length ∧
         (st.pending.length + ls.length < x.kernel.lanes → (t.ctx q).grids = (s.ctx q).grids ∧
           Tbl.getD (t.ctx q).nodes m .start = { st with seq := st.seq + ls.length, pending := st.pending ++
             ((List.range ls.length).map fun i => (st.seq + i, s.time, [(g.ids.uid, s.track.now)])) }) ∧
         (st.pending.length + ls.length = x.kernel.lanes → ∃ d, (t.ctx q).grids = (s.ctx q).grids ++ [d] ∧ d.lanes = x.kernel.lanes ∧
           d.entryPos = x.code + x.kernel.entryOff ∧ d.groups = 1 ∧ (Tbl.getD (t.ctx q).nodes m .start).pending = []))) ∧
  (∀ (s : State),
     (∀ gid n rank sig nstr, ∃ t, exec (.announcement gid n rank sig nstr true) s = .next t ∧ t = { s with coll := t.coll } ∧
       t.coll.packets = s.coll.packets ∧
       InstChanges s t gid n fun i => { i with ended := Tbl.put i.ended rank (Tbl.getD i.ended rank 0 + 1) }) ∧
     (∀ gid n rank sig nstr,
       let old := s.instHere gid n
       let taken (i : Inst) : Inst := { i with ranks := i.ranks ++ [(rank, sig, nstr)] }
       old.abort = none → (∀ r ∈ old.ranks, r.1 ≠ rank) →
       ((∀ r ∈ old.ranks, r.2.1 = sig) →
         ∃ t, exec (.announcement gid n rank sig nstr false) s = .next t ∧ t = { s with coll := t.coll } ∧ t.coll.packets = s.coll.packets ∧
           InstChanges s t gid n taken) ∧
       ((∃ r ∈ old.ranks, r.2.1 ≠ sig ∧ (s.member? gid r.1).isSome = true) →
         ∃ t, exec (.announcement gid n rank sig nstr false) s = .next t ∧ Aborts s t gid n 0x40 taken ∧
           (old.wrote = [] → toldTo s gid (fun p => .abort gid n 0x40 p) t))) ∧
     (∀ k p, exec (.routePacketHop k (some p)) s = .next { s with coll := { s.coll with packets := s.coll.packets ++ [p] } }) ∧
     (∀ k p core g b next, s.coll.packets[k]? = some p → p.ops[p.hop]? = some 1 → (s.inst? p.gid p.n).elim True (fun i => i.abort = none) →
       s.member? p.gid (p.route.getD p.hop 0) = some (core, g, b) → p.n < b.seq → p.route[p.hop + 1]? = some next →
       let p1 := { p with hop := p.hop + 1 }
       let rest := { s with coll := { s.coll with packets := s.coll.packets.eraseIdx k } }
       exec (.routePacketHop k none) s = .next
         (if b.members.getD next 0 = s.fabric.self then { rest with coll := { rest.coll with packets := rest.coll.packets ++ [p1] } }
          else { rest with out := s.out ++ [.packet p1 (b.members.getD next 0)] })) ∧
     (∀ gid n cause, (s.bindings gid ≠ [] ∨ ∃ i, s.inst? gid n = some i) → (s.instHere gid n).abort = none →
       ∃ t, exec (.collectiveAbort gid n cause) s = .next t ∧ Aborts s t gid n cause id ∧
         ((s.instHere gid n).wrote = [] → t.out = s.out)) ∧
     (∀ core slot g h since b n, s.group? core slot = some g → g.block = .cwait h since → Tbl.find? g.binds h = some b → n < b.seq →
       (∀ k, k < n → s.instComplete b k = true) → s.instComplete b n = false →
       (since + 1000000 * b.tmo < s.time → ∃ t, exec (.collectiveTimeout core slot) s = .next t ∧ Aborts s t b.gid n 0x42 id ∧
         ((s.instHere b.gid n).wrote = [] → toldTo s b.gid (fun p => .abort b.gid n 0x42 p) t)) ∧
       (s.time ≤ since + 1000000 * b.tmo → exec (.collectiveTimeout core slot) s = .next s)) ∧
     (∀ c h gid n r ty xs g b, Live s c → c.disp = true → c.path = .cl → c.op = .cstart h gid n r ty xs → s.group? c.core c.slot = some g →
       Tbl.find? g.binds h = some b → s.instComplete b n = true → CommandDone s s c c) ∧
     (∀ q m x s1 p rest, s.nodeOf q m = .ok s1 (some x) → UsesOnly s s1 → (Tbl.getD (s.ctx q).nodes m .start).pending = p :: rest →
       (s.time < p.2.1 + 1000 * x.tmr → exec (.nodeCoalescingTimer q m) s = .next s) ∧
       (p.2.1 + 1000 * x.tmr ≤ s.time → (s.ctx q).removing = none →
         let st := Tbl.getD (s.ctx q).nodes m .start
         let n := Min.min st.pending.length x.kernel.lanes
         ∃ t d, exec (.nodeCoalescingTimer q m) s = .next t ∧ (t.ctx q).grids = (s.ctx q).grids ++ [d] ∧ d.lanes = n ∧ d.clusters = 1 ∧ d.groups = 1 ∧
           d.entryPos = x.code + x.kernel.entryOff ∧ d.node = some (m, (st.pending.take n).map fun p => p.1) ∧
           (Tbl.getD (t.ctx q).nodes m .start) = { st with pending := st.pending.drop n, used := st.used ++ ((st.pending.take n).map fun p => p.1) } ∧
           t.groups = s.groups ∧ t.memsys = s1.memsys)))

/-! ### Stops, debug, sleep and control space (14) -/

/-- 14 R259, R264, R266: `trap` and `brk` stop their group after themselves with a record of cause 0x62 or 0x60 that holds IMM; `brk` holds every
entry, in non-stop mode its own and those that wait at a regang for it; with no active lane they are no-ops. `sleep` blocks its group until its time, its fault queue or
the mailbox wakes it.
14 R258, R260, R262, R263: `dbg` writes the selected register of a stopped group and reports whether a result to it is pending, 2 for a group
that is not stopped and 3 for a bad handle or selector; `halt` stops a running group and holds its entries; `resume` lets a stopped
group go on where it stands, past the faulting instruction or, once its instructions have completed (R252), at its region entry; their other
statuses name what is wrong. A status waits for its register under the flag of its word and is written when the word completes (03 R42).
The readings of the model in it are log entries 19, 31, 32, 33, 34, 40. -/
def Obligations.StopsSleepAndDebugWords : Prop :=
  (∀ (s : State) (g : Group) (gd : Guard) (imm : BitVec 32),
     let e := s.cur.entry
     let next := (s.frag g).pos.next s.cur.len
     let off (i : Instr) : Prop := Ready i s g → s.lanes g gd = [] → Completes i s g
     off (.trap gd imm) ∧ off (.brk gd imm) ∧
     (Ready (.trap gd imm) s g → s.lanes g gd ≠ [] → g.ownRecord = false → (s.frag g).st = .running →
       ∃ h, exec (.trap gd imm) s = .next (s.setCurGroup h) ∧ h.block = g.block.issued ∧
         StopsTo s g h e next .faulted ⟨0x62, 255, 0, imm.toNat, 0⟩ (fun _ => false)) ∧
     (Ready (.brk gd imm) s g → s.lanes g gd ≠ [] → g.ownRecord = false → (s.frag g).st = .running → e < 32 →
       (g.dbg.nonstop = true → ∀ j, j < 32 → (g.ent j).st ≠ .arrived) →
       ∃ h, exec (.brk gd imm) s = .next (s.setCurGroup h) ∧ h.block = g.block.issued ∧
         StopsTo s g h e next .debugger ⟨0x60, 255, 0, imm.toNat, 0⟩ (fun j => !g.dbg.nonstop || j == e || (g.ent j).st == .regang)) ∧
     (Ready (.sleep gd imm) s g →
       (g.guardUni gd = false ∨ imm = 0 → Completes (.sleep gd imm) s g) ∧
       (g.guardUni gd = true → imm ≠ 0 →
         let us := (imm.extractLsb' 0 20).toNat
         Completes (.sleep gd imm) s { g with block := .sleep imm (if us = 0 then none else some (s.time + 1000 * us)) })) ∧
     (∀ core slot h deadline, s.group? core slot = some h → h.block = .sleep imm deadline → h.runs = true →
       let c := (s.ctx h.ids.queue).regs
       let wakes : Prop := (∃ d, deadline = some d ∧ d ≤ s.time) ∨ (imm.getLsbD 20 = true ∧ c.head ≠ c.tail) ∨
         (imm.getLsbD 21 = true ∧ s.ctl.inFull = true)
       (wakes → exec (.sleepWake core slot) s = .next (s.setGroup core slot { h with block := .none })) ∧
       (¬ wakes → exec (.sleepWake core slot) s = .next s))) ∧
  (∀ (s : State) (g : Group) (gd : Guard) (d a b c : Reg), g.shadow = none →
     let handle := (g.rdS a.toNat).toNat
     (Ready (.dbg gd d a b c) s g →
       (g.guardUni gd = false → Completes (.dbg gd d a b c) s g) ∧
       (g.guardUni gd = true → 2 ^ 15 ≤ handle → ReportsOnly (.dbg gd d a b c) s g d 3) ∧
       (g.guardUni gd = true → ∀ core slot x, handle = gkey core slot → Reaches s g core slot x →
         let sel := g.rdS b.toNat
         let n := wordField sel 0 8
         let lane := wordField sel 11 5
         let kind := wordField sel 8 3
         let v := g.rdS c.toNat
         let names : Prop := wordField sel 16 16 = 0 ∧
           (kind = 0 ∧ n < x.regs.nvr ∧ lane < x.regs.nlanes ∨ kind = 1 ∧ n < 128 ∨ kind = 2 ∧ n < 16 ∧ lane < x.regs.nlanes ∨ kind = 3 ∧ n < 8)
         (x.dbg.run = .running → ReportsOnly (.dbg gd d a b c) s g d 2) ∧
         (x.dbg.run ≠ .running → ¬ names → ReportsOnly (.dbg gd d a b c) s g d 3) ∧
         (x.dbg.run ≠ .running → names → ∃ st y, Reports (.dbg gd d a b c) s g d st core slot y ∧
           y = (if kind = 0 then x.wrV lane n v else if kind = 1 then x.wrS n v else if kind = 2 then x.wrP lane n (v.getLsbD 0)
             else x.wrQ n (v.getLsbD 0)) ∧
           (st = 0 ∨ st = 1) ∧ (st = 1 ↔ kind = 0 ∧ PendingTo s core slot x lane n ∨ kind = 1 ∧ PendingTo s core slot x 255 n)))) ∧
     (Ready (.halt gd d a) s g →
       (g.guardUni gd = false → Completes (.halt gd d a) s g) ∧
       (g.guardUni gd = true → 2 ^ 15 ≤ handle → handle ≠ 0xFFFFFFFF → ReportsOnly (.halt gd d a) s g d 1) ∧
       (g.guardUni gd = true → ∀ core slot x, handle = gkey core slot → Reaches s g core slot x →
         (x.dbg.run = .faulted ∨ x.dbg.run = .halted → ∃ y, Reports (.halt gd d a) s g d 2 core slot y ∧ y = x) ∧
         (x.dbg.run = .running → ∃ y, Reports (.halt gd d a) s g d 0 core slot y ∧ y = { x with ents := y.ents, dbg := { x.dbg with run := .halted } } ∧
           ∀ j, j < 32 → y.ent j = heldEntry (x.ent j)))) ∧
     (Ready (.resume gd d a b) s g →
       let action := (g.rdS b.toNat).toNat
       (g.guardUni gd = false → Completes (.resume gd d a b) s g) ∧
       (g.guardUni gd = true → 2 ^ 15 ≤ handle → ReportsOnly (.resume gd d a b) s g d 1) ∧
       (g.guardUni gd = true → ∀ core slot x, handle = gkey core slot → Reaches s g core slot x →
         let quiet : Prop := x.dbg.run ≠ .running ∧ (∀ sc n, x.block ≠ .gwait sc n) ∧
           ∀ j, j < 32 → (x.ent j).st = .free ∨ (x.ent j).st = .running ∨ ((x.ent j).st = .stopped ∧ (x.ent j).former = .running)
         let goes (y : Group) : Prop := ∃ t, exec (.resume gd d a b) s = .next t ∧ t.group? core slot = some y ∧
           t.group? s.cur.core s.cur.slot = some ((g.reporting s.cur d 0).advanced s.cur) ∧ t.memsys = s.memsys
         (x.dbg.run = .running → ReportsOnly (.resume gd d a b) s g d 2) ∧
         (x.dbg.run ≠ .running → 2 < action → ReportsOnly (.resume gd d a b) s g d 3) ∧
         (action < 2 → quiet → (x.stops.unserved = [] ∨ ∃ r, x.stops.unserved = [r] ∧ r.stop = true ∧ r.resumable = false) →
           ∃ y, goes y ∧ GoesOnAgain x y ∧ y.block = x.block ∧ ∀ j, j < 32 →
             y.ent j = if (x.ent j).st = .stopped then { x.ent j with st := .running, former := .free } else x.ent j) ∧
         (action = 1 → quiet → ∀ r, x.stops.unserved = [r] → r.stop = false → r.resumable = false → r.late = false → r.entry < 32 → (x.ent r.entry).st = .running →
           (x.ent r.entry).pos = r.faultPos →
           ∃ y, goes y ∧ GoesOnAgain x y ∧ y.ent r.entry = { x.ent r.entry with pos := r.after }) ∧
         (action = 0 → x.dbg.run ≠ .running → ∀ r rest, x.stops.unserved = r :: rest → r.stop = false → r.resumable = false →
           (x.inflight ≠ [] ∨ x.statuses ≠ [] ∨ x.trace ≠ []) → Holds (.resume gd d a b) s g) ∧
         (action = 0 → quiet → x.inflight = [] → x.statuses = [] → x.trace = [] →
           ∀ r, x.stops.unserved = [r] → r.stop = false → r.resumable = false →
           ∃ y, goes y ∧ GoesOnAgain x y ∧ y.block = .none ∧ ∀ j, j < 32 → y.ent j =
             if j = 0 then { x.ent 0 with st := .running, pos := x.region, mask := x.allMask, reconv := 0, depth := 0, fmt := (x.ent 0).saved,
                                          former := .free }
             else .freed))))

/-- 14 R261: `csrr` and `csrw` refuse an address beyond 2^40 and a misaligned one, `csrw` the firmware range with cause 0x03; `csrr` reads the
register at issue and writes its value at completion, `csrw` writes it at issue and counts on gs.
The readings of the model in it are log entries 31, 56. -/
def Obligations.ControlSpaceWords : Prop :=
  ∀ (s : State) (g : Group) (gd : Guard) (d a b : Reg),
    let addr := g.rdSs a.toNat 2
    let refuses (i : Instr) : Prop := Ready i s g → g.guardUni gd = true →
      (2 ^ 40 ≤ addr → Faults i s g ⟨0x11, 255, 0, addr, 0⟩) ∧ (addr < 2 ^ 40 → addr % 8 ≠ 0 → Faults i s g ⟨0x13, 255, 0, addr, 0⟩)
    refuses (.csrr gd d a) ∧ refuses (.csrw gd a b) ∧
    (Ready (.csrr gd d a) s g →
      (g.guardUni gd = false → Completes (.csrr gd d a) s g) ∧
      (g.guardUni gd = true → addr < 2 ^ 40 → addr % 8 = 0 → g.inflight = [] → g.batches = [] → g.leader = none → g.shadow = none →
        ∃ t h, Issued (.csrr gd d a) s g .gl t h ∧ t.memsys = s.memsys ∧
          Completed t s.cur.core s.cur.slot h .gl none d.toNat 2 fun _ => (s.ctlRead addr).toNat)) ∧
    (Ready (.csrw gd a b) s g →
      (g.guardUni gd = false → Completes (.csrw gd a b) s g) ∧
      (g.guardUni gd = true → addr < 2 ^ 40 → addr % 8 = 0 →
        (firmwareRange addr = true → Faults (.csrw gd a b) s g ⟨0x03, 255, 0, addr, 0⟩) ∧
        (firmwareRange addr = false → g.ctr .gs < 255 →
          ∃ o t, o.path = .gs ∧ o.todo = [] ∧ o.writes = [] ∧ o.flag = s.cur.flag ∧
            exec (.controlRegisterWrite addr (BitVec.ofNat 64 (g.rdSs b.toNat 2)) false)
              ({ s with nextId := s.nextId + 1 }.setCurGroup { g with inflight := g.inflight ++ [o] }) = .next t ∧
            exec (.csrw gd a b) s = .next (t.updGroup s.cur.core s.cur.slot fun h => h.advanced s.cur))))

/-- 03 R39, R52, 05 R74, 07 R120, 14 R254 to R257, R265 to R267: a clause starts at its header, waits for the flags that it names, and faults on a bad
header; an unassigned opcode is an illegal instruction; a comparator that matches stops its group before the instruction; STEP frees
one held entry and STOP holds a group; a record is written at the fault queue's tail, marks a full queue, or, with the queue off, halts
the group of a stop and removes the context of a fault; a group with no lane and nothing in flight frees its slot.
The readings of the model in it are log entries 16, 17, 18, 30, 35, 37. -/
def Obligations.ClausesRecordsAndDebugSteps : Prop :=
  ∀ (s : State) (core slot : Nat) (g : Group), s.group? core slot = some g →
    (∀ k (w : Nat), g.block = .none → s.mayIssue core g k = true → (g.ent k).pos.slot = 0 → ((g.ent k).reconv = 0 ∨ (g.ent k).reconv ≠ (g.ent k).pos.caddr) →
      ∀ s1, s.fetch core g.ids.queue g.mon (g.ent k).pos.caddr = .ok s1 w → UsesOnly s s1 →
      let h := Header.ofWord (BitVec.ofNat 64 w)
      let waits : Prop := ∃ f, f < 12 ∧ h.wait.getLsbD f = true ∧ s.flagSet core slot g f = true
      (∀ c, h.cause = some c → exec (.clauseStart core slot k) s = .next (s1.takeFault core slot k (g.ent k).pos ⟨c, 255, 0, 0, 0⟩)) ∧
      (h.cause = none → waits → exec (.clauseStart core slot k) s = .next (s1.setGroup core slot { g with block := .stall 3 h.wait.toNat })) ∧
      (h.cause = none → ¬ waits → ∃ t g1, exec (.clauseStart core slot k) s = .next t ∧ t.group? core slot = some g1 ∧
        EntriesSet g g1 (fun j => if j = k then { g.ent k with pos := ⟨(g.ent k).pos.caddr, 1⟩ } else g.ent j) ∧ t.memsys = s1.memsys ∧
        t.cmds = s.cmds ∧ ∀ c n, gkey c n ≠ gkey core slot → t.group? c n = s.group? c n)) ∧
    (∀ op h, s.group? s.cur.core s.cur.slot = some h →
      exec (.unassignedOpcode op) s = .next (s.takeFault s.cur.core s.cur.slot s.cur.entry (s.frag h).pos ⟨0x01, 255, 0, 0, 0⟩)) ∧
    (∀ k i, k < 32 → s.mayIssue core g k = true → g.ownRecord = false → i < 4 →
      let p := (g.ent k).pos
      let matched (j : Nat) : Prop := (g.dbg.bp.getD j 0).getLsbD 58 = true ∧
        ((g.dbg.bp.getD j 0).extractLsb' 0 58).toNat = p.slot + p.caddr / 8 * 16
      matched i → (∀ j, j < i → ¬ matched j) → (k, p) ∉ g.dbg.pass → (g.ent k).mask &&& g.dbg.lanes ≠ 0 →
      (g.dbg.nonstop = true → ∀ j, j < 32 → (g.ent j).st ≠ .arrived) →
      ∃ h, exec (.comparatorBreakpoint core slot k) s = .next (s.setGroup core slot h) ∧ h.block = g.block ∧ h.dbg.pass = g.dbg.pass ++ [(k, p)] ∧
        StopsTo s g h k p .debugger ⟨0x60, 255, 0, 0, i + 1⟩ (fun j => !g.dbg.nonstop || j == k || (g.ent j).st == .regang)) ∧
    (let k := g.dbg.stepEnt
     ∃ h, exec (.dbgStep core slot) s = .next (s.setGroup core slot h) ∧
      ((g.ent k).st = .stopped → (g.ent k).former ≠ .free → h = { g with ents := h.ents, dbg := { g.dbg with stepping := some (k, false), err := false } } ∧
        ∀ j, h.ent j = if j = k then { g.ent k with st := (g.ent k).former, former := .free } else g.ent j) ∧
      ((g.ent k).st ≠ .stopped → h = { g with dbg := { g.dbg with err := true } })) ∧
    (g.leader = none → g.shadow = none → g.dbg.run = .running → ∃ h, exec (.dbgStop core slot) s = .next (s.setGroup core slot h) ∧
      h = { g with ents := h.ents, dbg := { g.dbg with run := .halted } } ∧ ∀ j, j < 32 → h.ent j = heldEntry (g.ent j)) ∧
    (∀ r rest, g.stops.unwritten = r :: rest → g.inflight = [] → g.statuses = [] → g.trace = [] → g.shadow = none →
      (∀ p ∈ s.groups, p.2.ids.queue = g.ids.queue → ∀ x ∈ p.2.stops.unwritten, r.tick ≤ x.tick) →
      let q := g.ids.queue
      let c := s.ctx q
      let used := (c.regs.tail + 2 ^ 17 - c.regs.head) % 2 ^ 17
      let done := { g with stops := { g.stops with unwritten := rest } }
      c.removing = none →
      (c.regs.fqEn = false → r.stop = true → ∃ t h, exec (.faultRecordWrite core slot) s = .next t ∧ t.group? core slot = some h ∧
        h.dbg.run = .halted ∧ h.stops.unwritten = rest ∧ h.regs = g.regs ∧ (t.ctx q).removing = none) ∧
      (c.regs.fqEn = false → r.stop = false → c.st ≠ .idle → c.st ≠ .removed → ∃ t, exec (.faultRecordWrite core slot) s = .next t ∧
        t.group? core slot = some done ∧ (t.ctx q).removing = some false ∧ t.memsys = s.memsys) ∧
      (c.regs.fqEn = true → used = 2 ^ c.regs.fqLogn →
        exec (.faultRecordWrite core slot) s = .next (s.setCtx q { c with regs := { c.regs with full := true } })) ∧
      (∀ s1 bytes, c.regs.fqEn = true → used ≠ 2 ^ c.regs.fqLogn → (r.stop = true ∨ g.mon = false) →
        bytes.length = 64 →
        let f (i lo n : Nat) : Nat := byteField bytes i lo n
        let resumes := if r.resumable then 1 else 0
        (f 0 0 16 = r.info.cause + 256 * resumes ∧ f 0 16 8 = r.info.lane ∧ f 0 24 8 = r.info.synd ∧ f 0 32 32 = r.regcnt.toNat ∧
          f 1 0 64 = r.faultPos.slot + r.faultPos.caddr / 8 * 16 ∧ f 2 0 64 = r.restart.slot + r.restart.caddr / 8 * 16 ∧
          f 3 0 32 = r.mask.toNat ∧ f 3 32 6 = slot ∧ f 3 38 9 = core ∧ f 3 47 17 = r.entry ∧ f 4 0 64 = r.info.addr0 ∧ f 5 0 64 = r.info.addr1 ∧
          f 6 0 32 = r.progress % 2 ^ 32 ∧ f 6 32 4 = g.ids.grpid ∧ f 6 36 28 = g.ids.teamid ∧ f 7 0 32 = g.ids.cluid ∧ f 7 32 32 = g.ids.gridid) →
        s.vwrite core q (c.regs.fqBase + 64 * (c.regs.tail % 2 ^ c.regs.fqLogn)) 3 bytes = .ok s1 () →
        ∃ t, exec (.faultRecordWrite core slot) s = .next t ∧ t.group? core slot = some done ∧ t.memsys = s1.memsys ∧
          (t.ctx q).regs = { c.regs with tail := (c.regs.tail + 1) % 2 ^ 17, full := false } ∧ (t.ctx q).removing = none)) ∧
    ((g.allMask ≠ 0 ∨ g.inflight ≠ [] ∨ g.batches ≠ []) → exec (.groupEnd core slot) s = .next s) ∧
    (g.allMask = 0 → g.inflight = [] → g.batches = [] → g.toksets = [] → g.binds = [] → g.leader = none → g.shadow = none →
      g.stops.unwritten = [] →
      ∃ t, exec (.groupEnd core slot) s = .next t ∧ t.group? core slot = none ∧ (∀ c ∈ t.cmds, ¬ (c.core = core ∧ c.slot = slot)) ∧
        (∀ c k, gkey c k ≠ gkey core slot → t.group? c k = s.group? c k) ∧
        ((∀ p ∈ s.groups, p.1 / 64 = core → p.1 ≠ gkey core slot → sameTeam p.2.ids g.ids = false) → t.team? core g.ids.teamSlot = none))

/-! ### Steps of cores (11, 12) and control registers (01) -/

/-- 11 R190 to R195: of a core with one unit, a parked unit that fits is activated, one that does not is forced by the sole-group rule, a forcing
cause forces it, a forced unit without one is active again, an overdue one is activated; a parked unit becomes aged after the ageing
time and overdue after twice that.
12 R213 to R216: a sett in FILL becomes resident with zeros or with its backing block's bytes, as its map entry says, and counts; a fault
leaves it OUT and waits for the access that caused the fill. A sett in SPILL is written to its backing block, its map entry says so, and
it is OUT.
The readings of the model in it are log entries 24, 25, 45, 46. -/
def Obligations.EscapementAndSetts : Prop :=
  (∀ (s : State) (core slot : Nat) (g : Group), OnlyUnit s core slot g →
     let age := (s.coreSt core).escAge * 256
     let becomes (i : Instr) (a : Act) : Prop := exec i s = .next (s.setGroup core slot { g with act := a })
     let ev : Instr := .escapementEvaluation core
     let n := s.forcing core g
     (n = 0 → g.act.st = .parked → g.act.aged ≠ 2 → becomes ev { g.act with st := .active, aged := 0, byAge := none }) ∧
     (n = 0 → g.act.st = .parked → g.act.aged = 2 → becomes ev { g.act with st := .active, aged := 0, byAge := some s.cycle }) ∧
     (n ≠ 0 → g.act.st = .parked ∨ g.act.st = .active → becomes ev { g.act with st := .forced, aged := 0 }) ∧
     (n = 0 → g.act.st = .forced → becomes ev { g.act with st := .active }) ∧
     ((n = 0 ∧ g.act.st = .active) ∨ (n ≠ 0 ∧ g.act.st = .forced) → exec ev s = .next s) ∧
     (g.act.st = .parked → 2 * age ≤ s.cycle - g.act.since → g.act.aged ≠ 2 → becomes (.ageingTimeReached core slot) { g.act with aged := 2 }) ∧
     (g.act.st = .parked → age ≤ s.cycle - g.act.since → s.cycle - g.act.since < 2 * age → g.act.aged = 0 →
       becomes (.ageingTimeReached core slot) { g.act with aged := 1 }) ∧
     (g.act.st ≠ .parked ∨ s.cycle - g.act.since < age → g.act.aged = 0 → 0 < age → exec (.ageingTimeReached core slot) s = .next s)) ∧
  (∀ (s : State) (core team n : Nat) (t : Team) (x : Sett), s.team? core team = some t → Tbl.find? t.setts n = some x →
     let block (e : Nat) : Nat := e / 2 ^ 11 % 2 ^ 46 * 2048
     let entry := t.map + 8 * n
     let becomes (r : State) (i : Instr) (y : Option Sett) (counts : Bool) : Prop := ∃ u, exec i s = .next u ∧
       u.team? core team = some { t with setts := match y with
         | some y => Tbl.put t.setts n y
         | none => Tbl.del t.setts n } ∧ u.memsys = r.memsys ∧ u.groups = s.groups ∧
       (counts = true → (u.coreSt core).fills = Min.min ((s.coreSt core).fills + 1) (2 ^ 28 - 1))
     (x.st = .fill → ∀ bytes s1, s.vread core t.queue entry 1 8 = .ok s1 bytes → UsesOnly s s1 → bytes.length = 8 →
       let e := valueIn (fun a => bytes.getD a 0) 0 8
       (e % 4 = 1 → becomes s1 (.settFill core team n) (some { x with st := .res, data := [], poison := [], fillFault := none }) true) ∧
       (e % 4 = 2 → ∀ d s2, s1.vread core t.queue (block e) 65 2048 = .ok s2 d → UsesOnly s1 s2 → d.length = 2048 →
         ∃ y, becomes s2 (.settFill core team n) (some y) true ∧ y = { x with st := .res, data := y.data, poison := [], fillFault := none } ∧
           ∀ i, i < 2048 → Tbl.getD y.data i 0 = d.getD i 0) ∧
       (e % 4 = 2 → ∀ c y a s2, s1.vread core t.queue (block e) 65 2048 = .bad s2 c y a → UsesOnly s1 s2 →
         becomes s2 (.settFill core team n) (some { x with st := .out, fillFault := some ⟨c, 255, y, a.getD (block e), 0⟩ }) false) ∧
       (e % 4 = 0 ∨ e % 4 = 3 → becomes s1 (.settFill core team n) none false)) ∧
     (x.st = .fill → ∀ c y a s1, s.vread core t.queue entry 1 8 = .bad s1 c y a → UsesOnly s s1 →
       becomes s1 (.settFill core team n) (some { x with st := .out, fillFault := some ⟨c, 255, y, entry, 0⟩ }) false) ∧
     (x.st ≠ .fill → exec (.settFill core team n) s = .next s) ∧ (x.st ≠ .spill → exec (.settSpill core team n) s = .next s) ∧
     (x.st = .spill → CleanAlone s → x.poison = [] → entry % 8 = 0 → ∀ pa mpa, MonMaps s core t.queue entry mpa → mpa % 8 = 0 →
       let e := valueIn s.byteAt mpa 8
       (∀ k, k < 64 → MonMaps s core t.queue (block e + 32 * k) (pa + 32 * k)) → pa % 2048 = 0 → ¬ (pa ≤ mpa ∧ mpa < pa + 2048) →
       ∃ u, exec (.settSpill core team n) s = .next u ∧ u.sett core team n = .absent ∧ u.groups = s.groups ∧
         (∀ i, i < 2048 → u.byteAt (pa + i) = Tbl.getD x.data i 0) ∧ valueIn u.byteAt mpa 8 = e / 4 * 4 + 2 ∧
         (∀ a, Own s .cached a → ¬ (pa ≤ a ∧ a < pa + 2048) → ¬ (mpa ≤ a ∧ a < mpa + 8) → u.byteAt a = s.byteAt a)))

/-- 12 R202, R203, R209: a write of L1SZ clamps its value and starts a change, unless one is in progress or a team with scratchpad would be left
too few frames; the change is complete when the frames are free, and until then the setts that are too many are evicted in the order of R216. A
write of XLAT_INV drops the translations in its range, and is complete
once the operations that used them are.
01 R11, R14, R15: a write of a register takes its fields, clamped as the register's rule says, and leaves its other bits zero; an address
that no register has takes nothing; a misaligned write and a write of the firmware range without firmware rights take nothing.
The readings of the model in it are log entries 56, 66, 67, 68. -/
def Obligations.ControlWrites : Prop :=
  (∀ (s : State) (core : Nat) (v : BitVec 64), core < 384 →
     let c := s.coreSt core
     let n := Min.min 12 (Max.max 2 (wordField (v.truncate 32) 0 4))
     let frames (k : Nat) : Nat := Min.min 320 ((768 - 64 * k) / 2)
     let needs : Prop := ∃ ts t, ts < 8 ∧ s.team? core ts = some t ∧ t.nsett ≠ 0
     ((c.resize ≠ none ∨ n = c.l1sz ∨ (frames n < 32 ∧ needs)) → exec (.cmemCfgWrite core v) s = .next s) ∧
     (c.resize = none → n ≠ c.l1sz → (frames n < 32 → ¬ needs) →
       (c.l1sz < n → exec (.cmemCfgWrite core v) s = .next (s.setCore core { c with resize := some n })) ∧
       (n < c.l1sz → ∃ d, exec (.cmemCfgWrite core v) s = .next (s.setCore core d) ∧
         d = { c with l1sz := n, resize := some n, lines := d.lines, tags := d.tags } ∧ d.lines.length ≤ n * 1024 ∧ d.lines <:+ c.lines)) ∧
     (∀ k, c.resize = some k → s.framesUsed core ≤ frames k →
       exec (.l1ResizeComplete core) s = .next (s.setCore core { c with l1sz := k, resize := none })) ∧
     (∀ k, c.resize = some k → frames k < s.framesUsed core →
       let leaving := (s.settsOf core).countP fun x => x.2.2.st == .spill
       (s.framesUsed core ≤ frames k + leaving → exec (.l1ResizeComplete core) s = .next s) ∧
       (frames k + leaving < s.framesUsed core → ∀ ts m y, (ts, m, y) ∈ s.settsOf core → (y.st = .res ∨ y.st = .dirty) → y.spillFault = none →
         (∀ x ∈ s.settsOf core, (x.2.2.st = .res ∨ x.2.2.st = .dirty) → x.2.2.spillFault = none → x ≠ (ts, m, y) → y.used < x.2.2.used) →
         exec (.l1ResizeComplete core) s =
           .next (if y.st = .res then s.setSett core ts m .absent else s.setSett core ts m { y with st := .spill }))) ∧
     (c.resize = none → exec (.l1ResizeComplete core) s = .next s) ∧
     (let sz := (v.extractLsb' 45 3).toNat
      let hw := (v.extractLsb' 48 15).toNat
      let bytes := if sz = 0 then 2 ^ 12 else if sz = 1 then 2 ^ 16 else if sz = 2 then 2 ^ 18 else if sz = 3 then 2 ^ 21 else 2 ^ 25
      let lo := (v.extractLsb' 0 45).toNat * 4096 / bytes * bytes
      let named (t : TlbEnt) : Prop := t.ctx = hw ∧ (sz = 7 ∨ (t.base < lo + bytes ∧ lo < t.base + t.size))
      let old : Prop := ∃ p ∈ s.groups, p.1 / 64 = core ∧ (s.ctx p.2.ids.queue).hw.getD 64 = hw ∧ ∃ o ∈ p.2.inflight, o.born < s.nextId ∧ o.awaits = none
      v.getLsbD 63 = false → (sz ≤ 4 ∨ sz = 7) → ∃ t, exec (.xlatInvWrite core v) s = .next t ∧ t = { s with cores := t.cores } ∧
       (∀ k, k ≠ core → t.coreSt k = s.coreSt k) ∧
       (∀ e, e ∈ (t.coreSt core).tlb ↔ e ∈ c.tlb ∧ ¬ named e) ∧
       (old → (t.coreSt core).inval = c.inval ++ [(v, s.nextId)]) ∧ (¬ old → (t.coreSt core).inval = c.inval)) ∧
     (∀ w at_ rest, c.inval = (w, at_) :: rest →
       let old : Prop := ∃ p ∈ s.groups, p.1 / 64 = core ∧ (s.ctx p.2.ids.queue).hw.getD 64 = (w.extractLsb' 48 15).toNat ∧
         ∃ o ∈ p.2.inflight, o.born < at_ ∧ o.awaits = none
       (old → exec (.xlatInvComplete core) s = .next s) ∧
       (¬ old → exec (.xlatInvComplete core) s = .next (s.setCore core { c with inval := rest })))) ∧
  (∀ (s : State) (a : Nat) (v : BitVec 64) (fw : Bool),
     let f (lo n : Nat) : BitVec 64 := (v.extractLsb' lo n).setWidth 64
     let num (lo n : Nat) : Nat := (v.extractLsb' lo n).toNat
     let word (x : Nat) : BitVec 64 := BitVec.ofNat 64 x
     (a % 8 ≠ 0 ∨ (firmwareRange a = true ∧ fw = false) → exec (.controlRegisterWrite a v fw) s = .next s) ∧
     (a % 8 = 0 → (a = 0x7000 ∨ (0x140000 ≤ a ∧ a < 0x200000)) → exec (.controlRegisterWrite a v true) s = .next s ∧ s.ctlRead a = 0) ∧
     RegisterTakes s 0x5000 v fw (f 12 39 <<< 12 ||| f 63 1 <<< 63) ∧
     RegisterTakes s 0x5008 v fw (word (Max.max 1 (num 0 16))) ∧
     (∀ k, k < 64 → RegisterTakes s (0xC1000 + 8 * k) v fw (f 0 16)) ∧
     RegisterTakes s 0xC5020 v true v ∧ RegisterTakes s 0xC5028 v true v ∧
     (∀ d, d < 4 → RegisterTakes s (0x100000 + 0x10000 * d + 0x300) v fw
       (let lo := Min.min 92 (Max.max 48 (num 0 7))
        word (lo + 2 ^ 7 * Min.min 92 (Max.max lo (num 7 7))))) ∧
     (∀ d, d < 4 → RegisterTakes s (0x100000 + 0x10000 * d + 0x200) v fw (f 0 32 ||| (if num 32 2 = 3 then 0 else f 32 2) <<< 32)) ∧
     (∀ k, k < 12 → RegisterTakes s (0x200000 + 0x10000 * k + 0x310) v fw (f 0 17)) ∧
     (∀ c, c < 384 → RegisterTakes s (0x1000000 + 0x4000 * c + 0x800) v fw (word (Max.max 16 (num 0 16)))) ∧
     (∀ h q x, List.find? (fun p : Nat × Ctx => p.2.hw == some h) s.ctxs = some (q, x) → h < 64 → s.ctx q = x →
       (∀ p ∈ s.ctxs, p.2.hw = some h → p.1 = q) →
       let base := 0x3000000 + 0x1000 * h
       let logn := if 4 ≤ num 0 5 ∧ num 0 5 ≤ 16 then num 0 5 else 4
       RegisterTakes s base v fw (f 6 51 <<< 6) ∧
       RegisterTakes s (base + 8) v fw (word logn ||| f 5 16 <<< 5) ∧
       RegisterTakes s (base + 0x10) v fw (f 0 17) ∧
       RegisterTakes s (base + 0x58) v fw (word (Max.max 10 (num 0 20)) ||| f 20 1 <<< 20)))

/-! ### Scheduling and the swapping of contexts (21, 11, 14) -/

/-- 21 R366 to R374, R378, R381: a notified index makes an idle context READY, one beyond its ring stops the queue; an entry becomes a grid and RIDX
counts it; a cluster is placed on a rectangle that takes it or waits with a target whose cores it reserves, and ages; a free hardware
slot goes to the READY context of the highest priority, READY longest; a slice without a contender starts again, with one the context is
to be saved; so is one over its waiting budget, before any slice (R384); the partition registers take what R381 admits, and enabling partitions
empties the ways that become shadow storage (18 R336).
The readings of the model in it are log entries 4, 24, 49, 59, 64. -/
def Obligations.SchedulingSteps : Prop :=
  ∀ (s : State) (q : Nat),
    let c := s.ctx q
    let sets (i : Instr) (c1 : Ctx) : Prop := exec i s = .next (s.setCtx q c1)
    (s.sched.qdtEn = true → s.ctl.step = 5 → q < 16384 → c.st = .idle → c.removing = none → c.answer = none → c.overflow = false →
      let d := s.readDesc q
      let c1 := { c with desc := d.1, ridx := d.2, widx := d.2, overflow := false }
      let s1 := s.setCtx q c1
      (d.1.valid = false → exec (.writeIndexNotify q) s = .next s) ∧
      (∀ b s2, d.1.valid = true → s1.vread (s1.schedCore q) q d.1.widx 2 8 = .ok s2 b → UsesOnly s1 s2 → b.length = 8 →
        let w := valueIn (fun a => b.getD a 0) 0 8
        (d.2 < w → w ≤ d.2 + 2 ^ d.1.logn →
          exec (.writeIndexNotify q) s = .next (s2.setCtx q { c1 with widx := w, st := .ready, readyAt := s.time })) ∧
        ((w < d.2 ∨ d.2 + 2 ^ d.1.logn < w) →
          exec (.writeIndexNotify q) s = .next ((s2.setCtx q { c1 with overflow := true }).eventWord q 5 c.image.isSome d.2)))) ∧
    (Settled s q → s.sched.qdtEn = true → s.ctl.step = 5 → s.ctl.held = false → c.overflow = false → c.ridx ≠ c.widx → c.ridx + 1 < 2 ^ 64 →
      s.sched.qdtBase % 64 = 0 →
      ∀ b s1, s.vread (s.schedCore q) q (c.desc.ring + 64 * (c.ridx % 2 ^ c.desc.logn)) 4 64 = .ok s1 b → UsesOnly s s1 → b.length = 64 →
      let counted (t : State) : Prop := (t.ctx q).ridx = c.ridx + 1 ∧
        valueIn t.byteAt (domAddr s.fabric.self (s.sched.qdtBase + 64 * q) + 0x20) 8 = c.ridx + 1
      (byteField b 0 0 8 = 0 → ∃ t, exec (.queueEntryRead q) s = .next t ∧ counted t ∧ t.groups = s.groups) ∧
      (∀ kb k s2, byteField b 0 0 8 = 1 → s1.vread (s.schedCore q) q (byteField b 1 5 52 * 32) 3 32 = .ok s2 kb → UsesOnly s1 s2 →
        kernelOf kb = some k →
        let n := byteField b 0 32 32
        let chk := byteField b 0 8 1 = 1
        let mon := byteField b 0 9 1 = 1
        n ≠ 0 → (mon → c.desc.monOk = true) → k.vregs ≤ 16 * c.desc.vmax → k.setts ≤ c.desc.smax → (chk → k.groups ≠ 16) →
        (s.partRec q).rects k.rows k.cols ≠ [] →
        ∃ t d, exec (.queueEntryRead q) s = .next t ∧ counted t ∧ t.groups = s.groups ∧ (t.ctx q).grids = c.grids ++ [d] ∧
          t.sched.nextGrid = (s.sched.nextGrid + 1) % 2 ^ 32 ∧ d.gridid = s.sched.nextGrid ∧ d.ridx = c.ridx ∧ d.clusters = n ∧ (d.chk = true ↔ chk) ∧
          (d.mon = true ↔ mon) ∧ (d.after = true ↔ byteField b 0 10 1 = 1) ∧ d.entryPos = byteField b 2 3 54 * 8 + k.entryOff ∧
          d.done = byteField b 3 3 54 * 8 ∧ d.lanes = k.lanes ∧ d.groups = k.groups ∧ d.rows = k.rows ∧ d.cols = k.cols ∧ d.vregs = k.vregs ∧
          d.live = n * (k.rows * k.cols) * k.groups ∧ d.placed = 0 ∧ d.ended = false ∧ d.args.length = 12 ∧
          ∀ i, i < 12 → d.args.getD i 0 = if i < 4 then 0 else BitVec.ofNat 32 (valueIn (fun a => b.getD a 0) (32 + 4 * (i - 4)) 4))) ∧
    (Settled s q → s.ctl.held = false → c.pending = none → ∀ k d, nextGrids c.grids = [k] → c.grids[k]? = some d →
      let s1 := { s with free := s.free + 1 }
      let takes (r : Nat × Bool) : Prop := ∀ core ∈ rectCores d.rows d.cols r.2 r.1, s1.canTake none q core d.need = true
      let rects := (s.partRec q).rects d.rows d.cols
      let lacking (r : Nat × Bool) : Nat := (rectCores d.rows d.cols r.2 r.1).countP fun core => !s1.canTake none q core d.need
      ((∃ r ∈ rects, takes r) → ∃ r, r ∈ rects ∧ takes r ∧
        exec (.clusterPlacement q) s = .next ({ s with free := s.free + 2 }.startCluster none q k d r.1 r.2)) ∧
      ((∀ r ∈ rects, ¬ takes r) → rects ≠ [] → ∃ r, r ∈ rects ∧ (∀ x ∈ rects, lacking r ≤ lacking x) ∧
        exec (.clusterPlacement q) s = .next (s1.setCtx q { c with pending := some ⟨k, r.1, r.2, [], s.time, false⟩ }))) ∧
    (∀ d ids, d.lanes ≤ 32 → d.args.length = 12 → Launched s d (s.newGroup d ids) ∧
      (s.newGroup d ids).lease = (if d.measured then 1 else d.lease) ∧ (s.newGroup d ids).act.stamp = s.time) ∧
    (∀ p d core, Settled s q → c.pending = some p → c.grids[p.grid]? = some d → core ∈ rectCores d.rows d.cols p.trans p.origin →
      core ∉ p.reserved → (∀ k ∈ p.reserved, s.canTake (some q) q k d.need = true) →
      (∀ x ∈ s.pendings (some q), core ∉ x.1.reserved) → s.canTake (some q) q core d.need = true →
      let s1 := s.setCtx q { c with pending := some { p with reserved := p.reserved ++ [core] } }
      ((∃ k ∈ rectCores d.rows d.cols p.trans p.origin, k ≠ core ∧ k ∉ p.reserved) → exec (.clusterReserve q core) s = .next s1) ∧
      ((∀ k ∈ rectCores d.rows d.cols p.trans p.origin, k = core ∨ k ∈ p.reserved) →
        let s2 := s1.startCluster (some q) q p.grid d p.origin p.trans
        ((s2.ctx q).grids[p.grid]?.map Grid.placed = some (d.placed + 1) →
          exec (.clusterReserve q core) s = .next (s2.setCtx q { s2.ctx q with pending := none })) ∧
        ((s2.ctx q).grids[p.grid]?.map Grid.placed = some d.placed → exec (.clusterReserve q core) s = .next s2))) ∧
    (∀ p, c.pending = some p → p.aged = false →
      (p.since + 1000 * s.sched.age < s.time → sets (.clusterAged q) { c with pending := some { p with aged := true } }) ∧
      (s.time ≤ p.since + 1000 * s.sched.age → exec (.clusterAged q) s = .next s)) ∧
    (∀ part, s.ctl.held = false → s.ctxsIn part .ready ≠ [] → ∃ x ∈ s.ctxsIn part .ready,
      (∀ y ∈ s.ctxsIn part .ready, s.effPrio y.1 < s.effPrio x.1 ∨ (s.effPrio y.1 = s.effPrio x.1 ∧ x.2.readyAt ≤ y.2.readyAt)) ∧
      (s.freeHw (s.partRec x.1) = [] → exec (.slotMapping part) s = .next s) ∧
      (s.freeHw (s.partRec x.1) ≠ [] → ∃ h ∈ s.freeHw (s.partRec x.1), exec (.slotMapping part) s =
        .next ({ s with free := s.free + 1 }.setCtx x.1 { s.ctx x.1 with st := .resident, hw := some h, residentAt := s.time, sliceAt := s.time }))) ∧
    (Settled s q → c.saveDue = false →
      let contender (low : Nat) : Prop := ∃ x ∈ s.ctxsIn (s.partNo q) .ready, low ≤ s.effPrio x.1
      let spent : Prop := c.desc.budget ≠ 0 ∧ c.desc.budget * 1000000 ≤ c.waiting
      (s.time < c.sliceAt + 250000 * c.desc.slice → exec (.sliceExpiry q) s = .next s) ∧
      (¬ spent → c.sliceAt + 250000 * c.desc.slice ≤ s.time → (s.sched.partEn = false ∨ ¬ contender c.desc.prio) →
        sets (.sliceExpiry q) { c with sliceAt := s.time }) ∧
      (¬ spent → c.sliceAt + 250000 * c.desc.slice ≤ s.time → s.sched.partEn = true → contender c.desc.prio →
        sets (.sliceExpiry q) { c with save := some false }) ∧
      (¬ spent → s.sched.partEn = true → c.residentAt + 250000 ≤ s.time → s.freeHw (s.partRec q) = [] →
        (∀ x ∈ s.ctxsIn (s.partNo q) .resident, x.1 = q ∧ x.2 = c) → contender (c.desc.prio + 1) →
        sets (.minimumResidencyReached q) { c with save := some false }) ∧
      (s.time < c.residentAt + 250000 → exec (.minimumResidencyReached q) s = .next s) ∧
      (spent → exec (.sliceExpiry q) s = .next s ∧ exec (.minimumResidencyReached q) s = .next s) ∧
      (spent → s.sched.partEn = true → sets (.waitingBudgetExceeded q) { c with save := some true, waiting := 0 }) ∧
      (spent → s.sched.partEn = false →
        ∃ t, exec (.waitingBudgetExceeded q) s = .next t ∧ (t.ctx q).removing = some false ∧ (t.ctx q).regs = c.regs ∧ t.groups = s.groups) ∧
      (¬ spent → exec (.waitingBudgetExceeded q) s = .next s)) ∧
    (∀ part (v : BitVec 64), part < 8 →
      let p : Part := ⟨v.extractLsb' 0 8, (v.extractLsb' 8 6).toNat, (v.extractLsb' 14 7).toNat, v.getLsbD 21⟩
      let busy : Prop := s.sched.partEn = true ∧ ∃ x ∈ s.ctxs, (s.ctx x.1).desc.part = part ∧ (x.2.st = .resident ∨ x.2.image ≠ none)
      let meets : Prop := p.en = true ∧ ∃ x ∈ s.sched.parts, x.1 ≠ part ∧ x.2.en = true ∧
        (x.2.halves &&& p.halves ≠ 0 ∨ ∃ h, x.2.slot0 ≤ h ∧ h < x.2.slot0 + x.2.nslot ∧ p.slot0 ≤ h ∧ h < p.slot0 + p.nslot)
      ((64 < p.slot0 + p.nslot ∨ busy ∨ meets) → exec (.partWrite part v) s = .next { s with sched := { s.sched with partErr := true } }) ∧
      (p.slot0 + p.nslot ≤ 64 → ¬ busy → ¬ meets →
        ∃ t, exec (.partWrite part v) s = .next t ∧ t = { s with sched := { s.sched with parts := t.sched.parts } } ∧
          ∀ k, Tbl.getD t.sched.parts k .reset = if k = part then p else Tbl.getD s.sched.parts k .reset)) ∧
    (∀ v : BitVec 64,
      let held : Prop := ∃ x ∈ s.ctxs, x.2.st = .resident ∨ x.2.image ≠ none
      ((v.getLsbD 0 ≠ s.sched.partEn ∧ held) → exec (.partctlWrite v) s = .next { s with sched := { s.sched with partErr := true } }) ∧
      ((v.getLsbD 0 = s.sched.partEn ∨ ¬ held) → ∃ t, exec (.partctlWrite v) s = .next t ∧
        t = { s with sched := { s.sched with partEn := v.getLsbD 0, partErr := s.sched.partErr && !v.getLsbD 1 }
                     memsys := { s.memsys with dram := t.memsys.dram } } ∧
        ((v.getLsbD 0 = false ∨ s.sched.partEn = true) → t.memsys = s.memsys) ∧
        (v.getLsbD 0 = true → s.sched.partEn = false → ∀ b ∈ t.memsys.dram, b.1 % 4 ≠ 3 ∨ 1024 ≤ b.1 / 4 % 4096)))

/-- 11 R188, 14 R268, R269, 21 R382 to R384: a save takes the groups of its context off the cores into an image with all that they hold and makes the
context READY, or SAVED where a budget event asked for it; a restore places them again, PARKED with the parked time they had; a removal
ends every lane and, once no group is left, the context is REMOVED; a team moves to another core of its partition with its groups as they
were.
The readings of the model in it are log entries 60, 61, 62, 82. -/
def Obligations.ContextsAreSwapped : Prop :=
  ∀ (s : State) (q : Nat),
    let c := s.ctx q
    (∀ budget, c.st = .resident → c.image = none → c.removing = none → c.save = some budget → (∀ p ∈ s.teams, p.2.queue = q → p.2.setts = []) →
      (∀ p ∈ s.groups, p.2.ids.queue = q → p.2.leader = none ∧ p.2.inflight = [] ∧ p.2.statuses = [] ∧ p.2.trace = [] ∧ p.2.shadow = none ∧
        p.2.stops.unwritten = []) →
      (budget = true → c.snapped = true) → (budget = false → c.desc.budget = 0 ∨ c.waiting < c.desc.budget * 1000000) → c.posts = [] →
      s.shadowUsed + (s.imageOf q).bytes ≤ 768 * 2 ^ 20 →
      ∃ t im, exec (.preemption q) s = .next t ∧ (t.ctx q).image = some im ∧ (t.ctx q).st = (if budget then .saved else .ready) ∧ (t.ctx q).hw = none ∧
        (t.ctx q).save = none ∧ (∀ p ∈ t.groups, p.2.ids.queue ≠ q) ∧ (∀ x ∈ t.cmds, x.queue ≠ q) ∧ (budget = false → t.memsys = s.memsys) ∧
        (∀ core slot, (∀ p ∈ s.groups, p.2.ids.queue = q → p.1 ≠ gkey core slot) → t.group? core slot = s.group? core slot) ∧
        (∀ p ∈ s.groups, p.2.ids.queue = q → p.2.dbg.stepping = none → (p.2.ent 0).st ≠ .regroup →
          ∃ x ∈ im.groups, x.core = p.1 / 64 ∧ x.slot = p.1 % 64 ∧ x.g = { p.2 with
            act := { p.2.act with since := if p.2.act.st = .parked then s.cycle - p.2.act.since else 0, aged := 0, byAge := none,
                                      sole := false },
            dbg := x.g.dbg, block := p.2.block.issued } ∧ x.g.dbg = { p.2.dbg with stepping := none })) ∧
    (c.st = .resident → c.image = none → c.removing = none → c.save = some true → c.snapped = false →
      (∀ p ∈ s.groups, p.2.ids.queue = q → p.2.leader = none ∧ p.2.inflight = [] ∧ p.2.statuses = [] ∧ p.2.trace = [] ∧ p.2.shadow = none ∧
        p.2.stops.unwritten = []) →
      exec (.preemption q) s = .next ((s.setCtx q { c with snapped := true }).writeSnapshot q)) ∧
    (c.st = .resident → c.image = none → c.removing = none → c.save = none → c.saveDue = true → s.shadowRoom q = true →
      exec (.preemption q) s = .next (s.setCtx q { c with save := some false, saveDue := false })) ∧
    (∀ im k cl tk t x, c.st = .resident → c.removing = none → s.ctl.held = false → c.image = some im → c.restorePart = none → c.resumes = [] →
      c.answer = none → im.clusters = [(k, cl)] → im.teams = [(tk, t)] → im.groups = [x] → im.cmds = [] → cl.rows = 1 → cl.cols = 1 →
      t.teamid = 0 → t.grid = cl.grid → t.cluster = cl.cluid → t.setts = [] →
      x.g.ids.grid = cl.grid → x.g.ids.cluid = cl.cluid → x.g.ids.teamid = 0 → x.g.ids.grpid < 16 → x.g.leader = none → x.g.shadow = none →
      x.g.resv = none → x.g.block = .none → x.g.allMask ≠ 0 → s.pendings none = [] → s.tablesHold = true → s.feasible q (s.partRec q) im = true →
      (∃ r ∈ (s.partRec q).rects 1 1, s.canTake none q r.1 ⟨[⟨x.g.regs.nlanes, x.g.regs.nvr, false⟩], t.nsett, 0, []⟩ = true) →
      ∃ u core slot y, exec (.contextRestore q) s = .next u ∧ (u.ctx q).image = none ∧ u.group? core slot = some y ∧
        Rejoins s x.g y x.g.act.since ∧ (s.partRec q).has core = true ∧ u.memsys = s.memsys) ∧
    (c.removing = some false → c.image = none → s.groupsOf q = [] →
      ∃ t, exec (.contextRemoval q) s = .next t ∧ (t.ctx q).removing = some true ∧ (t.ctx q).nodes = [] ∧ (t.ctx q).widx = c.ridx ∧
        (t.ctx q).pending = none ∧ t.groups = s.groups ∧ t.memsys = s.memsys) ∧
    (∀ core slot g, c.removing = some false → c.image = none → s.groupsOf q = [(core, slot, g)] → s.group? core slot = some g → g.binds = [] →
      s.cmdsOf core slot = [] → g.leader = none → g.shadow = none → g.allMask ≠ 0 →
      ∃ t h, exec (.contextRemoval q) s = .next t ∧ t.group? core slot = some h ∧ h.allMask = 0 ∧ h.resv = none ∧ h.regs = g.regs ∧
        (t.ctx q).removing = some true) ∧
    (c.removing = some true → s.groupsOf q ≠ [] → exec (.contextRemoval q) s = .next s) ∧
    (∀ s1, c.removing = some true → s.groupsOf q = [] → c.posts = [] → s.vwrite (s.schedCore q) q c.desc.evt 9 (leBytes 8 2) = .ok s1 () →
      s1.ctxs = s.ctxs → s1.groups = s.groups →
      ∃ t, exec (.contextRemoval q) s = .next t ∧ (t.ctx q).st = .removed ∧ (t.ctx q).removing = none ∧ (t.ctx q).hw = none ∧ (t.ctx q).grids = [] ∧
        (∀ r ∈ t.fabric.reqs, r.queue ≠ some q) ∧ t.groups = s.groups ∧ t.memsys = s1.memsys ∧
        (∀ p n, c.answer = some (p, n) → t.out = s1.out ++ [.answer p n 0 []])) ∧
    (∀ core team target t slot g k cl, s.team? core team = some t → t.queue = q → t.setts = [] → core ≠ target → s.group? core slot = some g →
      (∀ p ∈ s.groups, p.1 / 64 = core → (p.2.ids.queue = q ∧ p.2.ids.grid = t.grid ∧ p.2.ids.cluid = t.cluster ∧ p.2.ids.teamid = t.teamid) → p = (gkey core slot, g)) →
      slot < 64 → g.ids.queue = q → g.ids.grid = t.grid → g.ids.cluid = t.cluster → g.ids.teamid = t.teamid → g.ids.grpid < 16 → g.ids.teamSlot = team →
      List.find? (fun c : Nat × Cluster => c.2.queue == q && c.2.grid == t.grid && c.2.cluid == t.cluster) s.clusters = some (k, cl) →
      cl.rows = 1 → cl.cols = 1 → (s.partRec q).has target = true → Settled s q →
      g.leader = none → g.shadow = none → g.resv = none → g.inflight = [] → g.statuses = [] → g.trace = [] → g.stops.unwritten = [] →
      g.dbg.stepping = none → g.block = .none → (g.ent 0).st ≠ .regroup → g.allMask ≠ 0 → s.cmdsOf core slot = [] → s.framesUsed target ≤ (s.coreSt target).nframe →
      s.tablesHold = true → s.pendings none = [] → s.canTake none q target ⟨[⟨g.regs.nlanes, g.regs.nvr, false⟩], t.nsett, 0, []⟩ = true →
      ∃ u place y, exec (.teamMigration core team target) s = .next u ∧ u.group? core slot = none ∧ u.group? target place = some y ∧
        y = { g with ids := { g.ids with teamSlot := y.ids.teamSlot }, act := y.act, dbg := y.dbg } ∧ y.act.st = .parked ∧ u.memsys = s.memsys ∧
        (g.act.st = .parked → g.act.since ≤ s.cycle → y.act.since = g.act.since))

/-! ### The die memory system (18) -/

/-- 18 R334, R338, R339, R345, R346: a die's SRAM target rises while a condition holds, falls 100 ms after the last one and obeys FORCE; a visit writes
a line back in the target mode and leaves the mode of every other line; a channel is queued for retraining once, its window opens in turn, no sooner
than 100 us after the last, and ends with its check, a failed one is queued again after 1 ms; a shape record is taken unless R334 refuses it; its
change first recalls the copies that other packages hold, and where it completes with no copy in the L2 every byte outside the old and the new
units is as before. A target change and a queueing whose figures are not those of the state change nothing (log entry 107).
The readings of the model in it are log entries 4, 52, 68, 88, 107. -/
def Obligations.DieAndStackSteps : Prop :=
  ∀ (s : State),
    (∀ die ce tmin tmax quiet, die < 4 →
      let d := s.die die
      let i : Instr := .eccTargetChange die ce tmin tmax quiet
      let recent : Nat := (d.ceTimes.filter fun t => s.time < t + 1000000).length
      let holds : Prop := d.cethr ≤ recent ∨ d.jlow.toInt ≤ d.tlow.toInt ∨ d.thigh.toInt ≤ d.jhigh.toInt ∨ d.force = 2
      let within : Prop := ∃ x, d.lastHot = some x ∧ s.time < x + 100000000
      let seen : Prop := ce = recent ∧ tmin = d.jlow.toInt ∧ tmax = d.jhigh.toInt ∧ (quiet = true ↔ ¬ within)
      (seen → holds → exec i s = .next (s.setDie die { d with target := d.force != 1, hotAt := some s.time })) ∧
      (seen → ¬ holds → (d.force = 1 ∨ ¬ within) → exec i s = .next (s.setDie die { d with target := false })) ∧
      ((¬ seen ∨ (¬ holds ∧ d.force ≠ 1 ∧ within)) → exec i s = .next s)) ∧
    (∀ die line,
      let d := s.die die
      let bad : Prop := ∃ p ∈ d.flips, p.1 / 8 = line ∧ (if d.modeOf line then 2 else 1) < p.2
      ((4 ≤ die ∨ dieLines ≤ line ∨ bad) → exec (.dresserVisit die line) s = .next s) ∧
      (die < 4 → line < dieLines → ¬ bad → d.odd.Nodup → (∀ l ∈ d.odd, l < dieLines) → ∃ t, exec (.dresserVisit die line) s = .next t ∧
        t = s.setDie die { d with mode := (t.die die).mode, odd := (t.die die).odd, flips := (t.die die).flips } ∧
        (t.die die).modeOf line = d.target ∧ (∀ l, l < dieLines → l ≠ line → (t.die die).modeOf l = d.modeOf l) ∧
        ∀ p, p ∈ (t.die die).flips ↔ p ∈ d.flips ∧ p.1 / 8 ≠ line)) ∧
    (∀ stack,
      let k := s.stack stack
      let sets (i : Instr) (k1 : Stack) : Prop := exec i s = .next (s.setStack stack k1)
      let queued (chan : Nat) : List Nat := if chan ∈ k.queue then k.queue else k.queue ++ [chan]
      (∀ chan tempMoved ce, stack < 12 → chan < 32 →
        let i : Instr := .retrainQueue stack chan tempMoved ce
        let moved : Prop := 8 ≤ (k.temp.toInt - (Tbl.getD k.trained chan 0).toInt).natAbs
        let errors : Nat := (k.ceTimes.filter fun e => decide (e.1 = chan ∧ s.time < e.2 + 1000000)).length
        let seen : Prop := (tempMoved = true ↔ moved) ∧ ce = errors
        (seen → k.en = true → (moved ∨ k.ethr ≤ errors) → sets i { k with queue := queued chan }) ∧
        ((¬ seen ∨ k.en = false ∨ (¬ moved ∧ errors < k.ethr)) → exec i s = .next s)) ∧
      (k.active = true →
        sets (.retrainingWindow stack true) { k with active := false, closedAt := some s.time, trained := Tbl.setD k.trained k.chan k.temp 0 } ∧
        sets (.retrainingWindow stack false)
          { k with active := false, closedAt := some s.time, fail := true, requeue := k.requeue ++ [(k.chan, s.time)] }) ∧
      (∀ pass c rest, k.active = false → (∀ x, k.closedAt = some x → x + 100000 ≤ s.time) → k.queue = c :: rest →
        sets (.retrainingWindow stack pass) { k with active := true, chan := c, queue := rest, windows := Nat.min (k.windows + 1) (2 ^ 17 - 1) }) ∧
      (∀ pass, k.active = false → (k.queue = [] ∨ ∃ x, k.closedAt = some x ∧ s.time < x + 100000) →
        exec (.retrainingWindow stack pass) s = .next s) ∧
      (∀ chan, k.en = true → (∃ x, (chan, x) ∈ k.requeue ∧ x + 1000000 ≤ s.time) → sets (.retrainRequeue stack chan)
        { k with queue := queued chan, requeue := k.requeue.filter fun r => r.1 ≠ chan }) ∧
      (∀ chan, (k.en = false ∨ ∀ x, (chan, x) ∈ k.requeue → s.time < x + 1000000) → exec (.retrainRequeue stack chan) s = .next s)) ∧
    (∀ (rec : Nat) (v : BitVec 64), rec < 64 →
      let m := s.memsys
      let h : Shape := ⟨(v.extractLsb' 0 16).toNat, (v.extractLsb' 16 16).toNat, (v.extractLsb' 32 2).toNat, Tbl.getD m.param rec 0⟩
      let old := Tbl.getD m.shapes rec .off
      let covers (x : Shape) : Nat × Nat := if x.kind = 0 then (0, 0) else (0xC00000 * x.base, 0xC00000 * x.units)
      let meets : Prop := ∃ p ∈ m.shapes, p.1 ≠ rec ∧ p.2.kind ≠ 0 ∧ p.2.base < h.base + h.units ∧ h.base < p.2.base + p.2.units
      let refused : Prop := m.shapeBusy = true ∨ h.kind = 3 ∨
        (h.kind ≠ 0 ∧ (61440 < h.base + h.units ∨ meets ∨ h.param = 0 ∨ (h.kind = 2 ∧ h.units % h.param ≠ 0)))
      (refused → exec (.shapeRecordWrite rec v) s = .next { s with memsys := { m with shapeErr := true, shapeErrRec := rec } }) ∧
      (¬ refused → ∃ t, exec (.shapeRecordWrite rec v) s = .next t ∧
        t = { s with memsys := { m with shapes := t.memsys.shapes, shapeBusy := true, shapeRanges := [covers old, covers h] } } ∧
        ∀ k, Tbl.getD t.memsys.shapes k .off = if k = rec then h else Tbl.getD m.shapes k .off)) ∧
    (s.memsys.shapeBusy = false → exec .shapeChangeComplete s = .next s) ∧
    (let rs := s.memsys.shapeRanges
     let held : Prop := ∃ r ∈ rs, s.heldElsewhere r.1 r.2 ≠ []
     let waits : Prop := ∃ r ∈ rs, s.rangeWaits r.1 r.2 = true
     s.memsys.shapeBusy = true →
      (held → ∃ t, exec .shapeChangeComplete s = .next t ∧ t = { s with out := t.out, fabric := { s.fabric with recalled := t.fabric.recalled } } ∧
        ∀ r ∈ rs, ∀ h ∈ s.heldElsewhere r.1 r.2, ∀ p ∈ h.2, ∃ share, (h.1, p, share) ∈ t.fabric.recalled) ∧
      (¬ held → waits → exec .shapeChangeComplete s = .next s) ∧
      (¬ held → ¬ waits → ∃ t, exec .shapeChangeComplete s = .next t ∧ t.memsys.shapeBusy = false ∧ t.memsys.shapeRanges = [] ∧
        ((∀ x ∈ s.memsys.l2, ∀ r ∈ rs, lpaOf (x.1 * 32) < r.1 ∨ r.1 + r.2 ≤ lpaOf (x.1 * 32)) →
          t.groups = s.groups ∧ t.memsys.l2 = s.memsys.l2 ∧ t.memsys.shapes = s.memsys.shapes ∧
          ∀ a, (∀ r ∈ rs, a < r.1 ∨ r.1 + r.2 ≤ a) → t.mem.byte a = s.mem.byte a)))

/-! ### The host port and the management queue (23) -/

/-- 23 R401, R402, R405: a write or a read of the host is performed where a window that its queue pair may use gives its key the right, and else is a
remote access error with no effect; an atomic always is; the accesses of a queue pair are performed in order, so one that waits holds up those
behind it; the write of a removed context's descriptor makes it IDLE; MB_OUT is sent while SEND is set, which clears.
The readings of the model in it are log entry 79. -/
def Obligations.HostPortAccesses : Prop :=
  ∀ (s : State) (qp key lpa : Nat),
    let pa := domAddr s.fabric.self lpa
    let first : Prop := ∀ p ∈ s.ctl.packets, p.qp ≠ qp
    let denied (i : Instr) : Prop := exec i s = .next { s with out := s.out ++ [.rdma qp true []] }
    let waiting (p : RdmaPacket) : State := { s with ctl := { s.ctl with packets := s.ctl.packets ++ [p] } }
    (∀ data, first → ¬ Windowed s qp key lpa data.length true → denied (.rdmaWrite qp key lpa data)) ∧
    (∀ len, first → ¬ Windowed s qp key lpa len false → denied (.rdmaRead qp key lpa len)) ∧ denied (.rdmaAtomic qp) ∧
    (∀ i p p0 rest s1, ((∃ data, i = .rdmaWrite qp key lpa data ∧ p = ⟨qp, true, key, lpa, data, 0⟩) ∨
        ∃ len, i = .rdmaRead qp key lpa len ∧ p = ⟨qp, false, key, lpa, [], len⟩) →
      (s.ctl.packets.filter fun x => x.qp == qp) = p0 :: rest → (waiting p).performPacket p0 = .wait s1 → exec i s = .next s1) ∧
    (∀ data, first → CleanAlone s → lpa + data.length ≤ dataEnd → Windowed s qp key lpa data.length true →
      ∃ t, exec (.rdmaWrite qp key lpa data) s = .next t ∧ BytesPut s t pa data ∧ t.groups = s.groups ∧ t.ctl = s.ctl ∧
        t.out = s.out ++ [.rdma qp false []] ∧
        ∀ q, (s.ctx q).st = .removed → s.sched.qdtBase + 64 * q < 2 ^ 51 - 64 →
          ((s.sched.qdtBase + 64 * q < lpa + data.length ∧ lpa < s.sched.qdtBase + 64 * q + 64) → (t.ctx q).st = .idle) ∧
          (¬ (s.sched.qdtBase + 64 * q < lpa + data.length ∧ lpa < s.sched.qdtBase + 64 * q + 64) → t.ctx q = s.ctx q)) ∧
    (∀ len, first → CleanAlone s → lpa + len ≤ dataEnd → Windowed s qp key lpa len false →
      ∃ t, exec (.rdmaRead qp key lpa len) s = .next t ∧ CachedSame s t ∧ t.groups = s.groups ∧ t.ctl = s.ctl ∧
        t.out = s.out ++ [.rdma qp false ((List.range len).map fun i => s.byteAt (pa + i))]) ∧
    (s.ctl.send = true → exec .mailboxSend s =
      .next { s with ctl := { s.ctl with send := false }, out := s.out ++ [.mailbox s.ctl.mbQp s.ctl.mbOut] }) ∧
    (s.ctl.send = false → exec .mailboxSend s = .next s)

/-- 23 R403 to R405, R411, R401: the management commands answer as R403 says. In the winding all but CREAD, CWRITE and WINSET answer 4; a nonzero
zero field or an unknown OP answers 1; a status other than 0 changes nothing. CREAD and CWRITE act on a control register (a misaligned address answers 1: log entry 103), RESUME makes a SAVED
context READY, REMOVE and RESTORE are answered when they are done, MBOX fills MB_IN, WINSET sets a window (its layout is log entry 14).
The readings of the model in it are log entries 79, 82. -/
def Obligations.ManagementCommands : Prop :=
  ∀ (s : State) (qp : Nat) (w : MgmtWords),
    let arg := cmdField w 32 32
    let word (i : Nat) : BitVec 64 := w.getD i 0
    let a := (word 1).toNat
    let c := s.ctx arg
    let foreign : Prop := OtherPartition s qp (s.queuePart arg)
    let tells (i : Instr) (status : Nat) : Prop := Answers i s qp w status [] s
    let good : Prop := a < 2 ^ 40 ∧ a % 8 = 0
    let ops : List (Nat × Instr) :=
      [(1, .cread qp w), (2, .cwrite qp w), (3, .load qp w), (4, .resumeCommand qp w), (5, .remove qp w), (6, .restore qp w), (7, .mbox qp w),
       (8, .attest qp w), (9, .winset qp w), (10, .keyset qp w)]
    (∀ x ∈ ops, s.ctl.step ≠ 5 → x.1 ≠ 1 → x.1 ≠ 2 → x.1 ≠ 9 → cmdField w 0 8 = x.1 → PairFree s qp → CtxFree s arg → tells x.2 4) ∧
    (∀ x ∈ ops, (s.ctl.step = 5 ∨ x.1 = 1 ∨ x.1 = 2 ∨ x.1 = 9) → cmdField w 0 8 = x.1 → cmdField w 8 8 ≠ 0 → PairFree s qp → CtxFree s arg → tells x.2 1) ∧
    ((cmdField w 0 8 = 0 ∨ 10 < cmdField w 0 8) → PairFree s qp → tells (.badManagementCommand qp w) (if s.ctl.step = 5 then 1 else 4)) ∧
    (Taken s qp 1 w → (good → Answers (.cread qp w) s qp w 0 [s.ctlRead a] s) ∧ (¬ good → tells (.cread qp w) 1)) ∧
    (Taken s qp 2 w → (¬ good → tells (.cwrite qp w) 1) ∧ (good → firmwareRange a = true → tells (.cwrite qp w) 2) ∧
      (good → firmwareRange a = false →
        ∃ t, exec (.controlRegisterWrite a (word 2) false) s = .next t ∧ Answers (.cwrite qp w) s qp w 0 [] t)) ∧
    (CtxFree s arg → Taken s qp 4 w →
      (16384 ≤ arg → tells (.resumeCommand qp w) 1) ∧
      (arg < 16384 → foreign → tells (.resumeCommand qp w) 2) ∧
      (arg < 16384 → ¬ foreign → (c.st ≠ .saved ∨ c.removing ≠ none) → tells (.resumeCommand qp w) 3) ∧
      (arg < 16384 → ¬ foreign → c.st = .saved → c.removing = none →
        Answers (.resumeCommand qp w) s qp w 0 [] (s.setCtx arg { c with st := .ready, readyAt := s.time }))) ∧
    (CtxFree s arg → Taken s qp 5 w →
      (16384 ≤ arg → tells (.remove qp w) 1) ∧
      (arg < 16384 → foreign → tells (.remove qp w) 2) ∧
      (arg < 16384 → ¬ foreign → c.st = .removed → tells (.remove qp w) 3) ∧
      (arg < 16384 → ¬ foreign → c.st ≠ .removed →
        exec (.remove qp w) s = .next (s.setCtx arg { c with
          desc := if c.st = .idle then (s.readDesc arg).1 else c.desc, removing := some (c.removing.getD false),
          measurement := List.replicate 48 0, answer := some (qp, cmdField w 16 16) }))) ∧
    (CtxFree s arg → Taken s qp 6 w →
      ((16384 ≤ arg ∨ 8 ≤ a) → tells (.restore qp w) 1) ∧
      (arg < 16384 → a < 8 → foreign → tells (.restore qp w) 2) ∧
      (arg < 16384 → a < 8 → ¬ foreign → (c.st ≠ .saved ∨ c.image = none ∨ c.removing ≠ none) → tells (.restore qp w) 3) ∧
      (arg < 16384 → a < 8 → ¬ foreign → c.st = .saved → c.image ≠ none → c.removing = none →
        exec (.restore qp w) s = .next (s.setCtx arg { c with restorePart := some a, answer := some (qp, cmdField w 16 16) }))) ∧
    (Taken s qp 7 w → (s.ctl.inFull = true → tells (.mbox qp w) 3) ∧
      (s.ctl.inFull = false → Answers (.mbox qp w) s qp w 0 []
        { s with ctl := { s.ctl with mbIn := [word 1, word 2, word 3, word 4, word 5, word 6], inFull := true, mbQp := qp } })) ∧
    (Taken s qp 9 w →
      let part := ((word 3).extractLsb' 34 3).toNat
      let beyond : Prop := OtherPartition s qp part ∨ ∃ x, Tbl.find? s.ctl.windows arg = some x ∧ OtherPartition s qp x.part
      ((1024 ≤ arg ∨ 720 * 2 ^ 30 < a + (word 2).toNat) → tells (.winset qp w) 1) ∧
      (arg < 1024 → a + (word 2).toNat ≤ 720 * 2 ^ 30 → beyond → tells (.winset qp w) 2) ∧
      (arg < 1024 → a + (word 2).toNat ≤ 720 * 2 ^ 30 → ¬ beyond →
        let x : Window := ⟨a, (word 2).toNat, ((word 3).extractLsb' 0 32).toNat, (word 3).getLsbD 32, (word 3).getLsbD 33, part⟩
        ∃ t, Answers (.winset qp w) s qp w 0 [] t ∧ t = { s with ctl := { s.ctl with windows := t.ctl.windows } } ∧
          ∀ k, Tbl.find? t.ctl.windows k = if k = arg then some x else Tbl.find? s.ctl.windows k))

/-- 23 R406, R407, R409, R410: LOAD answers 3 for a context that is not IDLE with a valid descriptor and 7 for what is no container; a container whose
one segment is a .bss of no bytes is loaded where both signatures of its digest verify, and the measurement takes the digest, and else answers 5 with
the measurement as it was. ATTEST puts the record and its signatures at the window. KEYSET loads the keys derived from a root key that unwraps
under the transport key of the pair's last ATTEST; of the granules under its id those alone match their tags that were sealed with these keys.
The readings of the model in it are log entries 10, 80, 81, 84, 102. -/
def Obligations.LoadAttestKeys : Prop :=
  ∀ (s : State) (qp : Nat) (w : MgmtWords),
    let arg := cmdField w 32 32
    let word (i : Nat) : Nat := (w.getD i 0).toNat
    let c := s.ctx arg
    let foreign : Prop := OtherPartition s qp (s.queuePart arg)
    let tells (i : Instr) (status : Nat) : Prop := Answers i s qp w status [] s
    (CtxFree s arg → Taken s qp 3 w →
      let idle : Prop := c.st = .idle ∧ c.removing = none ∧ (s.readDesc arg).1.valid = true ∧ s.hasWork arg = false
      (16384 ≤ arg → tells (.load qp w) 1) ∧
      (arg < 16384 → foreign → tells (.load qp w) 2) ∧
      (arg < 16384 → ¬ foreign → ¬ idle → tells (.load qp w) 3) ∧
      (arg < 16384 → ¬ foreign → idle → CleanAlone s → word 1 + word 2 ≤ 720 * 2 ^ 30 →
        let file (off n : Nat) : List Byte := (List.range n).map fun i => s.byteAt (domAddr s.fabric.self (word 1 + off + i))
        let val (off n : Nat) : Nat := valueIn (fun i => s.byteAt (domAddr s.fabric.self (word 1 + i))) off n
        let ends (st : Nat) (m : List Byte) : Prop := ∃ t, Answers (.load qp w) s qp w st [] t ∧
          t.ctx arg = { c with measurement := m, loadAt := none } ∧ CachedSame s t ∧ t.groups = s.groups ∧ t.out = s.out
        (32 ≤ word 2 → val 0 4 ≠ 0x31435856 → ends 7 c.measurement) ∧
        (val 0 4 = 0x31435856 → val 4 2 = 1 → val 24 8 = 0 → 96 ≤ word 2 →
          val 32 1 = 3 → val 33 1 ≤ 7 → 3 ≤ val 34 1 → val 34 1 ≤ 21 → val 35 5 = 0 → val 40 8 = 0 → val 48 8 = 0 → val 56 8 % 2 ^ val 34 1 = 0 →
          val 64 8 = 0 → val 72 8 + val 80 4 ≤ word 2 → val 84 12 = 0 →
          let digest := sha384 (file 32 40 ++ List.replicate 12 0 ++ file 84 12)
          let keys := Config.trustedKeys (val 33 1)
          let signed : Prop := 96 ≤ val 80 4 ∧ Config.ecdsaOk keys.1 digest (file (val 72 8) 96) = true ∧
            Config.lmsOk keys.2 digest (file (val 72 8 + 96) (val 80 4 - 96)) = true
          (signed → ends 0 (sha384 (c.measurement ++ digest))) ∧ (¬ signed → ends 5 c.measurement)))) ∧
    (CtxFree s arg → Taken s qp 8 w →
      let nonce := (List.range 6).flatMap fun i => leBytes 8 (word (i + 1))
      let body := (Config.firmwareMeasurement ++ List.replicate 48 0).take 48 ++ c.measurement ++ nonce ++ leBytes 4 s.fabric.self ++
        leBytes 4 (s.domEnt s.fabric.self).cell
      let data := body ++ (Config.identityEcdsa body ++ List.replicate 96 0).take 96 ++ List.replicate 8 0 ++ Config.identityLms body
      let slot := (w.getD 7 0).extractLsb' 0 10
      (Tbl.find? s.ctl.windows slot.toNat = none → tells (.attest qp w) 1) ∧
      (∀ x, Tbl.find? s.ctl.windows slot.toNat = some x →
        ((16384 ≤ arg ∨ x.len < data.length) → tells (.attest qp w) 1) ∧
        (arg < 16384 → data.length ≤ x.len → (foreign ∨ OtherPartition s qp x.part) → tells (.attest qp w) 2) ∧
        (arg < 16384 → data.length ≤ x.len → ¬ foreign → ¬ OtherPartition s qp x.part → CleanAlone s → x.base + data.length ≤ dataEnd →
          ∃ t, Answers (.attest qp w) s qp w 0 [] t ∧ BytesPut s t (domAddr s.fabric.self x.base) data ∧ t.groups = s.groups ∧ t.out = s.out ∧
            Tbl.find? t.ctl.tenants qp = some nonce))) ∧
    (Taken s qp 10 w →
      let wrapped := (List.range 5).flatMap fun i => leBytes 8 (word (i + 1))
      let root : Option (List Byte) := (Tbl.find? s.ctl.tenants qp).bind fun tenant =>
        keyUnwrap ((Config.transportKey tenant ++ List.replicate 32 0).take 32) wrapped
      ((arg = 0 ∨ 255 < arg) → tells (.keyset qp w) 1) ∧
      (arg ≠ 0 → arg ≤ 255 → root = none → tells (.keyset qp w) 5) ∧
      (∀ k, arg ≠ 0 → arg ≤ 255 → root = some k →
        ∃ t, Answers (.keyset qp w) s qp w 0 [] t ∧ t = { s with memsys := { s.memsys with memKeys := t.memsys.memKeys } } ∧
          (∀ j, Tbl.find? t.memsys.memKeys j = if j = arg then some (deriveKeys s.fabric.self arg k) else Tbl.find? s.memsys.memKeys j) ∧
          ∀ lg, (s.mem.keyId (lg * 128) = arg → (t.tagOk lg = true ↔ Tbl.find? s.mem.seals lg = some (deriveKeys s.fabric.self arg k))) ∧
            (s.mem.keyId (lg * 128) ≠ arg → t.tagOk lg = s.tagOk lg)))

/-! ### The package controller (23) -/

/-- 23 R411 to R413: a package reset leaves the machine as after reset; the winding goes from step to step as its sensors and its checks allow, fences a
stack off that has failed three times, releases each die by its own sensors, starts again when a step's bound is exceeded, and ends with the dies at
2.1 GHz; the regulator moves a die's
clock by at most one step within FMIN and FMAX; where it would go below 1.2 GHz, at a thermal stop and at the module's limit the contexts
concerned are to be saved. A winding step with another reading than the state's lowest sensor changes nothing (log entry 107).
The readings of the model in it are log entries 68, 78, 83, 107. -/
def Obligations.PackageController : Prop :=
  ∀ (s : State),
    let c := s.ctl
    let same (i : Instr) : Prop := exec i s = .next s
    exec .packageReset s = .next { State.reset with turn := s.turn, tick := s.tick, free := s.free, nextId := s.nextId, out := s.out } ∧
    (∀ (temp : Int) (failed : BitVec 12),
      let i : Instr := .windingStep temp failed
      let seen : Prop := (∀ d, d < 4 → temp ≤ (s.die d).jlow.toInt) ∧ ∃ d, d < 4 ∧ temp = (s.die d).jlow.toInt
      let next (c1 : Ctl) : Ctl := { c1 with step := c.step + 1, retries := [], passed := 0 }
      ((¬ seen ∨ c.rewait = true ∨ c.step = 0 ∨ 5 ≤ c.step) → same i) ∧
      (seen → c.rewait = false → c.step = 1 →
        let warm : Prop := ∀ d, d < 4 → -25 ≤ (s.die d).jlow.toInt
        (warm → exec i s = .next { s with ctl := next c }) ∧ (¬ warm → same i)) ∧
      (seen → c.rewait = false → c.step = 2 → ∃ c1 : Ctl, c1 = { c with retries := c1.retries, passed := c1.passed, fenced := c1.fenced } ∧
        (∀ k, k < 12 →
          let tried : Bool := !c.fenced.getLsbD k && !c.passed.getLsbD k
          let tries := Tbl.getD c.retries k 0
          c1.passed.getLsbD k = (c.passed.getLsbD k || tried && !failed.getLsbD k) ∧
          c1.fenced.getLsbD k = (c.fenced.getLsbD k || tried && failed.getLsbD k && decide (2 ≤ tries)) ∧
          Tbl.getD c1.retries k 0 = if (tried && failed.getLsbD k) = true ∧ tries < 2 then tries + 1 else tries) ∧
        let ready : Prop := ∀ k, k < 12 → c1.fenced.getLsbD k = false → c1.passed.getLsbD k = true
        (ready → exec i s = .next { s with ctl := next c1 }) ∧ (¬ ready → exec i s = .next { s with ctl := c1 })) ∧
      (seen → c.rewait = false → c.step = 3 → ∃ c1 : Ctl, c1 = { c with passed := c1.passed, trainedAt := c1.trainedAt } ∧
        (∀ k, k < 12 →
          c1.passed.getLsbD k = (if c.fenced.getLsbD k then c.passed.getLsbD k else !failed.getLsbD k) ∧
          Tbl.find? c1.trainedAt k =
            if c.fenced.getLsbD k = false ∧ failed.getLsbD k = false then some (s.stack k).temp else Tbl.find? c.trainedAt k) ∧
        let ready : Prop := ∀ k, k < 12 → c.fenced.getLsbD k = false → c1.passed.getLsbD k = true ∧ -5 ≤ (s.stack k).temp.toInt
        (ready → exec i s = .next { s with ctl := next c1 }) ∧ (¬ ready → exec i s = .next { s with ctl := c1 })) ∧
      (seen → c.rewait = false → c.step = 4 → ∃ t, exec i s = .next t ∧ t = { s with dies := t.dies, hbm := t.hbm, ctl := t.ctl } ∧
        (∀ d, t.die d = if d < 4 ∧ -5 < (s.die d).jlow.toInt then { s.die d with freq := 84 } else s.die d) ∧
        (∀ k, t.stack k = { s.stack k with trained := (t.stack k).trained } ∧ ∀ chan, Tbl.getD (t.stack k).trained chan 0 =
          if k < 12 ∧ c.fenced.getLsbD k = false ∧ chan < 32 then Tbl.getD c.trainedAt k 0 else Tbl.getD (s.stack k).trained chan 0) ∧
        ((∀ d, d < 4 → (t.die d).freq = 84) → t.ctl = next c) ∧ ((∃ d, d < 4 ∧ (t.die d).freq ≠ 84) → t.ctl = c))) ∧
    (c.step = 5 → same .windingRestart) ∧
    (c.step ≠ 5 → c.rewait = false → exec .windingRestart s = .next { s with ctl := { c with fails := Nat.min 7 (c.fails + 1), rewait := true } }) ∧
    (c.step ≠ 5 → c.rewait = true → exec .windingRestart s = .next { s with ctl := { c with step := 1, rewait := false, retries := [], passed := 0 } }) ∧
    (∀ die, die < 4 →
      let d := s.die die
      exec (.cycleStretch die) s = .next (s.setDie die { d with stretch := Nat.min (2 ^ 32 - 1) (d.stretch + 1), recent := d.recent + 1 }) ∧
      (∃ t, exec (.thermalStop die) s = .next t ∧ t.die die = { d with stopped := true } ∧ AsksSaves s t (OnDie s die)) ∧
      ∀ power (tmax : Int), c.step = 5 →
        let down : Bool := decide (64 < d.recent ∨ (if c.derated then 3600 else 4400) < power ∨ 100 ≤ tmax)
        let freq := if d.freq < d.fmin then d.freq + 1
          else if d.fmax < d.freq then d.freq - 1
          else if down then Nat.max d.fmin (d.freq - 1)
          else if d.recent = 0 then Nat.min d.fmax (d.freq + 1)
          else d.freq
        let d1 := { d with freq := freq, recent := 0, power := power / 4 }
        ((down = false ∨ 48 < d.freq) → exec (.regulatorTick die power tmax) s = .next (s.setDie die d1)) ∧
        (down = true → d.freq ≤ 48 → ∃ t, exec (.regulatorTick die power tmax) s = .next t ∧ t.die die = { d1 with stopped := true } ∧
          AsksSaves s t (OnDie s die))) ∧
    (∀ die power tmax, (4 ≤ die ∨ c.step ≠ 5) → same (.regulatorTick die power tmax)) ∧
    (∃ t, exec .moduleLimitStop s = .next t ∧ t.ctl = { c with held := true } ∧ AsksSaves s t fun _ => True) ∧
    (c.held = true → exec .moduleLimitRecovery s = .next { s with ctl := { c with held := false } }) ∧ (c.held = false → same .moduleLimitRecovery) ∧
    ∀ inside, exec (.deratedBand inside) s = .next { s with ctl := { c with derated := inside } }

/-! ### The fabric (24) -/

/-- 13 R235, 24 R418, R420, R421, R424, R427, R429, R435: a request from a package that the firewall or a release shuts out is answered with cause 0x33
or 0x36; a granule that nobody holds is given in E or M, and may be held as a partial; a reader joins the sharers; a request that completes a
conflict is refused with cause 0x20, naming the word; where other packages must give up or share their copies they are recalled and the request
waits; an atomic is performed once for its token; memory-side requests act on memory; an owner's upgrade and write-back reach the entry and the
memory.
The readings of the model in it are log entries 12, 70, 71, 72, 73, 74. -/
def Obligations.HomeServesRequests : Prop :=
  ∀ (s : State) (pkg lpa : Nat),
    let lg := lpa / 128
    let pg := s.granuleNo lg
    let pa := domAddr s.fabric.self lpa
    let k := s.cellOf pkg
    let unlimited : Prop := Tbl.getD s.fabric.rate k 0 = 0
    let untracked : Prop := s.track.acc = [] ∧ s.track.cmds = []
    let good : Prop := GoodGranule s lg ∧ s.inWindow lpa = false
    (∀ ws sec ms,
      let i : Instr := .rs pkg ⟨lpa, ws, sec⟩ ms
      (¬ AsksHome s pkg lpa → s.fabric.self < 512 → exec i s = .next s) ∧
      (AsksHome s pkg lpa → unlimited → ¬ FirewallOpen s pkg lpa true false → Responds i s s pkg lpa 0x33 []) ∧
      (AsksHome s pkg lpa → unlimited → FirewallOpen s pkg lpa true false → InRelease s pkg lpa → Responds i s s pkg lpa 0x36 [])) ∧
    (∀ ws sec ms, AsksHome s pkg lpa → unlimited → ¬ FirewallOpen s pkg lpa true true → Responds (.rx pkg ⟨lpa, ws, sec⟩ ms) s s pkg lpa 0x33 []) ∧
    (∀ ws sec op t, AsksHome s pkg lpa → unlimited → ¬ FirewallOpen s pkg lpa false true → Responds (.cb pkg ⟨lpa, ws, sec⟩ op t) s s pkg lpa 0x33 []) ∧
    (∀ ws sec, AsksHome s pkg lpa → FirewallOpen s pkg lpa true false → ¬ InRelease s pkg lpa → ¬ unlimited →
      65536 < Tbl.getD s.fabric.bucket k 0 + 128 → exec (.rs pkg ⟨lpa, ws, sec⟩ none) s = .next s) ∧
    (AsksHome s pkg lpa → unlimited → ¬ InRelease s pkg lpa →
      (∀ ws sec, FirewallOpen s pkg lpa true false →
        let i : Instr := .rs pkg ⟨lpa, ws, sec⟩ none
        let entered (s1 : State) (e : DirEnt) : Prop := FarRecorded (s.setDir lg e) s1 pkg .read sec (s.wordsOf lpa ws)
        (Unheld s lg → untracked → pkg ≠ s.fabric.self → ∃ s1, entered s1 (soleHolder s .e 0 pkg) ∧
          Responds i s s1 pkg lpa 0 (s.granuleOut pg ++ [1])) ∧
        (∀ e, s.dirEnt lg = some e → lg ∉ s.fabric.sweep → Tbl.find? s.fabric.supplied lg = none → e.st = .s → GoodGranule s lg → untracked →
          ∃ s1, entered s1 (joinedBy s e pkg) ∧ Responds i s s1 pkg lpa 0 (s.granuleOut pg ++ [0])) ∧
        (∀ e, s.dirEnt lg = some e → lg ∉ s.fabric.sweep → Tbl.find? s.fabric.supplied lg = none → (e.st = .e ∨ e.st = .m ∨ e.st = .o) →
          e.owner ≠ pkg → e.owner ≠ s.fabric.self → RecallsFrom i s lg true fun p => p = e.owner) ∧
        (∀ w0 a, ws = [w0] → Unheld s lg → pkg ≠ s.fabric.self → a ∈ s.track.acc → a.word = pg * 32 + w0 % 32 → a.space = 0 → a.kind = .write →
          s.track.openAt a.party (s.scopeOf pkg) a.tick (Tbl.getD s.track.farStart pkg 0) = true →
          ∃ data, Responds i s s pkg lpa 0x20 data ∧ data.length = 5 ∧ data.getD 4 0 = BitVec.ofNat 8 (4 * (w0 % 32)))) ∧
      (∀ ws sec n, FirewallOpen s pkg lpa true false → s.dirEnt lg = none → good → s.mem.poisonOf (lpa / 32) = 0 →
        ∃ s1, s1 = { s with memsys := { s.memsys with dram := s1.memsys.dram, uses := s1.memsys.uses } } ∧
          Responds (.rs pkg ⟨lpa, ws, sec⟩ (some n)) s s1 pkg lpa 0 ((List.range n).map fun i => s.mem.byte (lpa + i))) ∧
      (∀ ws sec, FirewallOpen s pkg lpa true true →
        let i : Instr := .rx pkg ⟨lpa, ws, sec⟩ none
        (Unheld s lg → untracked → pkg ≠ s.fabric.self →
          ∃ s1, FarRecorded (s.setDir lg (soleHolder s .m 0 pkg)) s1 pkg .write false (s.wordsOf lpa ws) ∧
            Responds i s s1 pkg lpa 0 (s.granuleOut pg ++ [0])) ∧
        (∀ e, s.dirEnt lg = some e → lg ∉ s.fabric.sweep → (e.st = .s ∨ e.st = .e ∨ e.st = .m ∨ e.st = .o) →
          (∃ q, HeldBy s e q ∧ q ≠ s.fabric.self ∧ q ≠ pkg) →
          RecallsFrom i s lg false fun p => HeldBy s e p ∧ p ≠ s.fabric.self ∧ p ≠ pkg) ∧
        (∀ d : List Byte, s.dirEnt lg = none → (∀ i, i < 4 → s.mem.poisonOf (4 * lg + i) = 0) → good → lpa % 32 + d.length ≤ 32 →
          ∃ s1, Responds (.rx pkg ⟨lpa, ws, sec⟩ (some d)) s s1 pkg lpa 0 [] ∧ s1.groups = s.groups ∧
            ∀ x, s1.mem.byte x = if lpa ≤ x ∧ x < lpa + d.length then d.getD (x - lpa) 0 else s.mem.byte x)) ∧
      (∀ ws sec op t, FirewallOpen s pkg lpa false true → Unheld s lg → untracked →
        ∃ s1, FarRecorded (s.setDir lg (soleHolder s .c (op.code.toNat + 8 * t.code.toNat) pkg)) s1 pkg .fold false (s.wordsOf lpa ws) ∧
          Responds (.cb pkg ⟨lpa, ws, sec⟩ op t) s s1 pkg lpa 0 []) ∧
      (∀ seq op t order (b c : BitVec 64) ms,
        let i : Instr := .atHome pkg lpa seq op t b c ⟨order, ms⟩
        let n := redW t / 8
        let young := s.fabric.replay.filter fun r => decide (s.time < r.at_ + 200000)
        let known (r : Replay) : Prop := (s.fabric.replay.find? fun r => r.pkg == pkg && r.seq == seq) = some r
        (∀ r, known r → Responds i s s pkg lpa 0 (leBytes n r.old)) ∧
        ((∀ r, ¬ known r) → 4096 ≤ young.length → Responds i s s pkg lpa 0xFF []) ∧
        ((∀ r, ¬ known r) → young.length < 4096 → FirewallOpen s pkg lpa true true → Unheld s lg → untracked → s.inWindow lpa = false →
          GoodStacks s → OwnL2 s → lpa % n = 0 → b.toNat < 2 ^ redW t → c.toNat < 2 ^ redW t →
          let ap : Aperture := if ms then .ms else .cached
          let a := viewAddr ap pa
          let old := valueIn (s.view ap) a n
          ∃ s1 new, AtomResult op t old b.toNat c.toNat new ∧ Responds i s s1 pkg lpa 0 (leBytes n old) ∧ s1.groups = s.groups ∧
            (∀ x, Own s ap x → s1.view ap x = putIn (s.view ap) a n new x) ∧ s1.fabric.replay =
              (if s.fabric.replay.length < 4096 then s.fabric.replay else young) ++ [⟨pkg, seq, old, s.time⟩]))) ∧
    (∀ gran e, s.dirEnt gran = some e →
      ((e.st = .e ∧ e.owner = pkg ∧ (s.domEnt pkg).dead = false) →
        exec (.upgradeNotice pkg gran) s = .next (s.setDir gran { e with st := .m })) ∧
      (¬ (e.st = .e ∧ e.owner = pkg ∧ (s.domEnt pkg).dead = false) → exec (.upgradeNotice pkg gran) s = .next s)) ∧
    (∀ gran e keep (data : List Byte), AsksHome s pkg (gran * 128) → gran ∉ s.fabric.sweep → s.dirEnt gran = some e → e.st = .m → e.owner = pkg →
      data.length = 132 →
      ∃ t, exec (.writeBack pkg gran keep data) s = .next t ∧ t.out = s.out ++ [.response pkg (gran * 128) 0 0 []] ∧ t.groups = s.groups ∧
        t.memsys.l2 = s.memsys.l2 ∧
        ((∀ r ∈ s.fabric.recalled, ¬ (r.1 = gran ∧ r.2.1 = pkg)) →
          t.dirEnt gran = (if keep then some { e with st := .e } else none) ∧
          ∀ x, t.mem.byte x = if gran * 128 ≤ x ∧ x < gran * 128 + 128 then data.getD (x - gran * 128) 0 else s.mem.byte x) ∧
        (∀ share, (s.fabric.recalled.find? fun r => r.1 == gran && r.2.1 == pkg) = some (gran, pkg, share) →
          t.fabric.recalled = s.fabric.recalled.filter (fun r => r ≠ (gran, pkg, share)) ∧
          (share = true → t.dirEnt gran = some e ∧ Tbl.find? t.fabric.supplied gran = some data ∧ ∀ x, t.mem.byte x = s.mem.byte x) ∧
          (share = false →
            ∀ x, t.mem.byte x = if gran * 128 ≤ x ∧ x < gran * 128 + 128 then data.getD (x - gran * 128) 0 else s.mem.byte x)))

/-- 24 R418, R419, R427 to R429, R431, R436: a recalled copy goes home with its bytes where they are newer and is kept shared or dropped; a response
moves the window toward its home, installs the granule or ends the request; a request is sent again once, ends at its timer with cause 0x34,
an atomic's with 0x35; an atomic turned away busy, and a write-back not answered, are sent again; a replay entry of 200 µs may go; heartbeats
are sent, noted and relayed; DIRQ reads an entry.
The readings of the model in it are log entries 72, 73, 75, 76. -/
def Obligations.CopiesRequestsAndHeartbeats : Prop :=
  ∀ (s : State),
    let f := s.fabric
    let same (i : Instr) : Prop := exec i s = .next s
    (∀ pa share,
      let pg := pa / 128
      let i : Instr := .recall pa share
      let sends (keep : Bool) (data : List Byte) (t : State) : Prop := exec i s = .next t ∧
        t.out = s.out ++ [.writeBack f.nextReq (pg * 128) keep data] ∧ t.fabric.backs = f.backs ++ [⟨f.nextReq, pg * 128, keep, data⟩] ∧
        t.fabric.nextReq = f.nextReq + 1 ∧ t.groups = s.groups ∧ t.memsys.mem = s.memsys.mem
      let left (h : Holder) (t : State) : Prop := ∀ sec, t.l2? sec =
        if sec / 4 = pg then (if share then (s.l2? sec).map fun y => { y with holder := h } else none) else s.l2? sec
      (homeOf pa = f.self → same i) ∧
      (homeOf pa ≠ f.self → (s.holderOf pg = some .m ∨ s.holderOf pg = some .o) → ∃ t, sends share (s.granuleOut pg) t ∧ left .o t) ∧
      (homeOf pa ≠ f.self → (s.holderOf pg = some .e ∨ s.holderOf pg = some .s) → ∃ t, sends share [] t ∧ left .s t) ∧
      (homeOf pa ≠ f.self → s.holderOf pg = some .c → ∃ t, sends false (s.partialBytes pg ++ (s.granuleCodes pg).map fun c => BitVec.ofNat 8 c) t ∧
        ∀ sec, t.l2? sec = if sec / 4 = pg then none else s.l2? sec) ∧
      (homeOf pa ≠ f.self → (s.holderOf pg = none ∨ s.holderOf pg = some .home) → ∃ t, sends share [] t ∧ t.memsys = s.memsys)) ∧
    (∀ r level cause (data : List Byte), IsRequest s r → r.sent = true → (r.resp = none ∨ ∃ d, r.resp = some (0xFF, d)) →
      let home := homeOf r.pa
      let w := Tbl.getD f.window home 64
      let i : Instr := .remoteResponse r.id level cause data
      let moved (t : State) : Prop := t.groups = s.groups ∧ ∀ h, Tbl.getD t.fabric.window h 64 =
        if h = home then Min.min 256 (Max.max 4 (if level = 0 then w + 1 else if level = 1 then w else if level = 2 then w - 1 else w / 2))
        else Tbl.getD f.window h 64
      let room : Prop := (Tbl.find? s.memsys.lines (r.pa / 256)).isSome = true ∨ s.memsys.lines.length < 16
      let installed (t : State) (h : Holder) : Prop := exec i s = .next t ∧ moved t ∧ (room → t.memsys.mem = s.memsys.mem) ∧ t.fabric.reqs = (f.reqs.filter fun q => q.id ≠ r.id) ∧
        ∀ k, k < 4 → ∃ y, t.l2? (4 * (r.pa / 128) + k) = some y ∧ y.holder = h ∧ y.dirty = false
      ((cause ≠ 0 ∨ r.kind = 2 ∨ 4 ≤ r.kind) → ∃ t, exec i s = .next t ∧ moved t ∧ t.memsys = s.memsys ∧
        t.fabric.reqs = s.reqsWith r.id fun q => { q with resp := some (cause, data) }) ∧
      (cause = 0 → (r.kind = 0 ∨ r.kind = 1) → data.length = 133 → ∃ t,
        installed t (if r.kind = 1 then .m else if data.getD 132 0 = 1 then .e else .s) ∧
        ∀ k, k < 128 → t.byteAt (r.pa / 128 * 128 + k) = data.getD k 0) ∧
      (∀ op ty x, cause = 0 → r.kind = 3 → r.op = some (.fold op ty x) → ∃ t, installed t .c ∧
        ∀ k, k < 4 → ∃ y, t.l2? (4 * (r.pa / 128) + k) = some y ∧ y.cop = op.code.toNat + 8 * ty.code.toNat ∧ y.valid = 0)) ∧
    (∀ n level cause data, (∀ r ∈ f.reqs, r.id ≠ n) →
      exec (.remoteResponse n level cause data) s = .next { s with fabric := { f with backs := f.backs.filter fun b => b.id ≠ n } }) ∧
    (∀ r, IsRequest s r →
      let sentAgain (retry : Bool) (t : State) : Prop := t = { s with
        out := s.out ++ [.request r.kind r.id r.pa r.size r.seq retry r.op]
        fabric := { f with reqs := s.reqsWith r.id fun q => { q with retried := q.retried || retry, resp := none } } }
      let due : Prop := r.at_ + Nat.min (r.timer / 2) 100000 ≤ s.time
      let waits : Prop := r.queue ≠ none ∧ r.sent = true ∧ r.retried = false ∧ r.resp = none
      (waits → due → ∃ t, sentAgain true t ∧ exec (.remoteRetry r.id) s = .next t) ∧ (¬ (waits ∧ due) → same (.remoteRetry r.id)) ∧
      (r.queue ≠ none → (r.resp = none ∨ ∃ d, r.resp = some (0xFF, d)) →
        (s.time < r.at_ + r.timer → same (.remoteTimeout r.id)) ∧
        (r.at_ + r.timer ≤ s.time → exec (.remoteTimeout r.id) s = .next { s with fabric := { f with
          reqs := s.reqsWith r.id fun q => { q with resp := some (if r.kind = 2 ∨ r.kind = 6 then 0x35 else 0x34, []) } } })) ∧
      (∀ d, (r.kind = 2 ∨ r.kind = 6) → r.resp = some (0xFF, d) → ∃ t, sentAgain false t ∧ exec (.atomicBusyResend r.id) s = .next t) ∧
      (r.resp = none → same (.atomicBusyResend r.id))) ∧
    (∀ b, b ∈ f.backs → (∀ x ∈ f.backs, x.id = b.id → x = b) →
      exec (.writeBackResend b.id) s = .next { s with out := s.out ++ [.writeBack b.id b.pa b.keep b.data] }) ∧
    (∀ n, (∀ b ∈ f.backs, b.id ≠ n) → same (.writeBackResend n)) ∧
    (∀ r, r ∈ f.replay → (∀ x ∈ f.replay, x.pkg = r.pkg → x.seq = r.seq → x = r) →
      (s.time < r.at_ + 200000 → same (.replayEntryExpiry r.pkg r.seq)) ∧
      (r.at_ + 200000 ≤ s.time →
        exec (.replayEntryExpiry r.pkg r.seq) s = .next { s with fabric := { f with replay := f.replay.filter fun x => x ≠ r } })) ∧
    (∀ n, same (.packetDrop n)) ∧
    (∀ cell, let used := Tbl.getD f.bucket cell 0
      (used = 0 → same (.rateLimitRelease cell)) ∧
      (used ≠ 0 → ∃ t, exec (.rateLimitRelease cell) s = .next t ∧ t = { s with free := s.free + 1, fabric := { f with bucket := t.fabric.bucket } } ∧
        Tbl.getD t.fabric.bucket cell 0 < used ∧ ∀ k, k ≠ cell → Tbl.getD t.fabric.bucket k 0 = Tbl.getD f.bucket k 0)) ∧
    (∀ cell, (f.en = false → same (.heartbeat cell)) ∧
      (f.en = true → ∃ t, exec (.heartbeat cell) s = .next t ∧ t.out = s.out ++ [.heartbeat] ∧ t = { s with out := t.out, fabric := { f with heard := t.fabric.heard } } ∧
        ∀ k, Tbl.getD t.fabric.heard k 0 = if k = cell ∧ cell ≠ s.ownCell then s.time else Tbl.getD f.heard k 0)) ∧
    (∀ port up, port < 24 → ∃ t, exec (.linkDownOrReturn port up) s = .next t ∧ t = { s with fabric := { f with ports := t.fabric.ports } } ∧
      ∀ k, Tbl.getD t.fabric.ports k true = if k = port then up else Tbl.getD f.ports k true) ∧
    (f.dirqGo = false → same .dirqLookup) ∧
    (f.dirqGo = true → ∃ w0 w1, exec .dirqLookup s = .next { s with fabric := { f with dirqW0 := w0, dirqW1 := w1, dirqDone := true, dirqGo := false } } ∧
      (s.dirEnt f.dirqAddr = none → w0 = 0 ∧ w1 = 0) ∧
      ∀ e, s.dirEnt f.dirqAddr = some e → e.cop < 256 → e.owner < 512 → f.dirqAddr < 2 ^ 36 →
        w1 = e.cvec ∧ (w0.extractLsb' 0 3).toNat = e.st.code ∧ (w0.extractLsb' 3 8).toNat = e.cop ∧ (w0.extractLsb' 11 9).toNat = e.owner ∧
        w0.extractLsb' 20 8 = e.pmask ∧ (w0.extractLsb' 28 36).toNat = f.dirqAddr)

/-- 24 R424, R426, R431 to R436: a firewall change takes the block's masks at once, recalls the copies they no longer allow and completes when none
is left; an extent is lent, withdrawn, and HOME again when no other cell holds a copy of it; a silent cell is declared dead and recovery
starts, with its first notice too; the sweep loses what a dead owner held; a package cut off from every other cell stops its dies and removes
its contexts.
The readings of the model in it are log entries 69, 70, 75, 77. -/
def Obligations.FirewallExtentsAndDeath : Prop :=
  ∀ (s : State),
    let f := s.fabric
    let same (i : Instr) : Prop := exec i s = .next s
    let within (lo n : Nat) (p : Nat × DirEnt) : Prop := lo ≤ p.1 * 128 ∧ p.1 * 128 < lo + n
    (∀ v : BitVec 64,
      let block := (v.extractLsb' 0 19).toNat
      let goes : Prop := v.getLsbD 62 = true ∧ f.fwBusy = false ∧ block ≤ 368639
      (¬ goes → exec (.firewallChange v) s = .next { s with fabric := { f with fwBlock := block } }) ∧
      (goes → ∃ t, exec (.firewallChange v) s = .next t ∧
        t = { s with fabric := { f with masks := t.fabric.masks, fwBlock := block, fwChanging := block, fwBusy := true } } ∧
        ∀ b, t.fwMasks b = if b = block then (f.fwRm, f.fwWm) else s.fwMasks b)) ∧
    (f.fwBusy = false → same .firewallChangeComplete) ∧
    (f.fwBusy = true → (∀ p ∈ f.dir, ¬ within (f.fwChanging * 2 ^ 21) (2 ^ 21) p) →
      exec .firewallChangeComplete s = .next { s with fabric := { f with fwBusy := false } }) ∧
    (∀ lg e, f.fwBusy = true → f.dir = [(lg, e)] → within (f.fwChanging * 2 ^ 21) (2 ^ 21) (lg, e) → e.st = .s →
      (∃ q, HeldBy s e q ∧ q ≠ f.self ∧ (s.fwMasks f.fwChanging).1.getLsbD (s.cellOf q) = false) →
      ∃ t, exec .firewallChangeComplete s = .next t ∧ t.fabric.fwBusy = true ∧ t.fabric.dir = f.dir ∧ t.groups = s.groups ∧
        ∀ q, HeldBy s e q → q ≠ f.self → (s.fwMasks f.fwChanging).1.getLsbD (s.cellOf q) = false → ∃ r ∈ t.fabric.recalled, r.1 = lg ∧ r.2.1 = q) ∧
    (∀ ext (v : BitVec 64),
      let x := s.extent ext
      let becomes (i : Instr) (y : Extent) : Prop := ∃ t, exec i s = .next t ∧ t = { s with fabric := { f with extents := t.fabric.extents } } ∧
        ∀ e, t.extent e = if e = ext then y else s.extent e
      (696 < ext → same (.lend ext v) ∧ same (.withdraw ext)) ∧
      (ext ≤ 696 → x.st = 0 → becomes (.lend ext v) { x with st := 1, cell := (v.extractLsb' 2 6).toNat }) ∧
      (ext ≤ 696 → x.st ≠ 0 → becomes (.lend ext v) x) ∧
      (ext ≤ 696 → x.st = 1 → f.deadMask.getLsbD x.cell = false → becomes (.withdraw ext) { x with st := 2 }) ∧
      (ext ≤ 696 → x.st = 1 → f.deadMask.getLsbD x.cell = true → becomes (.withdraw ext) { x with st := 0, ack := true }) ∧
      (ext ≤ 696 → x.st ≠ 1 → becomes (.withdraw ext) x) ∧
      (x.st ≠ 2 → same (.withdrawComplete ext)) ∧
      (x.st = 2 → (∀ p ∈ f.dir, within (ext * 2 ^ 30) (2 ^ 30) p → ∀ q, HeldBy s p.2 q → s.cellOf q = s.ownCell) →
        becomes (.withdrawComplete ext) { x with st := 0, ack := true }) ∧
      (x.st = 2 → (∃ p ∈ f.dir, within (ext * 2 ^ 30) (2 ^ 30) p ∧ ∃ q, HeldBy s p.2 q ∧ s.cellOf q ≠ s.ownCell) →
        ∃ t, exec (.withdrawComplete ext) s = .next t ∧ t = { s with out := t.out, fabric := { f with recalled := t.fabric.recalled } } ∧
          ∀ p ∈ f.dir, within (ext * 2 ^ 30) (2 ^ 30) p → ∀ q, HeldBy s p.2 q → s.cellOf q ≠ s.ownCell →
            ∃ r ∈ t.fabric.recalled, r.1 = p.1 ∧ r.2.1 = q)) ∧
    (∀ k,
      let mayDie : Prop := f.en = true ∧ k < 64 ∧ k ≠ s.ownCell ∧ f.deadMask.getLsbD k = false
      let silent : Prop := Tbl.getD f.heard k 0 + 1000 * f.tdead ≤ s.time
      (¬ (mayDie ∧ silent) → same (.cellDeathDeclare k)) ∧ (¬ mayDie → same (.deathMessage k)) ∧
      (mayDie → silent → ∃ t rest, exec (.cellDeathDeclare k) s = .next t ∧ t.out = s.out ++ .death k :: rest ∧ Recovers s t k) ∧
      (mayDie → ∃ t, exec (.deathMessage k) s = .next t ∧ Recovers s t k)) ∧
    (f.recActive = false → same .directorySweep) ∧
    (f.recActive = true → f.sweep = [] → exec .directorySweep s = .next { s with fabric := { f with recActive := false } }) ∧
    (∀ lg e k, f.recActive = true → f.sweep = [lg] → k < 64 → f.deadMask = BitVec.ofNat 64 (2 ^ k) → s.dirEnt lg = some e →
      ∃ t, exec .directorySweep s = .next t ∧ t.fabric.recActive = false ∧ t.fabric.sweep = [] ∧ t.groups = s.groups ∧ t.memsys.mem = s.memsys.mem ∧
        (∀ x, x ≠ lg → t.dirEnt x = s.dirEnt x) ∧
        (((e.st = .m ∨ e.st = .o) ∧ s.cellOf e.owner = k) ∨ (e.st = .c ∧ e.cvec.getLsbD k = true) → ∃ e1, t.dirEnt lg = some e1 ∧ e1.st = .x ∧
          e1.pmask = 0 ∧ e1.cvec = 0 ∧ t.fabric.recLost = Nat.min (f.recLost + 1) (2 ^ 32 - 1)) ∧
        (e.st = .e → s.cellOf e.owner = k → t.dirEnt lg = none) ∧
        ((e.st = .s ∨ (e.st = .o ∧ s.cellOf e.owner ≠ k)) →
          let e1 := { e with cvec := e.cvec &&& ~~~ BitVec.ofNat 64 (2 ^ k) }
          t.dirEnt lg = if e1.pmask = 0 ∧ e1.cvec = 0 then none else some e1) ∧
        (((e.st = .e ∨ e.st = .m) ∧ s.cellOf e.owner ≠ k) ∨ (e.st = .c ∧ e.cvec.getLsbD k = false) ∨ e.st = .x → t.dirEnt lg = some e)) ∧
    (let cutOff : Prop := f.en = true ∧ (∃ p ∈ f.dom, p.2.valid = true ∧ p.2.cell ≠ s.ownCell) ∧
      ∀ p ∈ f.dom, p.2.valid = true → p.2.cell ≠ s.ownCell → Tbl.getD f.heard p.2.cell 0 + 1000 * f.tdead ≤ s.time
     (¬ cutOff → same .selfIsolation) ∧
     (cutOff → ∃ t, exec .selfIsolation s = .next t ∧ t.groups = s.groups ∧ t.memsys = s.memsys ∧
       (∀ d, t.die d = if d < 4 then { s.die d with stopped := true } else s.die d) ∧
       t.fabric.deadMask = (f.deadMask ||| BitVec.ofNat 64 (2 ^ s.ownCell)) ∧
       ∀ q, t.ctx q = if (s.ctx q).st = .idle ∨ (s.ctx q).st = .removed ∨ (s.ctx q).removing ≠ none then s.ctx q
         else { s.ctx q with removing := some false }))

/-! ### Encodings, checks, steps and reset (01, 03, 05, 14) -/

/-- Words that the spec's examples write out (03, 05, 06, 09, 10, 12, 14 to 17), of every family, decode to the instructions they stand for and
are those instructions' words; the spec's example of a SAT that its type does not list, and the word 0, are refused. -/
def Obligations.WorkedEncodings : Prop :=
  decodeTableWord 64 0x40F0090909000004 = none ∧ decodeTableWord 64 0 = none ∧
  let g : Guard := ⟨15, false⟩
  let u : Guard := ⟨7, false⟩
  let at_ (base index : Reg) (bu iu scale : Bool) (off : BitVec 16) : MAddr := ⟨bu, iu, base, index, scale, off⟩
  ∀ x ∈ ([(0x5A280800000003E8, .li ⟨2, true⟩ 8 0x3E8), (0x15700400FFFFFFF8, .uli u 4 0xFFFFFFF8),
      (0xC0F20902FF800040, .ld g .b32 .cached .dflt 9 (at_ 2 0xFF false true false 0x40)),
      (0xC0F4090401900000, .ld g .b32 .cached .dflt 9 (at_ 4 1 true false true 0)),
      (0xC1F4090401900000, .st g .b32 .cached .dflt 9 (at_ 4 1 true false true 0)),
      (0x1770010000000000, .usrd u 1 0), (0x40F0090909002000, .add g .s32 false 9 (.vec 9) (.vec 9)), (0x3AF0000000000000, .exit g),
      (0x40F0090909002004, .add g .s32 true 9 (.vec 9) (.vec 9)), (0x59F00A0900000000, .mov g .b32 10 (.vec 9)),
      (0x57F2020106002080, .cmp g .s32 .lt 2 (.vec 1) (.sca 6)), (0x58F0060304020000, .sel g .b32 6 (.vec 3) (.vec 4) false 2),
      (0x88F0030102005800, .fdiv g .f32 .dyn false 3 (.vec 1) (.vec 2)), (0xB714050E00000000, .regroup ⟨1, false⟩ 5 14),
      (0xB310080200000000, .ballot ⟨1, false⟩ 8 2), (0xB510_0B09_0000_2000, .lred ⟨1, false⟩ .add .s32 11 (.vec 9)),
      (0xC5F20304FF800800, .sts g .b32 3 (at_ 4 0xFF false true false 0x800)), (0xCA70000000000048, .fence u .pkg .rel),
      (0xF1700809_0A000000, .resume u 8 9 10), (0xF270080A00000000, .csrr u 8 10), (0xF7F0000000000007, .brk g 7),
      (0xD870070600005800, .srsv u false 7 6), (0xDC70080A0C000010, .mma u true 8 10 12 none), (0xCB70000A00000400, .wait u .mx 10),
      (0xE170080A0C000000, .cpy u 8 10 12 none), (0xE270181A140E3808, .gath u .n16 24 26 20 (some 14)),
      (0xF470000000000100, .bar u .clu), (0x32F000010000000B, .brq g 0 1 11), (0xCC70000000000300, .commit u .cp),
      (0xFA70000000100000, .sleep u 0x100000), (0xE570000F00000000, .tokset u 15)] : List (Nat × Instr)),
    decodeTableWord 64 x.1 = some x.2 ∧ encode x.2 = some (BitVec.ofNat 64 x.1)

/-! ### The checks of a word and its faults (03 R52; 14 R250, R253, R255) -/

/-- The encoding checks of 03 R52 on every instruction word: privilege (0x03), the fields that must be zero (0x02), the values and registers of
the encoding and the last slot for a word that ends its clause (0x01), each in this order and without any other effect. A word that passes them
and reads a register with an uncorrectable error faults with cause 0x31 (18 R340). A fault of class F stops the group and leaves one record, the
instruction its FAULTPOS and the region entry its RESTART; while a record of the group's own instructions waits, the fragment is only set back
to the instruction.
The readings of the model in it are log entries 15, 16. -/
def Obligations.WordsAreCheckedAndFaultsTaken : Prop :=
  (∀ i s g, i.guard? ≠ none → s.group? s.cur.core s.cur.slot = some g →
    let mayRun := g.mon = true ∨ i.needsMon = false
    let zeros := i.reservedOk = true
    let listed := i.legalOk = true ∧ (∀ o ∈ i.operands, o.withinDecl g.regs.nvr = true) ∧ (i.endsClause = true → (s.frag g).pos.slot = s.cur.len)
    let runs := (∃ gd, i.guard? = some (gd, true) ∧ g.guardUni gd = true) ∨ ∃ gd, i.guard? = some (gd, false) ∧ s.lanes g gd ≠ []
    let target := targetFault i (s.frag g).pos.addr
    let badSca := ∃ o ∈ i.operands, o.reads = true ∧ o.cls = .sca ∧ ∃ k, k < o.width ∧ o.num + k ∈ g.regs.badS
    let badVec (l : Nat) := ∃ o ∈ i.operands, o.reads = true ∧ o.cls = .vec ∧ ∃ k, k < o.width ∧ l * 256 + o.num + k ∈ g.regs.badV
    (¬ mayRun → Faults i s g (.word 0x03)) ∧
    (mayRun → ¬ zeros → Faults i s g (.word 0x02)) ∧
    (mayRun → zeros → ¬ listed → Faults i s g (.word 0x01)) ∧
    (∀ f, mayRun → zeros → listed → target = some f → Faults i s g f) ∧
    (mayRun → zeros → listed → target = none → runs → badSca → Faults i s g ⟨0x31, 255, 1, 0, 0⟩) ∧
    (mayRun → zeros → listed → target = none → ¬ badSca → ∀ gd l, i.guard? = some (gd, false) → l ∈ s.lanes g gd → badVec l →
      (∀ m ∈ s.lanes g gd, m < l → ¬ badVec m) → Faults i s g ⟨0x31, l, 1, 0, 0⟩)) ∧
  ∀ (s : State) (core slot entry : Nat) (pos : Pos) (f : FaultInfo) (g : Group), s.group? core slot = some g → g.leader = none →
    ((∀ r ∈ g.stops.unwritten ++ g.stops.unserved, r.resumable = true) →
      s.takeFault core slot entry pos f = s.setGroup core slot { g with
        dbg := { g.dbg with run := .faulted, cause := f.cause, stepping := none }
        stops := { g.stops with
          unwritten := g.stops.unwritten ++ [faultRecord s g entry pos f], unserved := g.stops.unserved ++ [faultRecord s g entry pos f] } }) ∧
    ((∃ r ∈ g.stops.unwritten ++ g.stops.unserved, r.resumable = false) → g.dbg.stepping = none →
      s.takeFault core slot entry pos f =
        s.setGroup core slot { g.setEnt entry { g.ent entry with pos := pos } with dbg := { g.dbg with run := .faulted } })

/-- A step whose turn is the issue of a fragment at a word runs the instruction that the word decodes to, after the clause's region entry, with
what follows an issue (the trace and the debug state of the group, the context's waiting count) and then the surroundings and time; an
unassigned opcode runs as an event, and so does each event that the hardware's turn names; a turn that names a status that waits writes it; a
turn that names a word as an event, or the issue of a group that is not there, only lets time pass.
The readings of the model in it are log entries 1, 16, 19. -/
def Obligations.StepRunsTheWord : Prop :=
  (∀ s core slot k g hw w, Issuing s core slot k g → FetchesAt s core g (g.ent k).pos.caddr hw →
    FetchesAt s core g ((g.ent k).pos.caddr + 8 * (g.ent k).pos.slot) w →
    let h := Header.ofWord (BitVec.ofNat 64 hw)
    ∃ s0, UsesOnly s s0 ∧
      let s1 := { s0 with cur := { core := core, slot := slot, entry := k, flag := h.flagOf (g.ent k).pos.slot, len := h.len, region := h.region } }
      (∀ i, decode (BitVec.ofNat 64 w) = .ok i →
        (∃ t, exec i (s1.enterRegion i) = .next t ∧ step s = .next (t.afterWord s1 i).around) ∧
        (h.region = false ∨ (g.ent k).pos.slot ≠ 1 → s1.enterRegion i = s1.setGroup core slot { g with again := false })) ∧
      ∀ op, decode (BitVec.ofNat 64 w) = .error (.unassigned op) → ∃ t, exec (.unassignedOpcode op) s1 = .next t ∧ step s = .next t.around) ∧
  (∀ s i, s.turn = .event i →
    if Instr.isEvent i then ∃ t, exec i s = .next t ∧ step s = .next t.around else step s = .next s.around) ∧
  (∀ s core slot g o rest, s.turn = .status core slot → s.group? core slot = some g → g.statuses = o :: rest →
    ∃ g1, ScaWritten g g1 true o.reg 1 o.value.toNat ∧ step s = .next (s.setGroup core slot { g1 with statuses := rest }).around) ∧
  ∀ s core slot k, s.turn = .issue core slot k → s.group? core slot = none → step s = .next s.around

/-- Nothing stops the machine: every instruction and every step answers a next state. What the spec lets go wrong is a fault that the machine
takes, a status it reports or a value it leaves open. -/
def Obligations.TheMachineNeverStops : Prop :=
  (∀ i s, ∃ t, exec i s = .next t) ∧ ∀ s, ∃ t, step s = .next t

/-- Decoding and encoding agree: every instruction that is well formed and has a word decodes from it, with every operand, and every word that
decodes is the one of its instruction, which is well formed. -/
def Obligations.DecodeAndEncodeAgree : Prop :=
  (∀ i w, encode i = some w → i.wf = true → decode w = .ok i) ∧ ∀ i w, decode w = .ok i → encode i = some w ∧ i.wf = true

/-- Package reset leaves every control register at the value of its Reset column (01 R11): the core, team and group slots, the cluster blocks, the
contexts, the dies, the stacks and the package.
The readings of the model in it are log entry 3. -/
def Obligations.ResetRegisters : Prop :=
  let rd (a : Nat) : Nat := (State.reset.ctlRead a).toNat
  (∀ n, n < 384 →
    let b := 0x1000000 + 0x4000 * n
    rd (b + 0x800) = 0x100 ∧ rd (b + 0x808) / 2 ^ 16 = 0 ∧ rd (b + 0xA00) = 4 ∧ rd (b + 0xA08) = 256 + 256 * 2 ^ 9 ∧ rd (b + 0xA10) = 0 ∧
    rd (b + 0xC00) = 0x40 ∧ (∀ t, t < 8 → rd (b + 0xB00 + 8 * t) = 0 ∧ rd (b + 0xB40 + 8 * t) = 0 ∧ rd (b + 0xB80 + 8 * t) = 0) ∧
    ∀ g, g < 64 → rd (b + 0xC40 + 8 * g) = 0 ∧ rd (b + 0x2000 + 8 * g) = 0 ∧ rd (b + 0x1000 + 0x40 * g + 0x28) = 0xFFFFFFFF ∧
      ∀ o ∈ [0, 8, 0x10, 0x18, 0x20, 0x30], rd (b + 0x1000 + 0x40 * g + o) = 0) ∧
  (∀ n, n < 384 → rd (0x2000000 + 0x1000 * n) = 0 ∧ rd (0x2000000 + 0x1000 * n + 8) = 0 ∧
    ∀ e, e < 32 → rd (0x2000000 + 0x1000 * n + 0x100 + 16 * e) = 0 ∧ rd (0x2000000 + 0x1000 * n + 0x108 + 16 * e) = 0) ∧
  (∀ h, h < 64 →
    let b := 0x3000000 + 0x1000 * h
    rd (b + 8) = 4 ∧ rd (b + 0x48) = 4 ∧ rd (b + 0x58) = 2000 ∧ ∀ o ∈ [0, 0x10, 0x18, 0x20, 0x28, 0x40, 0x50], rd (b + o) = 0) ∧
  (∀ d, d < 4 →
    let b := 0x100000 + 0x10000 * d
    rd (b + 0x200) = 0x40 + 0xF6 * 2 ^ 16 + 0x69 * 2 ^ 24 ∧ rd (b + 0x208) = 0 ∧ rd (b + 0x300) = 48 + 92 * 2 ^ 7 ∧ rd (b + 0x308) = 48) ∧
  (∀ k, k < 12 →
    let b := 0x200000 + 0x10000 * k
    rd (b + 0x300) = 0 ∧ rd (b + 0x310) = 0x100 + 2 ^ 16 ∧ rd (b + 0x318) % 2 ^ 39 = 0 ∧ rd (b + 0x318) / 2 ^ 47 = 0) ∧
  (∀ r, r < 64 → rd (0x4000 + 16 * r) = 0 ∧ rd (0x4008 + 16 * r) = 0) ∧ (∀ p, p < 8 → rd (0x5100 + 8 * p) = 0) ∧
  (∀ j, j < 6 → rd (0x6000 + 8 * j) = 0 ∧ rd (0x6040 + 8 * j) = 0) ∧ rd 0x5008 = 0x3E8 ∧ rd 0x6100 % 2 ^ 18 = 1 ∧
  (∀ q, q < 16384 → rd (0x80000 + 16 * q) = 0 ∧ rd (0x80008 + 16 * q) = 0) ∧
  (∀ p, p < 512 → rd (0xC0000 + 8 * p) = 0) ∧ (∀ c, c < 64 → rd (0xC1000 + 8 * c) = 0) ∧ (∀ e, e < 697 → rd (0xC2000 + 8 * e) = 0) ∧
  rd 0xC5000 = 1000 * 2 ^ 10 ∧
  ∀ o ∈ [0x4400, 0x5000, 0x5140, 0x6080, 0xC5008, 0xC5010, 0xC5018, 0xC5020, 0xC5028, 0xC5030, 0xC5040, 0xC5048], rd o = 0

/-- After reset nothing runs and nothing is stored: no group, team, cluster, command or context is there, memory is in its canonical form and
lists nothing, and its unlisted bytes read as the value that the model chooses (log entry 2).
The readings of the model in it are log entries 1, 3. -/
def Obligations.ResetMachine : Prop :=
  State.reset.groups = [] ∧ State.reset.teams = [] ∧ State.reset.clusters = [] ∧ State.reset.cmds = [] ∧ State.reset.ctxs = [] ∧
  State.reset.mem.wf = true ∧ State.reset.mem.bytes = [] ∧ ∀ a, State.reset.mem.byte a = State.reset.mem.unlisted a

/-- Memory keeps its canonical form in every step: its listed addresses rise strictly and none is listed with what it reads as anyway. -/
def Obligations.MemoryStaysCanonical : Prop :=
  ∀ s t, s.mem.wf = true → step s = .next t → t.mem.wf = true
end

