-- ==== Sys2Proof/Laws/State.lean ====
section
/-! SUPPORT. One lemma per field per update of the state, of a group and of its registers, so that no proof unfolds a record update. -/

namespace Sys2Proof.Machine

/-! ### State.setGroup -/
@[simp] theorem State.setGroup_turn (s : State) (core slot : Nat) (x : Group) : (s.setGroup core slot x).turn = s.turn := rfl
@[simp] theorem State.setGroup_tick (s : State) (core slot : Nat) (x : Group) : (s.setGroup core slot x).tick = s.tick := rfl
@[simp] theorem State.setGroup_free (s : State) (core slot : Nat) (x : Group) : (s.setGroup core slot x).free = s.free := rfl
@[simp] theorem State.setGroup_nextId (s : State) (core slot : Nat) (x : Group) : (s.setGroup core slot x).nextId = s.nextId := rfl
@[simp] theorem State.setGroup_cur (s : State) (core slot : Nat) (x : Group) : (s.setGroup core slot x).cur = s.cur := rfl
@[simp] theorem State.setGroup_time (s : State) (core slot : Nat) (x : Group) : (s.setGroup core slot x).time = s.time := rfl
@[simp] theorem State.setGroup_cycle (s : State) (core slot : Nat) (x : Group) : (s.setGroup core slot x).cycle = s.cycle := rfl
@[simp] theorem State.setGroup_groups (s : State) (core slot : Nat) (x : Group) : (s.setGroup core slot x).groups = Tbl.put s.groups (gkey core slot) x := rfl
@[simp] theorem State.setGroup_teams (s : State) (core slot : Nat) (x : Group) : (s.setGroup core slot x).teams = s.teams := rfl
@[simp] theorem State.setGroup_clusters (s : State) (core slot : Nat) (x : Group) : (s.setGroup core slot x).clusters = s.clusters := rfl
@[simp] theorem State.setGroup_cores (s : State) (core slot : Nat) (x : Group) : (s.setGroup core slot x).cores = s.cores := rfl
@[simp] theorem State.setGroup_mxAge (s : State) (core slot : Nat) (x : Group) : (s.setGroup core slot x).mxAge = s.mxAge := rfl
@[simp] theorem State.setGroup_dies (s : State) (core slot : Nat) (x : Group) : (s.setGroup core slot x).dies = s.dies := rfl
@[simp] theorem State.setGroup_hbm (s : State) (core slot : Nat) (x : Group) : (s.setGroup core slot x).hbm = s.hbm := rfl
@[simp] theorem State.setGroup_cmds (s : State) (core slot : Nat) (x : Group) : (s.setGroup core slot x).cmds = s.cmds := rfl
@[simp] theorem State.setGroup_memsys (s : State) (core slot : Nat) (x : Group) : (s.setGroup core slot x).memsys = s.memsys := rfl
@[simp] theorem State.setGroup_ctxs (s : State) (core slot : Nat) (x : Group) : (s.setGroup core slot x).ctxs = s.ctxs := rfl
@[simp] theorem State.setGroup_sched (s : State) (core slot : Nat) (x : Group) : (s.setGroup core slot x).sched = s.sched := rfl
@[simp] theorem State.setGroup_grace (s : State) (core slot : Nat) (x : Group) : (s.setGroup core slot x).grace = s.grace := rfl
@[simp] theorem State.setGroup_ctl (s : State) (core slot : Nat) (x : Group) : (s.setGroup core slot x).ctl = s.ctl := rfl
@[simp] theorem State.setGroup_fabric (s : State) (core slot : Nat) (x : Group) : (s.setGroup core slot x).fabric = s.fabric := rfl
@[simp] theorem State.setGroup_coll (s : State) (core slot : Nat) (x : Group) : (s.setGroup core slot x).coll = s.coll := rfl
@[simp] theorem State.setGroup_track (s : State) (core slot : Nat) (x : Group) : (s.setGroup core slot x).track = s.track := rfl
@[simp] theorem State.setGroup_out (s : State) (core slot : Nat) (x : Group) : (s.setGroup core slot x).out = s.out := rfl

/-! ### State.setCore -/
@[simp] theorem State.setCore_turn (s : State) (core : Nat) (x : CoreSt) : (s.setCore core x).turn = s.turn := rfl
@[simp] theorem State.setCore_tick (s : State) (core : Nat) (x : CoreSt) : (s.setCore core x).tick = s.tick := rfl
@[simp] theorem State.setCore_free (s : State) (core : Nat) (x : CoreSt) : (s.setCore core x).free = s.free := rfl
@[simp] theorem State.setCore_nextId (s : State) (core : Nat) (x : CoreSt) : (s.setCore core x).nextId = s.nextId := rfl
@[simp] theorem State.setCore_cur (s : State) (core : Nat) (x : CoreSt) : (s.setCore core x).cur = s.cur := rfl
@[simp] theorem State.setCore_time (s : State) (core : Nat) (x : CoreSt) : (s.setCore core x).time = s.time := rfl
@[simp] theorem State.setCore_cycle (s : State) (core : Nat) (x : CoreSt) : (s.setCore core x).cycle = s.cycle := rfl
@[simp] theorem State.setCore_groups (s : State) (core : Nat) (x : CoreSt) : (s.setCore core x).groups = s.groups := rfl
@[simp] theorem State.setCore_teams (s : State) (core : Nat) (x : CoreSt) : (s.setCore core x).teams = s.teams := rfl
@[simp] theorem State.setCore_clusters (s : State) (core : Nat) (x : CoreSt) : (s.setCore core x).clusters = s.clusters := rfl
@[simp] theorem State.setCore_cores (s : State) (core : Nat) (x : CoreSt) : (s.setCore core x).cores = Tbl.setD s.cores core x .reset := rfl
@[simp] theorem State.setCore_mxAge (s : State) (core : Nat) (x : CoreSt) : (s.setCore core x).mxAge = s.mxAge := rfl
@[simp] theorem State.setCore_dies (s : State) (core : Nat) (x : CoreSt) : (s.setCore core x).dies = s.dies := rfl
@[simp] theorem State.setCore_hbm (s : State) (core : Nat) (x : CoreSt) : (s.setCore core x).hbm = s.hbm := rfl
@[simp] theorem State.setCore_cmds (s : State) (core : Nat) (x : CoreSt) : (s.setCore core x).cmds = s.cmds := rfl
@[simp] theorem State.setCore_memsys (s : State) (core : Nat) (x : CoreSt) : (s.setCore core x).memsys = s.memsys := rfl
@[simp] theorem State.setCore_ctxs (s : State) (core : Nat) (x : CoreSt) : (s.setCore core x).ctxs = s.ctxs := rfl
@[simp] theorem State.setCore_sched (s : State) (core : Nat) (x : CoreSt) : (s.setCore core x).sched = s.sched := rfl
@[simp] theorem State.setCore_grace (s : State) (core : Nat) (x : CoreSt) : (s.setCore core x).grace = s.grace := rfl
@[simp] theorem State.setCore_ctl (s : State) (core : Nat) (x : CoreSt) : (s.setCore core x).ctl = s.ctl := rfl
@[simp] theorem State.setCore_fabric (s : State) (core : Nat) (x : CoreSt) : (s.setCore core x).fabric = s.fabric := rfl
@[simp] theorem State.setCore_coll (s : State) (core : Nat) (x : CoreSt) : (s.setCore core x).coll = s.coll := rfl
@[simp] theorem State.setCore_track (s : State) (core : Nat) (x : CoreSt) : (s.setCore core x).track = s.track := rfl
@[simp] theorem State.setCore_out (s : State) (core : Nat) (x : CoreSt) : (s.setCore core x).out = s.out := rfl

/-! ### State.setDie -/
@[simp] theorem State.setDie_turn (s : State) (d : Nat) (x : Die) : (s.setDie d x).turn = s.turn := rfl
@[simp] theorem State.setDie_tick (s : State) (d : Nat) (x : Die) : (s.setDie d x).tick = s.tick := rfl
@[simp] theorem State.setDie_free (s : State) (d : Nat) (x : Die) : (s.setDie d x).free = s.free := rfl
@[simp] theorem State.setDie_nextId (s : State) (d : Nat) (x : Die) : (s.setDie d x).nextId = s.nextId := rfl
@[simp] theorem State.setDie_cur (s : State) (d : Nat) (x : Die) : (s.setDie d x).cur = s.cur := rfl
@[simp] theorem State.setDie_time (s : State) (d : Nat) (x : Die) : (s.setDie d x).time = s.time := rfl
@[simp] theorem State.setDie_cycle (s : State) (d : Nat) (x : Die) : (s.setDie d x).cycle = s.cycle := rfl
@[simp] theorem State.setDie_groups (s : State) (d : Nat) (x : Die) : (s.setDie d x).groups = s.groups := rfl
@[simp] theorem State.setDie_teams (s : State) (d : Nat) (x : Die) : (s.setDie d x).teams = s.teams := rfl
@[simp] theorem State.setDie_clusters (s : State) (d : Nat) (x : Die) : (s.setDie d x).clusters = s.clusters := rfl
@[simp] theorem State.setDie_cores (s : State) (d : Nat) (x : Die) : (s.setDie d x).cores = s.cores := rfl
@[simp] theorem State.setDie_mxAge (s : State) (d : Nat) (x : Die) : (s.setDie d x).mxAge = s.mxAge := rfl
@[simp] theorem State.setDie_dies (s : State) (d : Nat) (x : Die) : (s.setDie d x).dies = Tbl.setD s.dies d x .reset := rfl
@[simp] theorem State.setDie_hbm (s : State) (d : Nat) (x : Die) : (s.setDie d x).hbm = s.hbm := rfl
@[simp] theorem State.setDie_cmds (s : State) (d : Nat) (x : Die) : (s.setDie d x).cmds = s.cmds := rfl
@[simp] theorem State.setDie_memsys (s : State) (d : Nat) (x : Die) : (s.setDie d x).memsys = s.memsys := rfl
@[simp] theorem State.setDie_ctxs (s : State) (d : Nat) (x : Die) : (s.setDie d x).ctxs = s.ctxs := rfl
@[simp] theorem State.setDie_sched (s : State) (d : Nat) (x : Die) : (s.setDie d x).sched = s.sched := rfl
@[simp] theorem State.setDie_grace (s : State) (d : Nat) (x : Die) : (s.setDie d x).grace = s.grace := rfl
@[simp] theorem State.setDie_ctl (s : State) (d : Nat) (x : Die) : (s.setDie d x).ctl = s.ctl := rfl
@[simp] theorem State.setDie_fabric (s : State) (d : Nat) (x : Die) : (s.setDie d x).fabric = s.fabric := rfl
@[simp] theorem State.setDie_coll (s : State) (d : Nat) (x : Die) : (s.setDie d x).coll = s.coll := rfl
@[simp] theorem State.setDie_track (s : State) (d : Nat) (x : Die) : (s.setDie d x).track = s.track := rfl
@[simp] theorem State.setDie_out (s : State) (d : Nat) (x : Die) : (s.setDie d x).out = s.out := rfl

/-! ### State.setStack -/
@[simp] theorem State.setStack_turn (s : State) (k : Nat) (x : Stack) : (s.setStack k x).turn = s.turn := rfl
@[simp] theorem State.setStack_tick (s : State) (k : Nat) (x : Stack) : (s.setStack k x).tick = s.tick := rfl
@[simp] theorem State.setStack_free (s : State) (k : Nat) (x : Stack) : (s.setStack k x).free = s.free := rfl
@[simp] theorem State.setStack_nextId (s : State) (k : Nat) (x : Stack) : (s.setStack k x).nextId = s.nextId := rfl
@[simp] theorem State.setStack_cur (s : State) (k : Nat) (x : Stack) : (s.setStack k x).cur = s.cur := rfl
@[simp] theorem State.setStack_time (s : State) (k : Nat) (x : Stack) : (s.setStack k x).time = s.time := rfl
@[simp] theorem State.setStack_cycle (s : State) (k : Nat) (x : Stack) : (s.setStack k x).cycle = s.cycle := rfl
@[simp] theorem State.setStack_groups (s : State) (k : Nat) (x : Stack) : (s.setStack k x).groups = s.groups := rfl
@[simp] theorem State.setStack_teams (s : State) (k : Nat) (x : Stack) : (s.setStack k x).teams = s.teams := rfl
@[simp] theorem State.setStack_clusters (s : State) (k : Nat) (x : Stack) : (s.setStack k x).clusters = s.clusters := rfl
@[simp] theorem State.setStack_cores (s : State) (k : Nat) (x : Stack) : (s.setStack k x).cores = s.cores := rfl
@[simp] theorem State.setStack_mxAge (s : State) (k : Nat) (x : Stack) : (s.setStack k x).mxAge = s.mxAge := rfl
@[simp] theorem State.setStack_dies (s : State) (k : Nat) (x : Stack) : (s.setStack k x).dies = s.dies := rfl
@[simp] theorem State.setStack_hbm (s : State) (k : Nat) (x : Stack) : (s.setStack k x).hbm = Tbl.setD s.hbm k x .reset := rfl
@[simp] theorem State.setStack_cmds (s : State) (k : Nat) (x : Stack) : (s.setStack k x).cmds = s.cmds := rfl
@[simp] theorem State.setStack_memsys (s : State) (k : Nat) (x : Stack) : (s.setStack k x).memsys = s.memsys := rfl
@[simp] theorem State.setStack_ctxs (s : State) (k : Nat) (x : Stack) : (s.setStack k x).ctxs = s.ctxs := rfl
@[simp] theorem State.setStack_sched (s : State) (k : Nat) (x : Stack) : (s.setStack k x).sched = s.sched := rfl
@[simp] theorem State.setStack_grace (s : State) (k : Nat) (x : Stack) : (s.setStack k x).grace = s.grace := rfl
@[simp] theorem State.setStack_ctl (s : State) (k : Nat) (x : Stack) : (s.setStack k x).ctl = s.ctl := rfl
@[simp] theorem State.setStack_fabric (s : State) (k : Nat) (x : Stack) : (s.setStack k x).fabric = s.fabric := rfl
@[simp] theorem State.setStack_coll (s : State) (k : Nat) (x : Stack) : (s.setStack k x).coll = s.coll := rfl
@[simp] theorem State.setStack_track (s : State) (k : Nat) (x : Stack) : (s.setStack k x).track = s.track := rfl
@[simp] theorem State.setStack_out (s : State) (k : Nat) (x : Stack) : (s.setStack k x).out = s.out := rfl

/-! ### State.setCtx -/
@[simp] theorem State.setCtx_turn (s : State) (q : Nat) (x : Ctx) : (s.setCtx q x).turn = s.turn := rfl
@[simp] theorem State.setCtx_tick (s : State) (q : Nat) (x : Ctx) : (s.setCtx q x).tick = s.tick := rfl
@[simp] theorem State.setCtx_free (s : State) (q : Nat) (x : Ctx) : (s.setCtx q x).free = s.free := rfl
@[simp] theorem State.setCtx_nextId (s : State) (q : Nat) (x : Ctx) : (s.setCtx q x).nextId = s.nextId := rfl
@[simp] theorem State.setCtx_cur (s : State) (q : Nat) (x : Ctx) : (s.setCtx q x).cur = s.cur := rfl
@[simp] theorem State.setCtx_time (s : State) (q : Nat) (x : Ctx) : (s.setCtx q x).time = s.time := rfl
@[simp] theorem State.setCtx_cycle (s : State) (q : Nat) (x : Ctx) : (s.setCtx q x).cycle = s.cycle := rfl
@[simp] theorem State.setCtx_groups (s : State) (q : Nat) (x : Ctx) : (s.setCtx q x).groups = s.groups := rfl
@[simp] theorem State.setCtx_teams (s : State) (q : Nat) (x : Ctx) : (s.setCtx q x).teams = s.teams := rfl
@[simp] theorem State.setCtx_clusters (s : State) (q : Nat) (x : Ctx) : (s.setCtx q x).clusters = s.clusters := rfl
@[simp] theorem State.setCtx_cores (s : State) (q : Nat) (x : Ctx) : (s.setCtx q x).cores = s.cores := rfl
@[simp] theorem State.setCtx_mxAge (s : State) (q : Nat) (x : Ctx) : (s.setCtx q x).mxAge = s.mxAge := rfl
@[simp] theorem State.setCtx_dies (s : State) (q : Nat) (x : Ctx) : (s.setCtx q x).dies = s.dies := rfl
@[simp] theorem State.setCtx_hbm (s : State) (q : Nat) (x : Ctx) : (s.setCtx q x).hbm = s.hbm := rfl
@[simp] theorem State.setCtx_cmds (s : State) (q : Nat) (x : Ctx) : (s.setCtx q x).cmds = s.cmds := rfl
@[simp] theorem State.setCtx_memsys (s : State) (q : Nat) (x : Ctx) : (s.setCtx q x).memsys = s.memsys := rfl
@[simp] theorem State.setCtx_ctxs (s : State) (q : Nat) (x : Ctx) : (s.setCtx q x).ctxs = Tbl.setD s.ctxs q x .reset := rfl
@[simp] theorem State.setCtx_sched (s : State) (q : Nat) (x : Ctx) : (s.setCtx q x).sched = s.sched := rfl
@[simp] theorem State.setCtx_grace (s : State) (q : Nat) (x : Ctx) : (s.setCtx q x).grace = s.grace := rfl
@[simp] theorem State.setCtx_ctl (s : State) (q : Nat) (x : Ctx) : (s.setCtx q x).ctl = s.ctl := rfl
@[simp] theorem State.setCtx_fabric (s : State) (q : Nat) (x : Ctx) : (s.setCtx q x).fabric = s.fabric := rfl
@[simp] theorem State.setCtx_coll (s : State) (q : Nat) (x : Ctx) : (s.setCtx q x).coll = s.coll := rfl
@[simp] theorem State.setCtx_track (s : State) (q : Nat) (x : Ctx) : (s.setCtx q x).track = s.track := rfl
@[simp] theorem State.setCtx_out (s : State) (q : Nat) (x : Ctx) : (s.setCtx q x).out = s.out := rfl

/-! ### State.setTeam -/
@[simp] theorem State.setTeam_turn (s : State) (core slot : Nat) (x : Team) : (s.setTeam core slot x).turn = s.turn := rfl
@[simp] theorem State.setTeam_tick (s : State) (core slot : Nat) (x : Team) : (s.setTeam core slot x).tick = s.tick := rfl
@[simp] theorem State.setTeam_free (s : State) (core slot : Nat) (x : Team) : (s.setTeam core slot x).free = s.free := rfl
@[simp] theorem State.setTeam_nextId (s : State) (core slot : Nat) (x : Team) : (s.setTeam core slot x).nextId = s.nextId := rfl
@[simp] theorem State.setTeam_cur (s : State) (core slot : Nat) (x : Team) : (s.setTeam core slot x).cur = s.cur := rfl
@[simp] theorem State.setTeam_time (s : State) (core slot : Nat) (x : Team) : (s.setTeam core slot x).time = s.time := rfl
@[simp] theorem State.setTeam_cycle (s : State) (core slot : Nat) (x : Team) : (s.setTeam core slot x).cycle = s.cycle := rfl
@[simp] theorem State.setTeam_groups (s : State) (core slot : Nat) (x : Team) : (s.setTeam core slot x).groups = s.groups := rfl
@[simp] theorem State.setTeam_teams (s : State) (core slot : Nat) (x : Team) : (s.setTeam core slot x).teams = Tbl.put s.teams (tkey core slot) x := rfl
@[simp] theorem State.setTeam_clusters (s : State) (core slot : Nat) (x : Team) : (s.setTeam core slot x).clusters = s.clusters := rfl
@[simp] theorem State.setTeam_cores (s : State) (core slot : Nat) (x : Team) : (s.setTeam core slot x).cores = s.cores := rfl
@[simp] theorem State.setTeam_mxAge (s : State) (core slot : Nat) (x : Team) : (s.setTeam core slot x).mxAge = s.mxAge := rfl
@[simp] theorem State.setTeam_dies (s : State) (core slot : Nat) (x : Team) : (s.setTeam core slot x).dies = s.dies := rfl
@[simp] theorem State.setTeam_hbm (s : State) (core slot : Nat) (x : Team) : (s.setTeam core slot x).hbm = s.hbm := rfl
@[simp] theorem State.setTeam_cmds (s : State) (core slot : Nat) (x : Team) : (s.setTeam core slot x).cmds = s.cmds := rfl
@[simp] theorem State.setTeam_memsys (s : State) (core slot : Nat) (x : Team) : (s.setTeam core slot x).memsys = s.memsys := rfl
@[simp] theorem State.setTeam_ctxs (s : State) (core slot : Nat) (x : Team) : (s.setTeam core slot x).ctxs = s.ctxs := rfl
@[simp] theorem State.setTeam_sched (s : State) (core slot : Nat) (x : Team) : (s.setTeam core slot x).sched = s.sched := rfl
@[simp] theorem State.setTeam_grace (s : State) (core slot : Nat) (x : Team) : (s.setTeam core slot x).grace = s.grace := rfl
@[simp] theorem State.setTeam_ctl (s : State) (core slot : Nat) (x : Team) : (s.setTeam core slot x).ctl = s.ctl := rfl
@[simp] theorem State.setTeam_fabric (s : State) (core slot : Nat) (x : Team) : (s.setTeam core slot x).fabric = s.fabric := rfl
@[simp] theorem State.setTeam_coll (s : State) (core slot : Nat) (x : Team) : (s.setTeam core slot x).coll = s.coll := rfl
@[simp] theorem State.setTeam_track (s : State) (core slot : Nat) (x : Team) : (s.setTeam core slot x).track = s.track := rfl
@[simp] theorem State.setTeam_out (s : State) (core slot : Nat) (x : Team) : (s.setTeam core slot x).out = s.out := rfl

/-! ### State.emit -/
@[simp] theorem State.emit_turn (s : State) (m : Msg) : (s.emit m).turn = s.turn := rfl
@[simp] theorem State.emit_tick (s : State) (m : Msg) : (s.emit m).tick = s.tick := rfl
@[simp] theorem State.emit_free (s : State) (m : Msg) : (s.emit m).free = s.free := rfl
@[simp] theorem State.emit_nextId (s : State) (m : Msg) : (s.emit m).nextId = s.nextId := rfl
@[simp] theorem State.emit_cur (s : State) (m : Msg) : (s.emit m).cur = s.cur := rfl
@[simp] theorem State.emit_time (s : State) (m : Msg) : (s.emit m).time = s.time := rfl
@[simp] theorem State.emit_cycle (s : State) (m : Msg) : (s.emit m).cycle = s.cycle := rfl
@[simp] theorem State.emit_groups (s : State) (m : Msg) : (s.emit m).groups = s.groups := rfl
@[simp] theorem State.emit_teams (s : State) (m : Msg) : (s.emit m).teams = s.teams := rfl
@[simp] theorem State.emit_clusters (s : State) (m : Msg) : (s.emit m).clusters = s.clusters := rfl
@[simp] theorem State.emit_cores (s : State) (m : Msg) : (s.emit m).cores = s.cores := rfl
@[simp] theorem State.emit_mxAge (s : State) (m : Msg) : (s.emit m).mxAge = s.mxAge := rfl
@[simp] theorem State.emit_dies (s : State) (m : Msg) : (s.emit m).dies = s.dies := rfl
@[simp] theorem State.emit_hbm (s : State) (m : Msg) : (s.emit m).hbm = s.hbm := rfl
@[simp] theorem State.emit_cmds (s : State) (m : Msg) : (s.emit m).cmds = s.cmds := rfl
@[simp] theorem State.emit_memsys (s : State) (m : Msg) : (s.emit m).memsys = s.memsys := rfl
@[simp] theorem State.emit_ctxs (s : State) (m : Msg) : (s.emit m).ctxs = s.ctxs := rfl
@[simp] theorem State.emit_sched (s : State) (m : Msg) : (s.emit m).sched = s.sched := rfl
@[simp] theorem State.emit_grace (s : State) (m : Msg) : (s.emit m).grace = s.grace := rfl
@[simp] theorem State.emit_ctl (s : State) (m : Msg) : (s.emit m).ctl = s.ctl := rfl
@[simp] theorem State.emit_fabric (s : State) (m : Msg) : (s.emit m).fabric = s.fabric := rfl
@[simp] theorem State.emit_coll (s : State) (m : Msg) : (s.emit m).coll = s.coll := rfl
@[simp] theorem State.emit_track (s : State) (m : Msg) : (s.emit m).track = s.track := rfl
@[simp] theorem State.emit_out (s : State) (m : Msg) : (s.emit m).out = s.out ++ [m] := rfl

/-! ### State.fresh -/
@[simp] theorem State.fresh_turn (s : State) : (s.fresh).turn = s.turn := rfl
@[simp] theorem State.fresh_tick (s : State) : (s.fresh).tick = s.tick := rfl
@[simp] theorem State.fresh_free (s : State) : (s.fresh).free = s.free + 1 := rfl
@[simp] theorem State.fresh_nextId (s : State) : (s.fresh).nextId = s.nextId := rfl
@[simp] theorem State.fresh_cur (s : State) : (s.fresh).cur = s.cur := rfl
@[simp] theorem State.fresh_time (s : State) : (s.fresh).time = s.time := rfl
@[simp] theorem State.fresh_cycle (s : State) : (s.fresh).cycle = s.cycle := rfl
@[simp] theorem State.fresh_groups (s : State) : (s.fresh).groups = s.groups := rfl
@[simp] theorem State.fresh_teams (s : State) : (s.fresh).teams = s.teams := rfl
@[simp] theorem State.fresh_clusters (s : State) : (s.fresh).clusters = s.clusters := rfl
@[simp] theorem State.fresh_cores (s : State) : (s.fresh).cores = s.cores := rfl
@[simp] theorem State.fresh_mxAge (s : State) : (s.fresh).mxAge = s.mxAge := rfl
@[simp] theorem State.fresh_dies (s : State) : (s.fresh).dies = s.dies := rfl
@[simp] theorem State.fresh_hbm (s : State) : (s.fresh).hbm = s.hbm := rfl
@[simp] theorem State.fresh_cmds (s : State) : (s.fresh).cmds = s.cmds := rfl
@[simp] theorem State.fresh_memsys (s : State) : (s.fresh).memsys = s.memsys := rfl
@[simp] theorem State.fresh_ctxs (s : State) : (s.fresh).ctxs = s.ctxs := rfl
@[simp] theorem State.fresh_sched (s : State) : (s.fresh).sched = s.sched := rfl
@[simp] theorem State.fresh_grace (s : State) : (s.fresh).grace = s.grace := rfl
@[simp] theorem State.fresh_ctl (s : State) : (s.fresh).ctl = s.ctl := rfl
@[simp] theorem State.fresh_fabric (s : State) : (s.fresh).fabric = s.fabric := rfl
@[simp] theorem State.fresh_coll (s : State) : (s.fresh).coll = s.coll := rfl
@[simp] theorem State.fresh_track (s : State) : (s.fresh).track = s.track := rfl
@[simp] theorem State.fresh_out (s : State) : (s.fresh).out = s.out := rfl

/-! ### State.setMem -/
@[simp] theorem State.setMem_turn (s : State) (m : Mem) : (s.setMem m).turn = s.turn := rfl
@[simp] theorem State.setMem_tick (s : State) (m : Mem) : (s.setMem m).tick = s.tick := rfl
@[simp] theorem State.setMem_free (s : State) (m : Mem) : (s.setMem m).free = s.free := rfl
@[simp] theorem State.setMem_nextId (s : State) (m : Mem) : (s.setMem m).nextId = s.nextId := rfl
@[simp] theorem State.setMem_cur (s : State) (m : Mem) : (s.setMem m).cur = s.cur := rfl
@[simp] theorem State.setMem_time (s : State) (m : Mem) : (s.setMem m).time = s.time := rfl
@[simp] theorem State.setMem_cycle (s : State) (m : Mem) : (s.setMem m).cycle = s.cycle := rfl
@[simp] theorem State.setMem_groups (s : State) (m : Mem) : (s.setMem m).groups = s.groups := rfl
@[simp] theorem State.setMem_teams (s : State) (m : Mem) : (s.setMem m).teams = s.teams := rfl
@[simp] theorem State.setMem_clusters (s : State) (m : Mem) : (s.setMem m).clusters = s.clusters := rfl
@[simp] theorem State.setMem_cores (s : State) (m : Mem) : (s.setMem m).cores = s.cores := rfl
@[simp] theorem State.setMem_mxAge (s : State) (m : Mem) : (s.setMem m).mxAge = s.mxAge := rfl
@[simp] theorem State.setMem_dies (s : State) (m : Mem) : (s.setMem m).dies = s.dies := rfl
@[simp] theorem State.setMem_hbm (s : State) (m : Mem) : (s.setMem m).hbm = s.hbm := rfl
@[simp] theorem State.setMem_cmds (s : State) (m : Mem) : (s.setMem m).cmds = s.cmds := rfl
@[simp] theorem State.setMem_memsys (s : State) (m : Mem) : (s.setMem m).memsys = { s.memsys with mem := m } := rfl
@[simp] theorem State.setMem_ctxs (s : State) (m : Mem) : (s.setMem m).ctxs = s.ctxs := rfl
@[simp] theorem State.setMem_sched (s : State) (m : Mem) : (s.setMem m).sched = s.sched := rfl
@[simp] theorem State.setMem_grace (s : State) (m : Mem) : (s.setMem m).grace = s.grace := rfl
@[simp] theorem State.setMem_ctl (s : State) (m : Mem) : (s.setMem m).ctl = s.ctl := rfl
@[simp] theorem State.setMem_fabric (s : State) (m : Mem) : (s.setMem m).fabric = s.fabric := rfl
@[simp] theorem State.setMem_coll (s : State) (m : Mem) : (s.setMem m).coll = s.coll := rfl
@[simp] theorem State.setMem_track (s : State) (m : Mem) : (s.setMem m).track = s.track := rfl
@[simp] theorem State.setMem_out (s : State) (m : Mem) : (s.setMem m).out = s.out := rfl

/-! ### State.setL2 -/
@[simp] theorem State.setL2_turn (s : State) (t : Tbl L2Sec) : (s.setL2 t).turn = s.turn := rfl
@[simp] theorem State.setL2_tick (s : State) (t : Tbl L2Sec) : (s.setL2 t).tick = s.tick := rfl
@[simp] theorem State.setL2_free (s : State) (t : Tbl L2Sec) : (s.setL2 t).free = s.free := rfl
@[simp] theorem State.setL2_nextId (s : State) (t : Tbl L2Sec) : (s.setL2 t).nextId = s.nextId := rfl
@[simp] theorem State.setL2_cur (s : State) (t : Tbl L2Sec) : (s.setL2 t).cur = s.cur := rfl
@[simp] theorem State.setL2_time (s : State) (t : Tbl L2Sec) : (s.setL2 t).time = s.time := rfl
@[simp] theorem State.setL2_cycle (s : State) (t : Tbl L2Sec) : (s.setL2 t).cycle = s.cycle := rfl
@[simp] theorem State.setL2_groups (s : State) (t : Tbl L2Sec) : (s.setL2 t).groups = s.groups := rfl
@[simp] theorem State.setL2_teams (s : State) (t : Tbl L2Sec) : (s.setL2 t).teams = s.teams := rfl
@[simp] theorem State.setL2_clusters (s : State) (t : Tbl L2Sec) : (s.setL2 t).clusters = s.clusters := rfl
@[simp] theorem State.setL2_cores (s : State) (t : Tbl L2Sec) : (s.setL2 t).cores = s.cores := rfl
@[simp] theorem State.setL2_mxAge (s : State) (t : Tbl L2Sec) : (s.setL2 t).mxAge = s.mxAge := rfl
@[simp] theorem State.setL2_dies (s : State) (t : Tbl L2Sec) : (s.setL2 t).dies = s.dies := rfl
@[simp] theorem State.setL2_hbm (s : State) (t : Tbl L2Sec) : (s.setL2 t).hbm = s.hbm := rfl
@[simp] theorem State.setL2_cmds (s : State) (t : Tbl L2Sec) : (s.setL2 t).cmds = s.cmds := rfl
@[simp] theorem State.setL2_memsys (s : State) (t : Tbl L2Sec) : (s.setL2 t).memsys = { s.memsys with l2 := t } := rfl
@[simp] theorem State.setL2_ctxs (s : State) (t : Tbl L2Sec) : (s.setL2 t).ctxs = s.ctxs := rfl
@[simp] theorem State.setL2_sched (s : State) (t : Tbl L2Sec) : (s.setL2 t).sched = s.sched := rfl
@[simp] theorem State.setL2_grace (s : State) (t : Tbl L2Sec) : (s.setL2 t).grace = s.grace := rfl
@[simp] theorem State.setL2_ctl (s : State) (t : Tbl L2Sec) : (s.setL2 t).ctl = s.ctl := rfl
@[simp] theorem State.setL2_fabric (s : State) (t : Tbl L2Sec) : (s.setL2 t).fabric = s.fabric := rfl
@[simp] theorem State.setL2_coll (s : State) (t : Tbl L2Sec) : (s.setL2 t).coll = s.coll := rfl
@[simp] theorem State.setL2_track (s : State) (t : Tbl L2Sec) : (s.setL2 t).track = s.track := rfl
@[simp] theorem State.setL2_out (s : State) (t : Tbl L2Sec) : (s.setL2 t).out = s.out := rfl

/-! ### State.setDram -/
@[simp] theorem State.setDram_turn (s : State) (t : Tbl DramBlock) : (s.setDram t).turn = s.turn := rfl
@[simp] theorem State.setDram_tick (s : State) (t : Tbl DramBlock) : (s.setDram t).tick = s.tick := rfl
@[simp] theorem State.setDram_free (s : State) (t : Tbl DramBlock) : (s.setDram t).free = s.free := rfl
@[simp] theorem State.setDram_nextId (s : State) (t : Tbl DramBlock) : (s.setDram t).nextId = s.nextId := rfl
@[simp] theorem State.setDram_cur (s : State) (t : Tbl DramBlock) : (s.setDram t).cur = s.cur := rfl
@[simp] theorem State.setDram_time (s : State) (t : Tbl DramBlock) : (s.setDram t).time = s.time := rfl
@[simp] theorem State.setDram_cycle (s : State) (t : Tbl DramBlock) : (s.setDram t).cycle = s.cycle := rfl
@[simp] theorem State.setDram_groups (s : State) (t : Tbl DramBlock) : (s.setDram t).groups = s.groups := rfl
@[simp] theorem State.setDram_teams (s : State) (t : Tbl DramBlock) : (s.setDram t).teams = s.teams := rfl
@[simp] theorem State.setDram_clusters (s : State) (t : Tbl DramBlock) : (s.setDram t).clusters = s.clusters := rfl
@[simp] theorem State.setDram_cores (s : State) (t : Tbl DramBlock) : (s.setDram t).cores = s.cores := rfl
@[simp] theorem State.setDram_mxAge (s : State) (t : Tbl DramBlock) : (s.setDram t).mxAge = s.mxAge := rfl
@[simp] theorem State.setDram_dies (s : State) (t : Tbl DramBlock) : (s.setDram t).dies = s.dies := rfl
@[simp] theorem State.setDram_hbm (s : State) (t : Tbl DramBlock) : (s.setDram t).hbm = s.hbm := rfl
@[simp] theorem State.setDram_cmds (s : State) (t : Tbl DramBlock) : (s.setDram t).cmds = s.cmds := rfl
@[simp] theorem State.setDram_memsys (s : State) (t : Tbl DramBlock) : (s.setDram t).memsys = { s.memsys with dram := sweepBlocks t } := rfl
@[simp] theorem State.setDram_ctxs (s : State) (t : Tbl DramBlock) : (s.setDram t).ctxs = s.ctxs := rfl
@[simp] theorem State.setDram_sched (s : State) (t : Tbl DramBlock) : (s.setDram t).sched = s.sched := rfl
@[simp] theorem State.setDram_grace (s : State) (t : Tbl DramBlock) : (s.setDram t).grace = s.grace := rfl
@[simp] theorem State.setDram_ctl (s : State) (t : Tbl DramBlock) : (s.setDram t).ctl = s.ctl := rfl
@[simp] theorem State.setDram_fabric (s : State) (t : Tbl DramBlock) : (s.setDram t).fabric = s.fabric := rfl
@[simp] theorem State.setDram_coll (s : State) (t : Tbl DramBlock) : (s.setDram t).coll = s.coll := rfl
@[simp] theorem State.setDram_track (s : State) (t : Tbl DramBlock) : (s.setDram t).track = s.track := rfl
@[simp] theorem State.setDram_out (s : State) (t : Tbl DramBlock) : (s.setDram t).out = s.out := rfl

/-! ### State.l1Drop -/
@[simp] theorem State.l1Drop_turn (s : State) (sec : Nat) (but : Option Nat) : (s.l1Drop sec but).turn = s.turn := rfl
@[simp] theorem State.l1Drop_tick (s : State) (sec : Nat) (but : Option Nat) : (s.l1Drop sec but).tick = s.tick := rfl
@[simp] theorem State.l1Drop_free (s : State) (sec : Nat) (but : Option Nat) : (s.l1Drop sec but).free = s.free := rfl
@[simp] theorem State.l1Drop_nextId (s : State) (sec : Nat) (but : Option Nat) : (s.l1Drop sec but).nextId = s.nextId := rfl
@[simp] theorem State.l1Drop_cur (s : State) (sec : Nat) (but : Option Nat) : (s.l1Drop sec but).cur = s.cur := rfl
@[simp] theorem State.l1Drop_time (s : State) (sec : Nat) (but : Option Nat) : (s.l1Drop sec but).time = s.time := rfl
@[simp] theorem State.l1Drop_cycle (s : State) (sec : Nat) (but : Option Nat) : (s.l1Drop sec but).cycle = s.cycle := rfl
@[simp] theorem State.l1Drop_groups (s : State) (sec : Nat) (but : Option Nat) : (s.l1Drop sec but).groups = s.groups := rfl
@[simp] theorem State.l1Drop_teams (s : State) (sec : Nat) (but : Option Nat) : (s.l1Drop sec but).teams = s.teams := rfl
@[simp] theorem State.l1Drop_clusters (s : State) (sec : Nat) (but : Option Nat) : (s.l1Drop sec but).clusters = s.clusters := rfl
@[simp] theorem State.l1Drop_cores (s : State) (sec : Nat) (but : Option Nat) : (s.l1Drop sec but).cores = s.cores.map fun c => if some c.1 = but then c else (c.1, c.2.dropSec sec) := rfl
@[simp] theorem State.l1Drop_mxAge (s : State) (sec : Nat) (but : Option Nat) : (s.l1Drop sec but).mxAge = s.mxAge := rfl
@[simp] theorem State.l1Drop_dies (s : State) (sec : Nat) (but : Option Nat) : (s.l1Drop sec but).dies = s.dies := rfl
@[simp] theorem State.l1Drop_hbm (s : State) (sec : Nat) (but : Option Nat) : (s.l1Drop sec but).hbm = s.hbm := rfl
@[simp] theorem State.l1Drop_cmds (s : State) (sec : Nat) (but : Option Nat) : (s.l1Drop sec but).cmds = s.cmds := rfl
@[simp] theorem State.l1Drop_memsys (s : State) (sec : Nat) (but : Option Nat) : (s.l1Drop sec but).memsys = s.memsys := rfl
@[simp] theorem State.l1Drop_ctxs (s : State) (sec : Nat) (but : Option Nat) : (s.l1Drop sec but).ctxs = s.ctxs := rfl
@[simp] theorem State.l1Drop_sched (s : State) (sec : Nat) (but : Option Nat) : (s.l1Drop sec but).sched = s.sched := rfl
@[simp] theorem State.l1Drop_grace (s : State) (sec : Nat) (but : Option Nat) : (s.l1Drop sec but).grace = s.grace := rfl
@[simp] theorem State.l1Drop_ctl (s : State) (sec : Nat) (but : Option Nat) : (s.l1Drop sec but).ctl = s.ctl := rfl
@[simp] theorem State.l1Drop_fabric (s : State) (sec : Nat) (but : Option Nat) : (s.l1Drop sec but).fabric = s.fabric := rfl
@[simp] theorem State.l1Drop_coll (s : State) (sec : Nat) (but : Option Nat) : (s.l1Drop sec but).coll = s.coll := rfl
@[simp] theorem State.l1Drop_track (s : State) (sec : Nat) (but : Option Nat) : (s.l1Drop sec but).track = s.track := rfl
@[simp] theorem State.l1Drop_out (s : State) (sec : Nat) (but : Option Nat) : (s.l1Drop sec but).out = s.out := rfl

/-! ### State.useLine -/
@[simp] theorem State.useLine_turn (s : State) (line : Nat) : (s.useLine line).turn = s.turn := rfl
@[simp] theorem State.useLine_tick (s : State) (line : Nat) : (s.useLine line).tick = s.tick := rfl
@[simp] theorem State.useLine_free (s : State) (line : Nat) : (s.useLine line).free = s.free := rfl
@[simp] theorem State.useLine_nextId (s : State) (line : Nat) : (s.useLine line).nextId = s.nextId := rfl
@[simp] theorem State.useLine_cur (s : State) (line : Nat) : (s.useLine line).cur = s.cur := rfl
@[simp] theorem State.useLine_time (s : State) (line : Nat) : (s.useLine line).time = s.time := rfl
@[simp] theorem State.useLine_cycle (s : State) (line : Nat) : (s.useLine line).cycle = s.cycle := rfl
@[simp] theorem State.useLine_groups (s : State) (line : Nat) : (s.useLine line).groups = s.groups := rfl
@[simp] theorem State.useLine_teams (s : State) (line : Nat) : (s.useLine line).teams = s.teams := rfl
@[simp] theorem State.useLine_clusters (s : State) (line : Nat) : (s.useLine line).clusters = s.clusters := rfl
@[simp] theorem State.useLine_cores (s : State) (line : Nat) : (s.useLine line).cores = s.cores := rfl
@[simp] theorem State.useLine_mxAge (s : State) (line : Nat) : (s.useLine line).mxAge = s.mxAge := rfl
@[simp] theorem State.useLine_dies (s : State) (line : Nat) : (s.useLine line).dies = s.dies := rfl
@[simp] theorem State.useLine_hbm (s : State) (line : Nat) : (s.useLine line).hbm = s.hbm := rfl
@[simp] theorem State.useLine_cmds (s : State) (line : Nat) : (s.useLine line).cmds = s.cmds := rfl
@[simp] theorem State.useLine_memsys (s : State) (line : Nat) : (s.useLine line).memsys = { s.memsys with
    uses := s.memsys.uses + 1
    lines := Tbl.put s.memsys.lines line ⟨s.memsys.uses, ((Tbl.find? s.memsys.lines line).map fun l => l.keep).getD false⟩ } := rfl
@[simp] theorem State.useLine_ctxs (s : State) (line : Nat) : (s.useLine line).ctxs = s.ctxs := rfl
@[simp] theorem State.useLine_sched (s : State) (line : Nat) : (s.useLine line).sched = s.sched := rfl
@[simp] theorem State.useLine_grace (s : State) (line : Nat) : (s.useLine line).grace = s.grace := rfl
@[simp] theorem State.useLine_ctl (s : State) (line : Nat) : (s.useLine line).ctl = s.ctl := rfl
@[simp] theorem State.useLine_fabric (s : State) (line : Nat) : (s.useLine line).fabric = s.fabric := rfl
@[simp] theorem State.useLine_coll (s : State) (line : Nat) : (s.useLine line).coll = s.coll := rfl
@[simp] theorem State.useLine_track (s : State) (line : Nat) : (s.useLine line).track = s.track := rfl
@[simp] theorem State.useLine_out (s : State) (line : Nat) : (s.useLine line).out = s.out := rfl

/-! ### Group.wrV -/
@[simp] theorem Group.wrV_ids (g : Group) (l n : Nat) (x : Word32) : (g.wrV l n x).ids = g.ids := rfl
@[simp] theorem Group.wrV_regs (g : Group) (l n : Nat) (x : Word32) : (g.wrV l n x).regs = { g.regs with v := Tbl.setD g.regs.v (l * 256 + n) x 0, badV := g.regs.badV.filter (· != l * 256 + n) } := rfl
@[simp] theorem Group.wrV_mon (g : Group) (l n : Nat) (x : Word32) : (g.wrV l n x).mon = g.mon := rfl
@[simp] theorem Group.wrV_inflight (g : Group) (l n : Nat) (x : Word32) : (g.wrV l n x).inflight = g.inflight := rfl
@[simp] theorem Group.wrV_statuses (g : Group) (l n : Nat) (x : Word32) : (g.wrV l n x).statuses = g.statuses := rfl
@[simp] theorem Group.wrV_holds (g : Group) (l n : Nat) (x : Word32) : (g.wrV l n x).holds = g.holds := rfl
@[simp] theorem Group.wrV_batches (g : Group) (l n : Nat) (x : Word32) : (g.wrV l n x).batches = g.batches := rfl
@[simp] theorem Group.wrV_ents (g : Group) (l n : Nat) (x : Word32) : (g.wrV l n x).ents = g.ents := rfl
@[simp] theorem Group.wrV_fpstat (g : Group) (l n : Nat) (x : Word32) : (g.wrV l n x).fpstat = g.fpstat := rfl
@[simp] theorem Group.wrV_lease (g : Group) (l n : Nat) (x : Word32) : (g.wrV l n x).lease = g.lease := rfl
@[simp] theorem Group.wrV_measured (g : Group) (l n : Nat) (x : Word32) : (g.wrV l n x).measured = g.measured := rfl
@[simp] theorem Group.wrV_rdepth (g : Group) (l n : Nat) (x : Word32) : (g.wrV l n x).rdepth = g.rdepth := rfl
@[simp] theorem Group.wrV_rtag (g : Group) (l n : Nat) (x : Word32) : (g.wrV l n x).rtag = g.rtag := rfl
@[simp] theorem Group.wrV_region (g : Group) (l n : Nat) (x : Word32) : (g.wrV l n x).region = g.region := rfl
@[simp] theorem Group.wrV_regcnt (g : Group) (l n : Nat) (x : Word32) : (g.wrV l n x).regcnt = g.regcnt := rfl
@[simp] theorem Group.wrV_block (g : Group) (l n : Nat) (x : Word32) : (g.wrV l n x).block = g.block := rfl
@[simp] theorem Group.wrV_blockPos (g : Group) (l n : Nat) (x : Word32) : (g.wrV l n x).blockPos = g.blockPos := rfl
@[simp] theorem Group.wrV_act (g : Group) (l n : Nat) (x : Word32) : (g.wrV l n x).act = g.act := rfl
@[simp] theorem Group.wrV_dbg (g : Group) (l n : Nat) (x : Word32) : (g.wrV l n x).dbg = g.dbg := rfl
@[simp] theorem Group.wrV_stops (g : Group) (l n : Nat) (x : Word32) : (g.wrV l n x).stops = g.stops := rfl
@[simp] theorem Group.wrV_toksets (g : Group) (l n : Nat) (x : Word32) : (g.wrV l n x).toksets = g.toksets := rfl
@[simp] theorem Group.wrV_leader (g : Group) (l n : Nat) (x : Word32) : (g.wrV l n x).leader = g.leader := rfl
@[simp] theorem Group.wrV_shadow (g : Group) (l n : Nat) (x : Word32) : (g.wrV l n x).shadow = g.shadow := rfl
@[simp] theorem Group.wrV_trace (g : Group) (l n : Nat) (x : Word32) : (g.wrV l n x).trace = g.trace := rfl
@[simp] theorem Group.wrV_again (g : Group) (l n : Nat) (x : Word32) : (g.wrV l n x).again = g.again := rfl
@[simp] theorem Group.wrV_restarts (g : Group) (l n : Nat) (x : Word32) : (g.wrV l n x).restarts = g.restarts := rfl
@[simp] theorem Group.wrV_loadQueue (g : Group) (l n : Nat) (x : Word32) : (g.wrV l n x).loadQueue = g.loadQueue := rfl
@[simp] theorem Group.wrV_readQueue (g : Group) (l n : Nat) (x : Word32) : (g.wrV l n x).readQueue = g.readQueue := rfl
@[simp] theorem Group.wrV_binds (g : Group) (l n : Nat) (x : Word32) : (g.wrV l n x).binds = g.binds := rfl
@[simp] theorem Group.wrV_resv (g : Group) (l n : Nat) (x : Word32) : (g.wrV l n x).resv = g.resv := rfl
@[simp] theorem Group.wrV_lateTimeout (g : Group) (l n : Nat) (x : Word32) : (g.wrV l n x).lateTimeout = g.lateTimeout := rfl
@[simp] theorem Group.wrV_meet (g : Group) (l n : Nat) (x : Word32) : (g.wrV l n x).meet = g.meet := rfl
@[simp] theorem Group.wrV_records (g : Group) (l n : Nat) (x : Word32) : (g.wrV l n x).records = g.records := rfl

/-! ### Group.wrS -/
@[simp] theorem Group.wrS_ids (g : Group) (n : Nat) (x : Word32) : (g.wrS n x).ids = g.ids := rfl
@[simp] theorem Group.wrS_regs (g : Group) (n : Nat) (x : Word32) : (g.wrS n x).regs = { g.regs with s := Tbl.setD g.regs.s n x 0, badS := g.regs.badS.filter (· != n) } := rfl
@[simp] theorem Group.wrS_mon (g : Group) (n : Nat) (x : Word32) : (g.wrS n x).mon = g.mon := rfl
@[simp] theorem Group.wrS_inflight (g : Group) (n : Nat) (x : Word32) : (g.wrS n x).inflight = g.inflight := rfl
@[simp] theorem Group.wrS_statuses (g : Group) (n : Nat) (x : Word32) : (g.wrS n x).statuses = g.statuses := rfl
@[simp] theorem Group.wrS_holds (g : Group) (n : Nat) (x : Word32) : (g.wrS n x).holds = g.holds := rfl
@[simp] theorem Group.wrS_batches (g : Group) (n : Nat) (x : Word32) : (g.wrS n x).batches = g.batches := rfl
@[simp] theorem Group.wrS_ents (g : Group) (n : Nat) (x : Word32) : (g.wrS n x).ents = g.ents := rfl
@[simp] theorem Group.wrS_fpstat (g : Group) (n : Nat) (x : Word32) : (g.wrS n x).fpstat = g.fpstat := rfl
@[simp] theorem Group.wrS_lease (g : Group) (n : Nat) (x : Word32) : (g.wrS n x).lease = g.lease := rfl
@[simp] theorem Group.wrS_measured (g : Group) (n : Nat) (x : Word32) : (g.wrS n x).measured = g.measured := rfl
@[simp] theorem Group.wrS_rdepth (g : Group) (n : Nat) (x : Word32) : (g.wrS n x).rdepth = g.rdepth := rfl
@[simp] theorem Group.wrS_rtag (g : Group) (n : Nat) (x : Word32) : (g.wrS n x).rtag = g.rtag := rfl
@[simp] theorem Group.wrS_region (g : Group) (n : Nat) (x : Word32) : (g.wrS n x).region = g.region := rfl
@[simp] theorem Group.wrS_regcnt (g : Group) (n : Nat) (x : Word32) : (g.wrS n x).regcnt = g.regcnt := rfl
@[simp] theorem Group.wrS_block (g : Group) (n : Nat) (x : Word32) : (g.wrS n x).block = g.block := rfl
@[simp] theorem Group.wrS_blockPos (g : Group) (n : Nat) (x : Word32) : (g.wrS n x).blockPos = g.blockPos := rfl
@[simp] theorem Group.wrS_act (g : Group) (n : Nat) (x : Word32) : (g.wrS n x).act = g.act := rfl
@[simp] theorem Group.wrS_dbg (g : Group) (n : Nat) (x : Word32) : (g.wrS n x).dbg = g.dbg := rfl
@[simp] theorem Group.wrS_stops (g : Group) (n : Nat) (x : Word32) : (g.wrS n x).stops = g.stops := rfl
@[simp] theorem Group.wrS_toksets (g : Group) (n : Nat) (x : Word32) : (g.wrS n x).toksets = g.toksets := rfl
@[simp] theorem Group.wrS_leader (g : Group) (n : Nat) (x : Word32) : (g.wrS n x).leader = g.leader := rfl
@[simp] theorem Group.wrS_shadow (g : Group) (n : Nat) (x : Word32) : (g.wrS n x).shadow = g.shadow := rfl
@[simp] theorem Group.wrS_trace (g : Group) (n : Nat) (x : Word32) : (g.wrS n x).trace = g.trace := rfl
@[simp] theorem Group.wrS_again (g : Group) (n : Nat) (x : Word32) : (g.wrS n x).again = g.again := rfl
@[simp] theorem Group.wrS_restarts (g : Group) (n : Nat) (x : Word32) : (g.wrS n x).restarts = g.restarts := rfl
@[simp] theorem Group.wrS_loadQueue (g : Group) (n : Nat) (x : Word32) : (g.wrS n x).loadQueue = g.loadQueue := rfl
@[simp] theorem Group.wrS_readQueue (g : Group) (n : Nat) (x : Word32) : (g.wrS n x).readQueue = g.readQueue := rfl
@[simp] theorem Group.wrS_binds (g : Group) (n : Nat) (x : Word32) : (g.wrS n x).binds = g.binds := rfl
@[simp] theorem Group.wrS_resv (g : Group) (n : Nat) (x : Word32) : (g.wrS n x).resv = g.resv := rfl
@[simp] theorem Group.wrS_lateTimeout (g : Group) (n : Nat) (x : Word32) : (g.wrS n x).lateTimeout = g.lateTimeout := rfl
@[simp] theorem Group.wrS_meet (g : Group) (n : Nat) (x : Word32) : (g.wrS n x).meet = g.meet := rfl
@[simp] theorem Group.wrS_records (g : Group) (n : Nat) (x : Word32) : (g.wrS n x).records = g.records := rfl

/-! ### Group.setEnt -/
@[simp] theorem Group.setEnt_ids (g : Group) (k : Nat) (e : Entry) : (g.setEnt k e).ids = g.ids := rfl
@[simp] theorem Group.setEnt_regs (g : Group) (k : Nat) (e : Entry) : (g.setEnt k e).regs = g.regs := rfl
@[simp] theorem Group.setEnt_mon (g : Group) (k : Nat) (e : Entry) : (g.setEnt k e).mon = g.mon := rfl
@[simp] theorem Group.setEnt_inflight (g : Group) (k : Nat) (e : Entry) : (g.setEnt k e).inflight = g.inflight := rfl
@[simp] theorem Group.setEnt_statuses (g : Group) (k : Nat) (e : Entry) : (g.setEnt k e).statuses = g.statuses := rfl
@[simp] theorem Group.setEnt_holds (g : Group) (k : Nat) (e : Entry) : (g.setEnt k e).holds = g.holds := rfl
@[simp] theorem Group.setEnt_batches (g : Group) (k : Nat) (e : Entry) : (g.setEnt k e).batches = g.batches := rfl
@[simp] theorem Group.setEnt_ents (g : Group) (k : Nat) (e : Entry) : (g.setEnt k e).ents = Tbl.setD g.ents k (if e.st = .free then .freed else e) .freed := rfl
@[simp] theorem Group.setEnt_fpstat (g : Group) (k : Nat) (e : Entry) : (g.setEnt k e).fpstat = g.fpstat := rfl
@[simp] theorem Group.setEnt_lease (g : Group) (k : Nat) (e : Entry) : (g.setEnt k e).lease = g.lease := rfl
@[simp] theorem Group.setEnt_measured (g : Group) (k : Nat) (e : Entry) : (g.setEnt k e).measured = g.measured := rfl
@[simp] theorem Group.setEnt_rdepth (g : Group) (k : Nat) (e : Entry) : (g.setEnt k e).rdepth = g.rdepth := rfl
@[simp] theorem Group.setEnt_rtag (g : Group) (k : Nat) (e : Entry) : (g.setEnt k e).rtag = g.rtag := rfl
@[simp] theorem Group.setEnt_region (g : Group) (k : Nat) (e : Entry) : (g.setEnt k e).region = g.region := rfl
@[simp] theorem Group.setEnt_regcnt (g : Group) (k : Nat) (e : Entry) : (g.setEnt k e).regcnt = g.regcnt := rfl
@[simp] theorem Group.setEnt_block (g : Group) (k : Nat) (e : Entry) : (g.setEnt k e).block = g.block := rfl
@[simp] theorem Group.setEnt_blockPos (g : Group) (k : Nat) (e : Entry) : (g.setEnt k e).blockPos = g.blockPos := rfl
@[simp] theorem Group.setEnt_act (g : Group) (k : Nat) (e : Entry) : (g.setEnt k e).act = g.act := rfl
@[simp] theorem Group.setEnt_dbg (g : Group) (k : Nat) (e : Entry) : (g.setEnt k e).dbg = g.dbg := rfl
@[simp] theorem Group.setEnt_stops (g : Group) (k : Nat) (e : Entry) : (g.setEnt k e).stops = g.stops := rfl
@[simp] theorem Group.setEnt_toksets (g : Group) (k : Nat) (e : Entry) : (g.setEnt k e).toksets = g.toksets := rfl
@[simp] theorem Group.setEnt_leader (g : Group) (k : Nat) (e : Entry) : (g.setEnt k e).leader = g.leader := rfl
@[simp] theorem Group.setEnt_shadow (g : Group) (k : Nat) (e : Entry) : (g.setEnt k e).shadow = g.shadow := rfl
@[simp] theorem Group.setEnt_trace (g : Group) (k : Nat) (e : Entry) : (g.setEnt k e).trace = g.trace := rfl
@[simp] theorem Group.setEnt_again (g : Group) (k : Nat) (e : Entry) : (g.setEnt k e).again = g.again := rfl
@[simp] theorem Group.setEnt_restarts (g : Group) (k : Nat) (e : Entry) : (g.setEnt k e).restarts = g.restarts := rfl
@[simp] theorem Group.setEnt_loadQueue (g : Group) (k : Nat) (e : Entry) : (g.setEnt k e).loadQueue = g.loadQueue := rfl
@[simp] theorem Group.setEnt_readQueue (g : Group) (k : Nat) (e : Entry) : (g.setEnt k e).readQueue = g.readQueue := rfl
@[simp] theorem Group.setEnt_binds (g : Group) (k : Nat) (e : Entry) : (g.setEnt k e).binds = g.binds := rfl
@[simp] theorem Group.setEnt_resv (g : Group) (k : Nat) (e : Entry) : (g.setEnt k e).resv = g.resv := rfl
@[simp] theorem Group.setEnt_lateTimeout (g : Group) (k : Nat) (e : Entry) : (g.setEnt k e).lateTimeout = g.lateTimeout := rfl
@[simp] theorem Group.setEnt_meet (g : Group) (k : Nat) (e : Entry) : (g.setEnt k e).meet = g.meet := rfl
@[simp] theorem Group.setEnt_records (g : Group) (k : Nat) (e : Entry) : (g.setEnt k e).records = g.records := rfl

end Sys2Proof.Machine
end

