-- ==== Sys2Proof/Laws/Table.lean ====
section
/-! SUPPORT. Tables: a read after a write, and that every operation keeps the canonical form. -/

namespace Sys2Proof.Machine

variable {β : Type}

@[simp] theorem Tbl.find?_put_self (t : Tbl β) (a : Nat) (v : β) : Tbl.find? (Tbl.put t a v) a = some v := by
  induction t with
  | nil => simp [Tbl.put, Tbl.find?]
  | cons p t ih =>
    obtain ⟨k, w⟩ := p
    simp only [Tbl.put]
    split
    · simp [Tbl.find?]
    · split
      · simp [Tbl.find?]
      · rename_i h1 h2
        simp [Tbl.find?, Ne.symm h2, ih]

theorem Tbl.find?_put_ne (t : Tbl β) {a b : Nat} (v : β) (h : b ≠ a) : Tbl.find? (Tbl.put t a v) b = Tbl.find? t b := by
  induction t with
  | nil => simp [Tbl.put, Tbl.find?, Ne.symm h]
  | cons p t ih =>
    obtain ⟨k, w⟩ := p
    simp only [Tbl.put]
    split
    · simp [Tbl.find?, Ne.symm h]
    · split
      · rename_i _ h2
        subst h2
        simp [Tbl.find?, Ne.symm h]
      · simp [Tbl.find?, ih]

@[simp] theorem Tbl.getD_put_self (t : Tbl β) (a : Nat) (v d : β) : Tbl.getD (Tbl.put t a v) a d = v := by simp [Tbl.getD]

theorem Tbl.getD_put_ne (t : Tbl β) {a b : Nat} (v d : β) (h : b ≠ a) : Tbl.getD (Tbl.put t a v) b d = Tbl.getD t b d := by
  simp [Tbl.getD, Tbl.find?_put_ne t v h]

theorem Tbl.find?_del_ne (t : Tbl β) {a b : Nat} (h : b ≠ a) : Tbl.find? (Tbl.del t a) b = Tbl.find? t b := by
  induction t with
  | nil => rfl
  | cons p t ih =>
    obtain ⟨k, w⟩ := p
    simp only [Tbl.del]
    split
    · rename_i h2
      subst h2
      simp [Tbl.find?, Ne.symm h, ih]
    · simp [Tbl.find?, ih]

@[simp] theorem Tbl.find?_del_self (t : Tbl β) (a : Nat) : Tbl.find? (Tbl.del t a) a = none := by
  induction t with
  | nil => rfl
  | cons p t ih =>
    obtain ⟨k, w⟩ := p
    simp only [Tbl.del]
    split
    · exact ih
    · rename_i h2
      simp only [Tbl.find?, if_neg (Ne.symm h2)]
      exact ih

theorem Tbl.risingFrom_mono (t : Tbl β) {lo lo' : Nat} (h : Tbl.risingFrom lo t = true) (hl : lo' ≤ lo) : Tbl.risingFrom lo' t = true := by
  cases t with
  | nil => rfl
  | cons p t =>
    obtain ⟨k, w⟩ := p
    simp only [Tbl.risingFrom, Bool.and_eq_true, decide_eq_true_eq] at h ⊢
    exact ⟨by omega, h.2⟩

theorem Tbl.risingFrom_put (t : Tbl β) {lo : Nat} (a : Nat) (v : β) (h : Tbl.risingFrom lo t = true) (ha : lo ≤ a) :
    Tbl.risingFrom lo (Tbl.put t a v) = true := by
  induction t generalizing lo with
  | nil => simp [Tbl.put, Tbl.risingFrom, ha]
  | cons p t ih =>
    obtain ⟨k, w⟩ := p
    simp only [Tbl.risingFrom, Bool.and_eq_true, decide_eq_true_eq] at h
    simp only [Tbl.put]
    split
    · simp only [Tbl.risingFrom, Bool.and_eq_true, decide_eq_true_eq]
      exact ⟨ha, by omega, h.2⟩
    · split
      · rename_i _ h2
        subst h2
        simp only [Tbl.risingFrom, Bool.and_eq_true, decide_eq_true_eq]
        exact ⟨ha, h.2⟩
      · simp only [Tbl.risingFrom, Bool.and_eq_true, decide_eq_true_eq]
        exact ⟨h.1, ih h.2 (by omega)⟩

theorem Tbl.risingFrom_del (t : Tbl β) {lo : Nat} (a : Nat) (h : Tbl.risingFrom lo t = true) : Tbl.risingFrom lo (Tbl.del t a) = true := by
  induction t generalizing lo with
  | nil => rfl
  | cons p t ih =>
    obtain ⟨k, w⟩ := p
    simp only [Tbl.risingFrom, Bool.and_eq_true, decide_eq_true_eq] at h
    simp only [Tbl.del]
    split
    · exact Tbl.risingFrom_mono _ (ih h.2) (by omega)
    · simp only [Tbl.risingFrom, Bool.and_eq_true, decide_eq_true_eq]
      exact ⟨h.1, ih h.2⟩

theorem Tbl.rising_put (t : Tbl β) (a : Nat) (v : β) (h : Tbl.rising t = true) : Tbl.rising (Tbl.put t a v) = true :=
  Tbl.risingFrom_put t a v h (Nat.zero_le a)

theorem Tbl.rising_del (t : Tbl β) (a : Nat) (h : Tbl.rising t = true) : Tbl.rising (Tbl.del t a) = true := Tbl.risingFrom_del t a h

theorem Tbl.rising_setD [DecidableEq β] (t : Tbl β) (a : Nat) (v d : β) (h : Tbl.rising t = true) : Tbl.rising (Tbl.setD t a v d) = true := by
  unfold Tbl.setD
  split
  · exact Tbl.rising_del t a h
  · exact Tbl.rising_put t a v h

/-- An entry of a table after a put is the new one or an old one. -/
theorem Tbl.mem_put (t : Tbl β) (a : Nat) (v : β) {p : Nat × β} (h : p ∈ Tbl.put t a v) : p = (a, v) ∨ p ∈ t := by
  induction t with
  | nil => simpa [Tbl.put] using h
  | cons q t ih =>
    obtain ⟨k, w⟩ := q
    simp only [Tbl.put] at h
    split at h
    · simpa using h
    · split at h
      · rcases List.mem_cons.1 h with h | h
        · exact .inl h
        · exact .inr (List.mem_cons_of_mem _ h)
      · rcases List.mem_cons.1 h with h | h
        · exact .inr (h ▸ List.mem_cons_self ..)
        · rcases ih h with h | h
          · exact .inl h
          · exact .inr (List.mem_cons_of_mem _ h)

theorem Tbl.mem_del (t : Tbl β) (a : Nat) {p : Nat × β} (h : p ∈ Tbl.del t a) : p ∈ t := by
  induction t with
  | nil => simpa [Tbl.del] using h
  | cons q t ih =>
    obtain ⟨k, w⟩ := q
    simp only [Tbl.del] at h
    split at h
    · exact List.mem_cons_of_mem _ (ih h)
    · rcases List.mem_cons.1 h with h | h
      · exact h ▸ List.mem_cons_self ..
      · exact List.mem_cons_of_mem _ (ih h)

/-- A read after a write of a table with a default. -/
@[simp] theorem Tbl.getD_setD_self [DecidableEq β] (t : Tbl β) (a : Nat) (v d : β) : Tbl.getD (Tbl.setD t a v d) a d = v := by
  unfold Tbl.setD
  split
  · rename_i e
    simp [Tbl.getD, e]
  · simp

theorem Tbl.getD_setD_ne [DecidableEq β] (t : Tbl β) {a b : Nat} (v d : β) (h : b ≠ a) : Tbl.getD (Tbl.setD t a v d) b d = Tbl.getD t b d := by
  unfold Tbl.setD
  split
  · simp [Tbl.getD, Tbl.find?_del_ne t h]
  · exact Tbl.getD_put_ne t v d h

end Sys2Proof.Machine
end

