-- ==== Sys2Proof/Laws/Memory.lean ====
section
/-! SUPPORT. Memory: a read after a write, that a write leaves every other byte alone, and that every operation keeps the canonical form. -/

namespace Sys2Proof.Machine

@[simp] theorem Mem.setByte_unlisted (m : Mem) (a b : Nat) (x : Byte) : (m.setByte a x).unlisted b = m.unlisted b := rfl

theorem Mem.wf_iff (m : Mem) : m.wf = true ↔ Tbl.rising m.bytes = true ∧ ∀ c ∈ m.bytes, c.2 ≠ m.unlisted c.1 := by
  simp [Mem.wf, List.all_eq_true]

theorem Mem.wf_setByte (m : Mem) (a : Nat) (x : Byte) (h : m.wf = true) : (m.setByte a x).wf = true := by
  rw [Mem.wf_iff] at h ⊢
  refine ⟨Tbl.rising_setD _ _ _ _ h.1, fun c hc => ?_⟩
  show c.2 ≠ m.unlisted c.1
  simp only [Mem.setByte, Tbl.setD] at hc
  split at hc
  · exact h.2 c (Tbl.mem_del _ _ hc)
  · rename_i hx
    rcases Tbl.mem_put _ _ _ hc with rfl | hc
    · exact hx
    · exact h.2 c hc

theorem Mem.wf_wr (m : Mem) (a n x : Nat) (h : m.wf = true) : (m.wr a n x).wf = true := by
  induction n generalizing m a x with
  | zero => exact h
  | succ n ih => exact ih _ _ _ (Mem.wf_setByte m a _ h)

theorem Tbl.risingFrom_filter {β : Type} (t : Tbl β) (f : Nat × β → Bool) {lo : Nat} (h : Tbl.risingFrom lo t = true) :
    Tbl.risingFrom lo (List.filter f t) = true := by
  induction t generalizing lo with
  | nil => rfl
  | cons p t ih =>
    obtain ⟨k, w⟩ := p
    simp only [Tbl.risingFrom, Bool.and_eq_true, decide_eq_true_eq] at h
    simp only [List.filter_cons]
    split
    · simp only [Tbl.risingFrom, Bool.and_eq_true, decide_eq_true_eq]
      exact ⟨h.1, ih h.2⟩
    · exact ih (Tbl.risingFrom_mono t h.2 (by omega))

theorem Mem.wf_loosen (m : Mem) (a n name : Nat) (h : m.wf = true) : (m.loosen a n name).wf = true := by
  rw [Mem.wf_iff] at h ⊢
  refine ⟨Tbl.risingFrom_filter _ _ h.1, fun c hc => ?_⟩
  simp only [Mem.loosen, List.mem_filter, Bool.not_eq_true', Bool.and_eq_false_imp, decide_eq_true_eq, decide_eq_false_iff_not] at hc
  have hu : (m.loosen a n name).unlisted c.1 = m.unlisted c.1 := by
    unfold Mem.unlisted Mem.loosen
    have : (decide (a ≤ c.1) && decide (c.1 < a + n)) = false := by
      simpa [Bool.and_eq_false_imp] using hc.2
    simp [List.find?, this]
  rw [hu]
  exact h.2 c hc.1

/-- The other tables of memory do not bear on its canonical form. -/
theorem Mem.wf_congr (m m' : Mem) (hb : m'.bytes = m.bytes) (hl : m'.loose = m.loose) (h : m.wf = true) : m'.wf = true := by
  rw [Mem.wf_iff] at h ⊢
  have hu : ∀ a, m'.unlisted a = m.unlisted a := fun a => by simp [Mem.unlisted, hl]
  exact ⟨hb ▸ h.1, fun c hc => by rw [hu]; exact h.2 c (hb ▸ hc)⟩

theorem Mem.byte_setByte_self (m : Mem) (a : Nat) (x : Byte) : (m.setByte a x).byte a = x :=
  Tbl.getD_setD_self m.bytes a x _

theorem Mem.byte_setByte_ne (m : Mem) {a b : Nat} (x : Byte) (h : b ≠ a) : (m.setByte a x).byte b = m.byte b :=
  Tbl.getD_setD_ne m.bytes x (m.unlisted b) h |> fun e => by
    unfold Mem.byte
    rw [Mem.setByte_unlisted]
    unfold Mem.setByte Tbl.setD
    split <;> rename_i hx
    · simp [Tbl.getD, Tbl.find?_del_ne _ h]
    · exact Tbl.getD_put_ne _ _ _ h

theorem Mem.byte_wr_ne (m : Mem) (a n x : Nat) {b : Nat} (h : b < a ∨ a + n ≤ b) : (m.wr a n x).byte b = m.byte b := by
  induction n generalizing m a x with
  | zero => rfl
  | succ n ih =>
    show ((m.setByte a _).wr (a + 1) n _).byte b = m.byte b
    rw [ih _ _ _ (by omega), Mem.byte_setByte_ne m _ (by omega)]

theorem Mem.rd_congr (m m' : Mem) (a n : Nat) (h : ∀ b, a ≤ b → b < a + n → m'.byte b = m.byte b) : m'.rd a n = m.rd a n := by
  induction n generalizing a with
  | zero => rfl
  | succ n ih =>
    simp only [Mem.rd]
    rw [h a (by omega) (by omega), ih (a + 1) fun b h1 h2 => h b (by omega) (by omega)]

/-- A read after a write to the same place gives the value written. -/
theorem Mem.rd_wr_self (m : Mem) (a n x : Nat) : (m.wr a n x).rd a n = x % 256 ^ n := by
  induction n generalizing m a x with
  | zero => simp [Mem.rd, Nat.mod_one]
  | succ n ih =>
    show (((m.setByte a (BitVec.ofNat 8 x)).wr (a + 1) n (x / 256)).byte a).toNat +
      256 * ((m.setByte a (BitVec.ofNat 8 x)).wr (a + 1) n (x / 256)).rd (a + 1) n = x % 256 ^ (n + 1)
    rw [ih, Mem.byte_wr_ne _ _ _ _ (by omega), Mem.byte_setByte_self, pow_succ', Nat.mod_mul]
    simp

theorem State.memWf_reset : State.reset.mem.wf = true := by decide

@[simp] theorem State.mem_setMem (s : State) (m : Mem) : (s.setMem m).mem = m := rfl
@[simp] theorem State.mem_setL2 (s : State) (t : Tbl L2Sec) : (s.setL2 t).mem = s.mem := rfl
@[simp] theorem State.mem_setGroup (s : State) (c k : Nat) (g : Group) : (s.setGroup c k g).mem = s.mem := rfl

/-! ### The operations on the stacks keep the canonical form (18 R335, R341 to R344) -/

@[simp] theorem State.mem_setStack (s : State) (k : Nat) (x : Stack) : (s.setStack k x).mem = s.mem := rfl
@[simp] theorem State.mem_dramAccess (s : State) (a : Nat) (w : Bool) : (s.dramAccess a w).mem = s.mem := rfl
@[simp] theorem State.mem_setDram (s : State) (t : Tbl DramBlock) : (s.setDram t).mem = s.mem := rfl
@[simp] theorem State.mem_useLine (s : State) (l : Nat) : (s.useLine l).mem = s.mem := rfl
@[simp] theorem State.mem_l1Drop (s : State) (k : Nat) (but : Option Nat) : (s.l1Drop k but).mem = s.mem := rfl
@[simp] theorem State.mem_l2Drop (s : State) (k : Nat) : (s.l2Drop k).mem = s.mem := rfl

/-- What only changes the marks of sectors changes no byte, and keeps the canonical form. -/
theorem State.memWf_marks {s t : State} (hb : t.mem.bytes = s.mem.bytes) (hl : t.mem.loose = s.mem.loose) (h : s.mem.wf = true) : t.mem.wf = true :=
  Mem.wf_congr s.mem t.mem hb hl h

theorem State.memWf_poisonSector (s : State) (k c : Nat) (h : s.mem.wf = true) : (s.poisonSector k c).mem.wf = true :=
  State.memWf_marks (s := s) rfl rfl h

theorem State.memWf_recode (s : State) (g : Nat) (h : s.mem.wf = true) : (s.recode g).mem.wf = true := State.memWf_marks (s := s) rfl rfl h

/-- A fold of steps that each keep the canonical form keeps it. -/
theorem State.memWf_foldl {α : Type} (f : State → α → State) (hf : ∀ s a, s.mem.wf = true → (f s a).mem.wf = true) (l : List α) (s : State)
    (h : s.mem.wf = true) : (l.foldl f s).mem.wf = true := by
  induction l generalizing s with
  | nil => exact h
  | cons a l ih => exact ih _ (hf s a h)

theorem State.memWf_decodeSector (s : State) (k : Nat) (h : s.mem.wf = true) : (s.decodeSector k).mem.wf = true := by
  unfold State.decodeSector
  dsimp only
  split
  · exact h
  · split
    · exact h
    · split
      · exact State.memWf_marks (s := s) rfl rfl h
      · exact Mem.wf_congr _ _ rfl rfl (Mem.wf_loosen s.mem (k * 32) 32 s.free h)

theorem State.memWf_checkGranule (s : State) (g : Nat) (h : s.mem.wf = true) : (s.checkGranule g).mem.wf = true := by
  have h1 := State.memWf_foldl State.decodeSector (fun s a => State.memWf_decodeSector s a) (secsOf g) s h
  unfold State.checkGranule
  dsimp only
  split
  · refine State.memWf_foldl _ (fun t k ht => ?_) _ _ h1
    split
    · split
      · exact State.memWf_poisonSector _ _ _ ht
      · exact ht
    · exact ht
  · split
    · refine State.memWf_foldl _ (fun t k ht => ?_) _ _ h1
      split
      · exact State.memWf_poisonSector _ _ _ ht
      · exact ht
    · exact h1

theorem State.memWf_stackRead (s : State) (g : Nat) (h : s.mem.wf = true) : (s.stackRead g).mem.wf = true :=
  State.memWf_checkGranule _ _ h

theorem State.memWf_sectorWrite (s : State) (a x c : Nat) (h : s.mem.wf = true) : (s.sectorWrite a x c).mem.wf = true :=
  Mem.wf_congr _ _ rfl rfl (Mem.wf_wr s.mem a 32 x h)

theorem State.memWf_memWrite (s : State) (a n x c : Nat) (h : s.mem.wf = true) : (s.memWrite a n x c).mem.wf = true := by
  have h1 : (((s.stackRead (a / 128)).recode (a / 128)).dramAccess a true).mem.wf = true := by
    rw [State.mem_dramAccess]
    exact State.memWf_recode _ _ (State.memWf_stackRead s (a / 128) h)
  unfold State.memWrite
  dsimp only
  generalize ((s.stackRead (a / 128)).recode (a / 128)).dramAccess a true = s1 at h1 ⊢
  split
  · exact State.memWf_sectorWrite s1 a x c h1
  · exact Mem.wf_wr s1.mem a n x h1

theorem State.memWf_memWriteGran (s : State) (g : Nat) (xs : List (Nat × Nat)) (h : s.mem.wf = true) : (s.memWriteGran g xs).mem.wf = true :=
  State.memWf_foldl _ (fun s p hs => State.memWf_sectorWrite s (p.1 * 32) p.2.1 p.2.2 hs) _ _ (State.memWf_recode s g h)

end Sys2Proof.Machine
end

