-- ==== Sys2Proof/Laws/Ops.lean ====
section
/-! SUPPORT. What the shared operations over groups and registers do, each said once: writing registers, the split table, and the frames that
every instruction word goes through. -/

namespace Sys2Proof

theorem IntTy.width_cases (t : IntTy) : t.width = 1 ∨ t.width = 2 ∨ t.width = 4 := by cases t <;> simp [IntTy.width]
theorem FTy.width_cases (t : FTy) : t.width = 1 ∨ t.width = 2 ∨ t.width = 4 := by cases t <;> simp [FTy.width]
theorem RedTy.width_cases (t : RedTy) : t.width = 1 ∨ t.width = 2 ∨ t.width = 4 := by cases t <;> simp [RedTy.width]

end Sys2Proof

namespace Sys2Proof.Machine

/-! ### Groups of the state -/

@[simp] theorem State.group?_setGroup_self (s : State) (c k : Nat) (g : Group) : (s.setGroup c k g).group? c k = some g := by
  simp [State.group?]

@[simp] theorem State.group?_setCurGroup (s : State) (g : Group) : (s.setCurGroup g).group? s.cur.core s.cur.slot = some g := by
  simp [State.setCurGroup]

@[simp] theorem State.cur_setCurGroup (s : State) (g : Group) : (s.setCurGroup g).cur = s.cur := rfl

@[simp] theorem State.mem_setCurGroup (s : State) (g : Group) : (s.setCurGroup g).mem = s.mem := rfl

theorem Tbl.put_put {β : Type} (t : Tbl β) (a : Nat) (v w : β) : Tbl.put (Tbl.put t a v) a w = Tbl.put t a w := by
  induction t with
  | nil => simp [Tbl.put]
  | cons p t ih =>
    obtain ⟨k, x⟩ := p
    simp only [Tbl.put]
    split
    · rename_i h
      simp [Tbl.put]
    · split
      · simp [Tbl.put]
      · rename_i h1 h2
        simp [Tbl.put, h1, h2, ih]

@[simp] theorem State.setCurGroup_setCurGroup (s : State) (g h : Group) : (s.setCurGroup g).setCurGroup h = s.setCurGroup h := by
  simp [State.setCurGroup, State.setGroup, Tbl.put_put]

/-- A change of a group that the slot holds. -/
theorem State.updGroup_some (s : State) {c k : Nat} {g : Group} (h : s.group? c k = some g) (f : Group → Group) :
    s.updGroup c k f = s.setGroup c k (f g) := by
  simp [State.updGroup, h]

theorem State.updGroup_none (s : State) {c k : Nat} (h : s.group? c k = none) (f : Group → Group) : s.updGroup c k f = s := by
  simp [State.updGroup, h]

@[simp] theorem State.updGroup_setCurGroup (s : State) (g : Group) (f : Group → Group) :
    (s.setCurGroup g).updGroup s.cur.core s.cur.slot f = s.setCurGroup (f g) := by
  rw [State.updGroup_some _ (State.group?_setCurGroup s g)]
  exact State.setCurGroup_setCurGroup s g (f g)

theorem State.updGroup_here (s : State) {g : Group} (h : s.group? s.cur.core s.cur.slot = some g) (f : Group → Group) :
    s.updGroup s.cur.core s.cur.slot f = s.setCurGroup (f g) := State.updGroup_some s h f

/-! ### Writing registers -/

/-- Groups that differ in their vector registers alone, one after another. -/
theorem Group.onlyV_trans {g g' g'' : Group}
    (h1 : g' = { g with regs := { g.regs with v := g'.regs.v, badV := g'.regs.badV } })
    (h2 : g'' = { g' with regs := { g'.regs with v := g''.regs.v, badV := g''.regs.badV } }) :
    g'' = { g with regs := { g.regs with v := g''.regs.v, badV := g''.regs.badV } } :=
  h2.trans (congrArg (fun x : Group => { x with regs := { x.regs with v := g''.regs.v, badV := g''.regs.badV } }) h1)

/-- Groups that differ in their predicates alone, one after another. -/
theorem Group.onlyP_trans {g g' g'' : Group} (h1 : g' = { g with regs := { g.regs with p := g'.regs.p } })
    (h2 : g'' = { g' with regs := { g'.regs with p := g''.regs.p } }) : g'' = { g with regs := { g.regs with p := g''.regs.p } } :=
  h2.trans (congrArg (fun x : Group => { x with regs := { x.regs with p := g''.regs.p } }) h1)

/-- Groups that differ in their scalar registers alone, one after another. -/
theorem Group.onlyS_trans {g g' g'' : Group}
    (h1 : g' = { g with regs := { g.regs with s := g'.regs.s, badS := g'.regs.badS } })
    (h2 : g'' = { g' with regs := { g'.regs with s := g''.regs.s, badS := g''.regs.badS } }) :
    g'' = { g with regs := { g.regs with s := g''.regs.s, badS := g''.regs.badS } } :=
  h2.trans (congrArg (fun x : Group => { x with regs := { x.regs with s := g''.regs.s, badS := g''.regs.badS } }) h1)

theorem Group.wrVs_regs (w : Nat) : ∀ (g : Group) (l n x : Nat),
    g.wrVs l n w x = { g with regs := { g.regs with v := (g.wrVs l n w x).regs.v, badV := (g.wrVs l n w x).regs.badV } } := by
  induction w with
  | zero => intro g l n x; rfl
  | succ w ih =>
    intro g l n x
    exact Group.onlyV_trans (g' := g.wrV l n (BitVec.ofNat 32 x)) rfl (ih _ l (n + 1) (x / 2 ^ 32))

/-- One vector register after a write of another or of itself. -/
theorem Group.rdV_wrV (g : Group) {l n k m : Nat} (x : Word32) (hn : n < 256) (hm : m < 256) :
    (g.wrV l n x).rdV k m = if k = l ∧ m = n then x else g.rdV k m := by
  unfold Group.wrV Group.rdV
  by_cases h : k = l ∧ m = n
  · obtain ⟨rfl, rfl⟩ := h
    simp
  · rw [if_neg h]
    exact Tbl.getD_setD_ne _ _ _ (by omega)

theorem Group.badV_wrV (g : Group) {l n k m : Nat} (x : Word32) (hn : n < 256) (hm : m < 256) :
    k * 256 + m ∈ (g.wrV l n x).regs.badV ↔ k * 256 + m ∈ g.regs.badV ∧ ¬ (k = l ∧ m = n) := by
  simp only [Group.wrV, List.mem_filter, bne_iff_ne, ne_eq]
  constructor <;> rintro ⟨h1, h2⟩ <;> exact ⟨h1, by omega⟩

theorem Group.rdV_wrVs (w : Nat) : ∀ (g : Group) (l n x k m : Nat), n + w ≤ 256 → m < 256 →
    (g.wrVs l n w x).rdV k m = if k = l ∧ n ≤ m ∧ m < n + w then BitVec.ofNat 32 (x / 2 ^ (32 * (m - n))) else g.rdV k m := by
  induction w with
  | zero => intro g l n x k m _ _; rw [if_neg (by omega)]; rfl
  | succ w ih =>
    intro g l n x k m hn hm
    rw [Group.wrVs, ih _ _ _ _ _ _ (by omega) hm, Group.rdV_wrV _ _ (by omega) hm]
    by_cases h1 : k = l ∧ n + 1 ≤ m ∧ m < n + 1 + w
    · rw [if_pos h1, if_pos (by omega), Nat.div_div_eq_div_mul, ← Nat.pow_add]
      congr 3
      omega
    · rw [if_neg h1]
      by_cases h2 : k = l ∧ m = n
      · rw [if_pos h2, if_pos (by omega), h2.2]
        simp
      · rw [if_neg h2, if_neg (by omega)]

theorem Group.badV_wrVs (w : Nat) : ∀ (g : Group) (l n x k m : Nat), n + w ≤ 256 → m < 256 →
    (k * 256 + m ∈ (g.wrVs l n w x).regs.badV ↔ k * 256 + m ∈ g.regs.badV ∧ ¬ (k = l ∧ n ≤ m ∧ m < n + w)) := by
  induction w with
  | zero =>
    intro g l n x k m _ _
    simp only [Group.wrVs, iff_self_and]
    intros
    omega
  | succ w ih =>
    intro g l n x k m hn hm
    rw [Group.wrVs, ih _ _ _ _ _ _ (by omega) hm, Group.badV_wrV _ _ (by omega) hm]
    constructor
    · rintro ⟨⟨h1, h2⟩, h3⟩; exact ⟨h1, by omega⟩
    · rintro ⟨h1, h2⟩; exact ⟨⟨h1, by omega⟩, by omega⟩

/-- A value for each lane written in each lane of a list. -/
theorem Group.foldl_wrVs (f : Nat → Nat) (d w : Nat) (hd : d + w ≤ 256) : ∀ (ls : List Nat) (g : Group),
    VecWritten g (ls.foldl (fun acc l => acc.wrVs l d w (f l)) g) ls d w f := by
  intro ls
  induction ls with
  | nil =>
    intro g
    refine ⟨rfl, fun l n _ _ => ?_⟩
    rw [if_neg (by simp)]
    exact ⟨rfl, Iff.rfl⟩
  | cons a ls ih =>
    intro g
    obtain ⟨h1, h2⟩ := ih (g.wrVs a d w (f a))
    refine ⟨?_, fun l n hl hn => ?_⟩
    · exact Group.onlyV_trans (Group.wrVs_regs w g a d (f a)) h1
    · have h4 := h2 l n hl hn
      simp only [List.foldl_cons, List.mem_cons]
      by_cases hm : l ∈ ls ∧ d ≤ n ∧ n < d + w
      · rw [if_pos hm] at h4
        rw [if_pos (by tauto)]
        exact h4
      · rw [if_neg hm] at h4
        rw [Group.rdV_wrVs w g a d (f a) l n hd hn, Group.badV_wrVs w g a d (f a) l n hd hn] at h4
        by_cases ha : l = a ∧ d ≤ n ∧ n < d + w
        · rw [if_pos ha] at h4
          rw [if_pos (by tauto)]
          obtain ⟨rfl, hdw⟩ := ha
          exact ⟨h4.1, fun hb => (h4.2.1 hb).2 ⟨rfl, hdw⟩⟩
        · rw [if_neg ha] at h4
          rw [if_neg (by tauto)]
          exact ⟨h4.1, h4.2.trans (by tauto)⟩

theorem Group.wrSs_regs (w : Nat) : ∀ (g : Group) (n x : Nat),
    g.wrSs n w x = { g with regs := { g.regs with s := (g.wrSs n w x).regs.s, badS := (g.wrSs n w x).regs.badS } } := by
  induction w with
  | zero => intro g n x; rfl
  | succ w ih =>
    intro g n x
    exact Group.onlyS_trans (g' := g.wrS n (BitVec.ofNat 32 x)) rfl (ih _ (n + 1) (x / 2 ^ 32))

theorem Group.rdS_wrS (g : Group) (n m : Nat) (x : Word32) : (g.wrS n x).rdS m = if m = n then x else g.rdS m := by
  unfold Group.wrS Group.rdS
  by_cases h : m = n
  · subst h
    simp
  · rw [if_neg h]
    exact Tbl.getD_setD_ne _ _ _ h

theorem Group.badS_wrS (g : Group) (n m : Nat) (x : Word32) : m ∈ (g.wrS n x).regs.badS ↔ m ∈ g.regs.badS ∧ m ≠ n := by
  simp [Group.wrS, List.mem_filter]

theorem Group.rdS_wrSs (w : Nat) : ∀ (g : Group) (n x m : Nat),
    (g.wrSs n w x).rdS m = if n ≤ m ∧ m < n + w then BitVec.ofNat 32 (x / 2 ^ (32 * (m - n))) else g.rdS m := by
  induction w with
  | zero => intro g n x m; rw [if_neg (by omega)]; rfl
  | succ w ih =>
    intro g n x m
    rw [Group.wrSs, ih, Group.rdS_wrS]
    by_cases h1 : n + 1 ≤ m ∧ m < n + 1 + w
    · rw [if_pos h1, if_pos (by omega), Nat.div_div_eq_div_mul, ← Nat.pow_add]
      congr 3
      omega
    · rw [if_neg h1]
      by_cases h2 : m = n
      · rw [if_pos h2, if_pos (by omega), h2]
        simp
      · rw [if_neg h2, if_neg (by omega)]

theorem Group.badS_wrSs (w : Nat) : ∀ (g : Group) (n x m : Nat),
    (m ∈ (g.wrSs n w x).regs.badS ↔ m ∈ g.regs.badS ∧ ¬ (n ≤ m ∧ m < n + w)) := by
  induction w with
  | zero =>
    intro g n x m
    simp only [Group.wrSs, iff_self_and]
    intros
    omega
  | succ w ih =>
    intro g n x m
    rw [Group.wrSs, ih, Group.badS_wrS]
    constructor
    · rintro ⟨⟨h1, h2⟩, h3⟩; exact ⟨h1, by omega⟩
    · rintro ⟨h1, h2⟩; exact ⟨⟨h1, by omega⟩, by omega⟩

/-- Scalar registers written, if at all. -/
theorem Group.wrSs_written (g : Group) (d w x : Nat) : ScaWritten g (g.wrSs d w x) true d w x := by
  refine ⟨Group.wrSs_regs w g d x, fun n => ?_⟩
  rw [Group.rdS_wrSs, Group.badS_wrSs]
  by_cases h : d ≤ n ∧ n < d + w
  · simp [h]
  · simp [h]

theorem ScaWritten.none (g : Group) (d w x : Nat) : ScaWritten g g false d w x :=
  ⟨rfl, fun n => by simp⟩

theorem Group.wrP_regs (g : Group) (l n : Nat) (x : Bool) :
    g.wrP l n x = { g with regs := { g.regs with p := (g.wrP l n x).regs.p } } := by
  unfold Group.wrP
  split <;> rfl

theorem Group.rdP_wrP (g : Group) {l n k m : Nat} (x : Bool) (hn : n < 16) (hm : m < 16) :
    (g.wrP l n x).rdP k m = if m = 15 then true else if k = l ∧ m = n then x else g.rdP k m := by
  unfold Group.wrP Group.rdP
  by_cases h15 : m = 15
  · simp [h15]
  · rw [if_neg h15]
    by_cases h : k = l ∧ m = n
    · obtain ⟨rfl, rfl⟩ := h
      simp [h15]
    · rw [if_neg h]
      split
      · rfl
      · simp only
        rw [Tbl.getD_setD_ne _ _ _ (by omega)]

theorem Group.rdP_15 (g : Group) (l : Nat) : g.rdP l 15 = true := by simp [Group.rdP]

/-- A predicate for each lane written in each lane of a list. -/
theorem Group.foldl_wrP (f : Nat → Bool) (d : Nat) (hd : d < 16) : ∀ (ls : List Nat) (g : Group),
    PredWritten g (ls.foldl (fun acc l => acc.wrP l d (f l)) g) ls d f := by
  intro ls
  induction ls with
  | nil =>
    intro g
    refine ⟨rfl, fun l n _ _ => ?_⟩
    simp only [List.foldl_nil, List.not_mem_nil, false_and, if_false]
    split
    · rename_i h; rw [h, Group.rdP_15]
    · rfl
  | cons a ls ih =>
    intro g
    obtain ⟨h1, h2⟩ := ih (g.wrP a d (f a))
    refine ⟨?_, fun l n hl hn => ?_⟩
    · exact Group.onlyP_trans (Group.wrP_regs g a d (f a)) h1
    · simp only [List.foldl_cons, List.mem_cons]
      rw [h2 l n hl hn, Group.rdP_wrP _ _ hd hn]
      by_cases h15 : n = 15
      · simp [h15]
      · simp only [h15, if_false]
        by_cases hm : l ∈ ls ∧ n = d
        · rw [if_pos hm, if_pos (by tauto)]
        · rw [if_neg hm]
          by_cases ha : l = a ∧ n = d
          · rw [if_pos ha, if_pos (by tauto), ha.1]
          · rw [if_neg ha, if_neg (by tauto)]

theorem Group.wrQ_written (g : Group) (d : Nat) (x : Bool) : UniPredWritten g (g.wrQ d x) true d x := by
  refine ⟨by unfold Group.wrQ; split <;> rfl, fun n => ?_⟩
  unfold Group.wrQ Group.rdQ
  by_cases h7 : n = 7
  · simp [h7]
  · rw [if_neg h7]
    by_cases h : n = d
    · subst h
      simp [h7]
    · simp only [h, and_false, if_false]
      split
      · rfl
      · simp only
        rw [Tbl.getD_setD_ne _ _ _ h]

theorem UniPredWritten.none (g : Group) (d : Nat) (x : Bool) : UniPredWritten g g false d x :=
  ⟨rfl, fun n => by
    simp only [Bool.false_eq_true, false_and, if_false]
    split
    · rename_i h; simp [h, Group.rdQ]
    · rfl⟩

/-- A register of a value depends on that part of the value alone. -/
theorem Word32.part_congr {x y w k : Nat} (e : x % 2 ^ (32 * w) = y % 2 ^ (32 * w)) (hk : k < w) :
    BitVec.ofNat 32 (x / 2 ^ (32 * k)) = BitVec.ofNat 32 (y / 2 ^ (32 * k)) := by
  have key : ∀ z : Nat, z / 2 ^ (32 * k) % 2 ^ 32 = z % 2 ^ (32 * w) / 2 ^ (32 * k) % 2 ^ 32 := by
    intro z
    have h1 : 2 ^ (32 * w) = 2 ^ (32 * k) * 2 ^ (32 * (w - k)) := by rw [← Nat.pow_add]; congr 1; omega
    have h2 : (2 : Nat) ^ 32 ∣ 2 ^ (32 * (w - k)) := Nat.pow_dvd_pow 2 (by omega)
    rw [h1, Nat.mod_mul_right_div_self, Nat.mod_mod_of_dvd _ h2]
  apply BitVec.eq_of_toNat_eq
  simp only [BitVec.toNat_ofNat]
  rw [key x, key y, e]

/-- A value read from `w` registers is below `2 ^ (32 * w)`. -/
theorem rdRegs_lt (f : Nat → Word32) (w : Nat) : ∀ n, rdRegs f n w < 2 ^ (32 * w) := by
  induction w with
  | zero => intro n; simp [rdRegs]
  | succ w ih =>
    intro n
    have h1 := ih (n + 1)
    have h2 := (f n).isLt
    have h3 : (2 : Nat) ^ (32 * (w + 1)) = 2 ^ 32 * 2 ^ (32 * w) := by rw [← Nat.pow_add]; congr 1; omega
    simp only [rdRegs]
    rw [h3]
    have : rdRegs f (n + 1) w + 1 ≤ 2 ^ (32 * w) := h1
    calc (f n).toNat + 2 ^ 32 * rdRegs f (n + 1) w < 2 ^ 32 + 2 ^ 32 * rdRegs f (n + 1) w := by omega
      _ = 2 ^ 32 * (rdRegs f (n + 1) w + 1) := by ring
      _ ≤ _ := Nat.mul_le_mul_left _ this

theorem Group.src_lt (g : Group) (x : Src) (w l : Nat) : g.src x w l < 2 ^ (32 * w) := by
  cases x <;> exact rdRegs_lt _ _ _

theorem Group.rdVs_lt (g : Group) (l n w : Nat) : g.rdVs l n w < 2 ^ (32 * w) := rdRegs_lt _ _ _

theorem Group.rdSs_lt (g : Group) (n w : Nat) : g.rdSs n w < 2 ^ (32 * w) := rdRegs_lt _ _ _

/-! ### Issuing -/

/-- A word that is ready, and no branch with a bad target, reaches its meaning. -/
theorem Ready.issue {i : Instr} {s : State} {g : Group} (h : Ready i s g) (ht : targetFault i (g.ent s.cur.entry).pos.addr = none) (body : Group → Entry → Res) :
    Sys2Proof.Machine.issue i s body = .next (match body g (g.ent s.cur.entry) with
      | .fault f => s.takeFault s.cur.core s.cur.slot s.cur.entry (g.ent s.cur.entry).pos f
      | .stall s' k o => s'.updGroup s.cur.core s.cur.slot fun g => { g with block := .stall k o }
      | .control s' => s'.updGroup s.cur.core s.cur.slot Group.steered
      | .done s' => s'.updGroup s.cur.core s.cur.slot fun g1 =>
          { g1.setEnt s.cur.entry { g1.ent s.cur.entry with pos := (g.ent s.cur.entry).pos.next s.cur.len } with
            block := g1.block.issued, blockPos := (g.ent s.cur.entry).pos }) := by
  have hl : g.lateTimeout.filter (fun _ => g.meetsBoundary (g.ent s.cur.entry) i) = none := by
    rcases h.timely with e | e
    · simp [e]
    · simp [Option.filter, e]
      split <;> simp_all
  simp only [Sys2Proof.Machine.issue, State.issueWith, h.here, h.legal, ht, h.sound, hl]
  cases body g (g.ent s.cur.entry) <;> rfl

/-- A ready word that answers `done` with its group changed to `g1` completes, where the change leaves the split table alone. -/
theorem Ready.issue_done {i : Instr} {s : State} {g g1 : Group} (h : Ready i s g)
    (ht : targetFault i (g.ent s.cur.entry).pos.addr = none) {body : Group → Entry → Res}
    (hb : body g (g.ent s.cur.entry) = .done (s.setCurGroup g1)) (he : (g1.ent s.cur.entry).pos = (g.ent s.cur.entry).pos) :
    Sys2Proof.Machine.issue i s body = .next (s.setCurGroup (g1.advanced s.cur)) := by
  rw [h.issue ht, hb]
  simp only [State.updGroup_setCurGroup, Group.advanced, he]

/-- A ready word that changes nothing at all but its position. -/
theorem Ready.issue_same {i : Instr} {s : State} {g : Group} (h : Ready i s g)
    (ht : targetFault i (g.ent s.cur.entry).pos.addr = none) {body : Group → Entry → Res}
    (hb : body g (g.ent s.cur.entry) = .done s) : Sys2Proof.Machine.issue i s body = .next (s.setCurGroup (g.advanced s.cur)) := by
  rw [h.issue ht, hb]
  simp only [State.updGroup_here s h.here, Group.advanced]

/-- A ready word that steers. -/
theorem Ready.issue_control {i : Instr} {s : State} {g g1 : Group} (h : Ready i s g)
    (ht : targetFault i (g.ent s.cur.entry).pos.addr = none) {body : Group → Entry → Res}
    (hb : body g (g.ent s.cur.entry) = .control (s.setCurGroup g1)) :
    Sys2Proof.Machine.issue i s body = .next (s.setCurGroup g1.steered) := by
  rw [h.issue ht, hb]
  simp only [State.updGroup_setCurGroup]

/-- A ready word that faults takes the fault at its own position. -/
theorem Ready.issue_fault {i : Instr} {s : State} {g : Group} (h : Ready i s g)
    (ht : targetFault i (g.ent s.cur.entry).pos.addr = none) {body : Group → Entry → Res} {f : FaultInfo}
    (hb : body g (g.ent s.cur.entry) = .fault f) :
    Sys2Proof.Machine.issue i s body = .next (s.takeFault s.cur.core s.cur.slot s.cur.entry (g.ent s.cur.entry).pos f) := by
  rw [h.issue ht, hb]

theorem VecWritten.ents {g g1 : Group} {ls : List Nat} {d w : Nat} {f : Nat → Nat} (h : VecWritten g g1 ls d w f) : g1.ents = g.ents := by
  rw [h.1]

theorem VecWritten.ent {g g1 : Group} {ls : List Nat} {d w : Nat} {f : Nat → Nat} (h : VecWritten g g1 ls d w f) (k : Nat) :
    g1.ent k = g.ent k := by
  simp [Group.ent, h.ents]

theorem ScaWritten.ent {g g1 : Group} {on : Bool} {d w x : Nat} (h : ScaWritten g g1 on d w x) (k : Nat) : g1.ent k = g.ent k := by
  rw [h.1]; rfl

theorem PredWritten.ent {g g1 : Group} {ls : List Nat} {d : Nat} {f : Nat → Bool} (h : PredWritten g g1 ls d f) (k : Nat) :
    g1.ent k = g.ent k := by
  rw [h.1]; rfl

theorem UniPredWritten.ent {g g1 : Group} {on : Bool} {d : Nat} {x : Bool} (h : UniPredWritten g g1 on d x) (k : Nat) :
    g1.ent k = g.ent k := by
  rw [h.1]; rfl

/-! ### The frames of the words -/

/-- A lane word over `laneWrite` writes its result in every active lane. -/
theorem Ready.laneWrite {i : Instr} {s : State} {g : Group} (h : Ready i s g) (ht : ∀ a, targetFault i a = none) {gd : Guard} {d : Reg}
    {w : Nat} {f : Group → Entry → Nat → Nat}
    (hx : exec i s = Sys2Proof.Machine.laneWrite i gd d w s f) (hd : d.toNat + w ≤ 256) :
    LaneWrites i gd d w s g (f g (s.frag g)) := by
  have hw := Group.foldl_wrVs (f g (s.frag g)) d.toNat w hd (s.lanes g gd) g
  refine ⟨_, ⟨?_, fun a => by simp⟩, hw⟩
  rw [hx]
  exact h.issue_done (ht _) rfl (by rw [hw.ent])

/-- A lane word over `crossWrite` writes its result in every active lane. -/
theorem Ready.crossWrite {i : Instr} {s : State} {g : Group} (h : Ready i s g) (ht : ∀ a, targetFault i a = none) {gd : Guard} {d : Reg} {w : Nat}
    {f : Group → List Nat → Nat → Nat} (hx : exec i s = Sys2Proof.Machine.crossWrite i gd d w s f) (hd : d.toNat + w ≤ 256) :
    LaneWrites i gd d w s g (f g (s.lanes g gd)) := by
  have hw := Group.foldl_wrVs (f g (s.lanes g gd)) d.toNat w hd (s.lanes g gd) g
  refine ⟨_, ⟨?_, fun a => by simp⟩, hw⟩
  rw [hx]
  exact h.issue_done (ht _) rfl (by rw [hw.ent])

/-- A lane word over `lanePred` writes its predicate in every active lane. -/
theorem Ready.lanePred {i : Instr} {s : State} {g : Group} (h : Ready i s g) (ht : ∀ a, targetFault i a = none) {gd : Guard} {d : Reg} {f : Group → Nat → Bool}
    (hx : exec i s = Sys2Proof.Machine.lanePred i gd d s f) (hd : d.toNat < 16) : LanePredWrites i gd d s g (f g) := by
  have hw := Group.foldl_wrP (f g) d.toNat hd (s.lanes g gd) g
  refine ⟨_, ⟨?_, fun a => by simp⟩, hw⟩
  rw [hx]
  exact h.issue_done (ht _) rfl (by rw [hw.ent])

/-- A uniform word over `uniWrite` writes its result when its guard is true. -/
theorem Ready.uniWrite {i : Instr} {s : State} {g : Group} (h : Ready i s g) (ht : ∀ a, targetFault i a = none) {gd : Guard} {d : Reg} {w : Nat} {f : Group → Nat}
    (hx : exec i s = Sys2Proof.Machine.uniWrite i gd d w s f) : UniWrites i gd d w s g (f g) := by
  cases hg : g.guardUni gd with
  | true =>
    have hw := Group.wrSs_written g d.toNat w (f g)
    refine ⟨_, ⟨?_, fun a => by simp⟩, by rw [hg]; exact hw⟩
    rw [hx]
    exact h.issue_done (ht _) (by simp only [hg, if_true]; rfl) (by rw [hw.ent])
  | false =>
    refine ⟨g, ⟨?_, fun a => by simp⟩, by rw [hg]; exact ScaWritten.none ..⟩
    rw [hx]
    exact h.issue_same (ht _) (by simp [hg])

/-! ### What the checks of 03 R52 say of a word's registers -/

theorem Ready.operands_ok {i : Instr} {s : State} {g : Group} (h : Ready i s g) : i.operands.all Opnd.staticOk = true := by
  have hl := h.legal
  unfold checkWord at hl
  split at hl
  · cases hl
  · split at hl
    · cases hl
    · split at hl
      · cases hl
      · rename_i _ _ h3
        simp only [Bool.or_eq_true, Bool.not_eq_eq_eq_not, Bool.not_true, not_or, Bool.not_eq_false] at h3
        have := h3.1.1
        simp only [Instr.legalOk, Bool.and_eq_true] at this
        exact this.2

/-- A vector register field with its register count lies within the 256 registers of a lane. -/
theorem Ready.vec_fits {i : Instr} {s : State} {g : Group} (h : Ready i s g) {d : Reg} {w : Nat} {r x : Bool}
    (hm : (⟨.vec, d.toNat, w, r, x⟩ : Opnd) ∈ i.operands) (hw : w = 1 ∨ w = 2 ∨ w = 4) : d.toNat + w ≤ 256 := by
  have := List.all_eq_true.1 h.operands_ok _ hm
  simp only [Opnd.staticOk, Bool.true_and, beq_iff_eq] at this
  have := d.isLt
  rcases hw with rfl | rfl | rfl <;> omega

theorem Ready.pred_fits {i : Instr} {s : State} {g : Group} (h : Ready i s g) {d : Reg} {r x : Bool}
    (hm : (⟨.pred, d.toNat, 1, r, x⟩ : Opnd) ∈ i.operands) : d.toNat < 16 := by
  have := List.all_eq_true.1 h.operands_ok _ hm
  simp only [Opnd.staticOk, Bool.and_eq_true, decide_eq_true_eq] at this
  exact this.1

/-- Two results that agree in the registers written are one result. -/
theorem LaneWrites.congr {i : Instr} {gd : Guard} {d : Reg} {w : Nat} {s : State} {g : Group} {f f' : Nat → Nat}
    (h : LaneWrites i gd d w s g f) (e : ∀ l, f l % 2 ^ (32 * w) = f' l % 2 ^ (32 * w)) : LaneWrites i gd d w s g f' := by
  obtain ⟨g1, h1, h2, h3⟩ := h
  refine ⟨g1, h1, h2, fun l n hl hn => ?_⟩
  have := h3 l n hl hn
  split at this
  · rename_i hc
    rw [if_pos hc]
    refine ⟨this.1.trans ?_, this.2⟩
    exact Word32.part_congr (e l) (by omega)
  · rename_i hc
    rw [if_neg hc]
    exact this

/-- Two results that agree in the registers written are one result. -/
theorem UniWrites.congr {i : Instr} {gd : Guard} {d : Reg} {w : Nat} {s : State} {g : Group} {x x' : Nat}
    (h : UniWrites i gd d w s g x) (e : x % 2 ^ (32 * w) = x' % 2 ^ (32 * w)) : UniWrites i gd d w s g x' := by
  obtain ⟨g1, h1, h2, h3⟩ := h
  refine ⟨g1, h1, h2, fun n => ?_⟩
  have := h3 n
  split at this
  · rename_i hc
    rw [if_pos hc]
    refine ⟨this.1.trans ?_, this.2⟩
    exact Word32.part_congr e (by omega)
  · rename_i hc
    rw [if_neg hc]
    exact this

end Sys2Proof.Machine
end

