-- ==== Sys2Proof/Laws/Float.lean ====
section
/-! SUPPORT. The frame of the floating-point words: a result register and flags for each active lane. -/

namespace Sys2Proof.Machine

theorem Group.wrVs_raise (w : Nat) : ∀ (g : Group) (fl : Flags) (l n x : Nat), (g.raise fl).wrVs l n w x = (g.wrVs l n w x).raise fl := by
  induction w with
  | zero => intro g fl l n x; rfl
  | succ w ih => intro g fl l n x; exact ih (g.wrV l n (BitVec.ofNat 32 x)) fl l (n + 1) (x / 2 ^ 32)

theorem Group.wrP_raise (g : Group) (fl : Flags) (l n : Nat) (x : Bool) : (g.raise fl).wrP l n x = (g.wrP l n x).raise fl := by
  unfold Group.wrP Group.raise
  split <;> rfl

theorem Group.raise_raise (g : Group) (a b : Flags) : (g.raise a).raise b = g.raise (a ||| b) := by
  simp [Group.raise, BitVec.or_assoc]

theorem Group.foldl_raise (g : Group) (f : Nat → Flags) : ∀ (ls : List Nat) (x : Flags),
    ls.foldl (fun acc l => acc ||| f l) (g.fpstat ||| x) = g.fpstat ||| ls.foldl (fun acc l => acc ||| f l) x := by
  intro ls
  induction ls with
  | nil => intro x; rfl
  | cons a ls ih => intro x; simp only [List.foldl_cons, BitVec.or_assoc]; exact ih _

/-- Results written and flags raised lane by lane are all the results, then all the flags. -/
theorem Group.foldl_wrVs_raise (f : Nat → Nat) (fl : Nat → Flags) (d w : Nat) : ∀ (ls : List Nat) (g : Group),
    ls.foldl (fun acc l => (acc.wrVs l d w (f l)).raise (fl l)) g =
      { ls.foldl (fun acc l => acc.wrVs l d w (f l)) g with fpstat := ls.foldl (fun x l => x ||| fl l) g.fpstat } := by
  have key : ∀ (ls : List Nat) (g : Group) (x : Flags),
      ls.foldl (fun acc l => (acc.wrVs l d w (f l)).raise (fl l)) (g.raise x) =
        (ls.foldl (fun acc l => acc.wrVs l d w (f l)) g).raise (ls.foldl (fun y l => y ||| fl l) x) := by
    intro ls
    induction ls with
    | nil => intro g x; rfl
    | cons a ls ih =>
      intro g x
      simp only [List.foldl_cons]
      rw [Group.wrVs_raise, Group.raise_raise]
      exact ih _ _
  have fp : ∀ (ls : List Nat) (g : Group), (ls.foldl (fun acc l => acc.wrVs l d w (f l)) g).fpstat = g.fpstat := by
    intro ls
    induction ls with
    | nil => intro g; rfl
    | cons a ls ih =>
      intro g
      simp only [List.foldl_cons]
      rw [ih, Group.wrVs_regs]
  intro ls g
  have h := key ls g 0
  have h0 : g.raise 0 = g := by simp [Group.raise]
  rw [h0] at h
  rw [h]
  simp only [Group.raise, fp]
  rw [← Group.foldl_raise g fl ls 0]
  simp

/-- A floating-point word with one result register. -/
theorem Ready.laneFloat {i : Instr} {s : State} {g : Group} (h : Ready i s g) (ht : ∀ a, targetFault i a = none) {gd : Guard} {d : Reg} {w : Nat} {f : Group → Entry → Nat → FRes}
    (hx : exec i s = Sys2Proof.Machine.laneFloat i gd s fun g e l => oneOut d w (f g e l)) (hd : d.toNat + w ≤ 256) :
    FloatWrites i gd d w s g (f g (s.frag g)) := by
  have hw := Group.foldl_wrVs (fun l => (f g (s.frag g) l).1) d.toNat w hd (s.lanes g gd) g
  refine ⟨_, ⟨?_, fun a => by simp⟩, hw⟩
  rw [hx]
  refine h.issue_done (ht _) ?_ ?_
  · exact congrArg (fun x => Res.done (s.setCurGroup x))
      (Group.foldl_wrVs_raise (fun l => (f g (s.frag g) l).1) (fun l => (f g (s.frag g) l).2) d.toNat w (s.lanes g gd) g)
  · show ((List.foldl _ g (s.lanes g gd)).ent s.cur.entry).pos = _
    rw [hw.ent]

end Sys2Proof.Machine
end

