-- ==== Sys2Proof/Laws/Integer.lean ====
section
/-! SUPPORT. The arithmetic of the integer instructions against the readings of 06 R87 and R90 by bit vectors. -/

namespace Sys2Proof.Machine

theorem tyW_eq (t : IntTy) : tyW t = tyBits t := by cases t <;> rfl

theorem tyBits_eq (t : IntTy) : tyBits t = 32 * t.width := by cases t <;> rfl

theorem signExt_eq (x n : Nat) : signExt x n = (BitVec.ofNat n x).toInt := by
  simp only [signExt, BitVec.toInt, BitVec.toNat_ofNat]
  push_cast
  rfl

/-- The model's typed reading is the bit vector's. -/
theorem tyRead_eq (t : IntTy) (x : Nat) : tyRead t x = typed t x := by
  cases t <;> simp [tyRead, typed, tySigned, tyW, signExt_eq]

theorem bitsInt_eq (x : Int) (n : Nat) : bitsInt x n = (BitVec.ofInt n x).toNat := by
  simp [bitsInt, BitVec.toNat_ofInt]

theorem satInt_eq (x lo hi : Int) (h : lo ≤ hi) : satInt x lo hi = Max.max lo (Min.min hi x) := by
  unfold satInt
  split
  · rw [max_eq_left]; exact (min_le_right _ _).trans (by omega)
  · split
    · rw [min_eq_left (by omega), max_eq_right h]
    · rw [min_eq_right (by omega), max_eq_right (by omega)]

/-- The one wrap or saturation of 06 R90. -/
theorem finish_eq (t : IntTy) (sat : Bool) (x : Int) : finish t sat x = narrowed t sat x := by
  cases t <;> cases sat <;> simp [finish, narrowed, bitsInt_eq, tyW, tyLo, tyHi, tySigned, satInt_eq]

end Sys2Proof.Machine
end

