-- ==== Sys2Proof/Laws/PerInstr.lean ====
section
/-! SUPPORT. Per instruction: exactly the instruction words have an encoding, the steps of the hardware have none. -/

/-- An instruction has a word exactly if it has a guard (03 R45, 05 R74). -/
def Sys2Proof.Laws.Encodable.Statement (i : Sys2Proof.Instr) : Prop := (Sys2Proof.encode i).isSome = i.guard?.isSome

theorem Sys2Proof.Laws.Encodable.uadd : ∀ x0 x1 x2 x3 x4 x5, Sys2Proof.Laws.Encodable.Statement (.uadd x0 x1 x2 x3 x4 x5) := fun _ _ _ _ _ _ => rfl
theorem Sys2Proof.Laws.Encodable.usub : ∀ x0 x1 x2 x3 x4 x5, Sys2Proof.Laws.Encodable.Statement (.usub x0 x1 x2 x3 x4 x5) := fun _ _ _ _ _ _ => rfl
theorem Sys2Proof.Laws.Encodable.umul : ∀ x0 x1 x2 x3 x4 x5, Sys2Proof.Laws.Encodable.Statement (.umul x0 x1 x2 x3 x4 x5) := fun _ _ _ _ _ _ => rfl
theorem Sys2Proof.Laws.Encodable.umulh : ∀ x0 x1 x2 x3 x4, Sys2Proof.Laws.Encodable.Statement (.umulh x0 x1 x2 x3 x4) := fun _ _ _ _ _ => rfl
theorem Sys2Proof.Laws.Encodable.umad : ∀ x0 x1 x2 x3 x4 x5 x6, Sys2Proof.Laws.Encodable.Statement (.umad x0 x1 x2 x3 x4 x5 x6) := fun _ _ _ _ _ _ _ => rfl
theorem Sys2Proof.Laws.Encodable.uand : ∀ x0 x1 x2 x3 x4, Sys2Proof.Laws.Encodable.Statement (.uand x0 x1 x2 x3 x4) := fun _ _ _ _ _ => rfl
theorem Sys2Proof.Laws.Encodable.uor : ∀ x0 x1 x2 x3 x4, Sys2Proof.Laws.Encodable.Statement (.uor x0 x1 x2 x3 x4) := fun _ _ _ _ _ => rfl
theorem Sys2Proof.Laws.Encodable.uxor : ∀ x0 x1 x2 x3 x4, Sys2Proof.Laws.Encodable.Statement (.uxor x0 x1 x2 x3 x4) := fun _ _ _ _ _ => rfl
theorem Sys2Proof.Laws.Encodable.ushl : ∀ x0 x1 x2 x3 x4, Sys2Proof.Laws.Encodable.Statement (.ushl x0 x1 x2 x3 x4) := fun _ _ _ _ _ => rfl
theorem Sys2Proof.Laws.Encodable.ushr : ∀ x0 x1 x2 x3 x4, Sys2Proof.Laws.Encodable.Statement (.ushr x0 x1 x2 x3 x4) := fun _ _ _ _ _ => rfl
theorem Sys2Proof.Laws.Encodable.usar : ∀ x0 x1 x2 x3 x4, Sys2Proof.Laws.Encodable.Statement (.usar x0 x1 x2 x3 x4) := fun _ _ _ _ _ => rfl
theorem Sys2Proof.Laws.Encodable.umin : ∀ x0 x1 x2 x3 x4, Sys2Proof.Laws.Encodable.Statement (.umin x0 x1 x2 x3 x4) := fun _ _ _ _ _ => rfl
theorem Sys2Proof.Laws.Encodable.umax : ∀ x0 x1 x2 x3 x4, Sys2Proof.Laws.Encodable.Statement (.umax x0 x1 x2 x3 x4) := fun _ _ _ _ _ => rfl
theorem Sys2Proof.Laws.Encodable.ubfe : ∀ x0 x1 x2 x3 x4 x5, Sys2Proof.Laws.Encodable.Statement (.ubfe x0 x1 x2 x3 x4 x5) := fun _ _ _ _ _ _ => rfl
theorem Sys2Proof.Laws.Encodable.ubfi : ∀ x0 x1 x2 x3 x4 x5, Sys2Proof.Laws.Encodable.Statement (.ubfi x0 x1 x2 x3 x4 x5) := fun _ _ _ _ _ _ => rfl
theorem Sys2Proof.Laws.Encodable.upopc : ∀ x0 x1 x2 x3, Sys2Proof.Laws.Encodable.Statement (.upopc x0 x1 x2 x3) := fun _ _ _ _ => rfl
theorem Sys2Proof.Laws.Encodable.uclz : ∀ x0 x1 x2 x3, Sys2Proof.Laws.Encodable.Statement (.uclz x0 x1 x2 x3) := fun _ _ _ _ => rfl
theorem Sys2Proof.Laws.Encodable.ucmp : ∀ x0 x1 x2 x3 x4 x5, Sys2Proof.Laws.Encodable.Statement (.ucmp x0 x1 x2 x3 x4 x5) := fun _ _ _ _ _ _ => rfl
theorem Sys2Proof.Laws.Encodable.usel : ∀ x0 x1 x2 x3 x4 x5, Sys2Proof.Laws.Encodable.Statement (.usel x0 x1 x2 x3 x4 x5) := fun _ _ _ _ _ _ => rfl
theorem Sys2Proof.Laws.Encodable.umov : ∀ x0 x1 x2 x3, Sys2Proof.Laws.Encodable.Statement (.umov x0 x1 x2 x3) := fun _ _ _ _ => rfl
theorem Sys2Proof.Laws.Encodable.uli : ∀ x0 x1 x2, Sys2Proof.Laws.Encodable.Statement (.uli x0 x1 x2) := fun _ _ _ => rfl
theorem Sys2Proof.Laws.Encodable.ulih : ∀ x0 x1 x2, Sys2Proof.Laws.Encodable.Statement (.ulih x0 x1 x2) := fun _ _ _ => rfl
theorem Sys2Proof.Laws.Encodable.usrd : ∀ x0 x1 x2, Sys2Proof.Laws.Encodable.Statement (.usrd x0 x1 x2) := fun _ _ _ => rfl
theorem Sys2Proof.Laws.Encodable.uswr : ∀ x0 x1 x2, Sys2Proof.Laws.Encodable.Statement (.uswr x0 x1 x2) := fun _ _ _ => rfl
theorem Sys2Proof.Laws.Encodable.ufmt : ∀ x0 x1, Sys2Proof.Laws.Encodable.Statement (.ufmt x0 x1) := fun _ _ => rfl
theorem Sys2Proof.Laws.Encodable.ulease : ∀ x0 x1, Sys2Proof.Laws.Encodable.Statement (.ulease x0 x1) := fun _ _ => rfl
theorem Sys2Proof.Laws.Encodable.nop : ∀ x0, Sys2Proof.Laws.Encodable.Statement (.nop x0) := fun _ => rfl
theorem Sys2Proof.Laws.Encodable.bra : ∀ x0 x1, Sys2Proof.Laws.Encodable.Statement (.bra x0 x1) := fun _ _ => rfl
theorem Sys2Proof.Laws.Encodable.brq : ∀ x0 x1 x2 x3, Sys2Proof.Laws.Encodable.Statement (.brq x0 x1 x2 x3) := fun _ _ _ _ => rfl
theorem Sys2Proof.Laws.Encodable.bdiv : ∀ x0 x1 x2, Sys2Proof.Laws.Encodable.Statement (.bdiv x0 x1 x2) := fun _ _ _ => rfl
theorem Sys2Proof.Laws.Encodable.regang : ∀ x0 x1, Sys2Proof.Laws.Encodable.Statement (.regang x0 x1) := fun _ _ => rfl
theorem Sys2Proof.Laws.Encodable.loop : ∀ x0 x1 x2 x3, Sys2Proof.Laws.Encodable.Statement (.loop x0 x1 x2 x3) := fun _ _ _ _ => rfl
theorem Sys2Proof.Laws.Encodable.call : ∀ x0 x1 x2, Sys2Proof.Laws.Encodable.Statement (.call x0 x1 x2) := fun _ _ _ => rfl
theorem Sys2Proof.Laws.Encodable.calli : ∀ x0 x1 x2, Sys2Proof.Laws.Encodable.Statement (.calli x0 x1 x2) := fun _ _ _ => rfl
theorem Sys2Proof.Laws.Encodable.ret : ∀ x0 x1, Sys2Proof.Laws.Encodable.Statement (.ret x0 x1) := fun _ _ => rfl
theorem Sys2Proof.Laws.Encodable.jmpi : ∀ x0 x1, Sys2Proof.Laws.Encodable.Statement (.jmpi x0 x1) := fun _ _ => rfl
theorem Sys2Proof.Laws.Encodable.exit : ∀ x0, Sys2Proof.Laws.Encodable.Statement (.exit x0) := fun _ => rfl
theorem Sys2Proof.Laws.Encodable.yield : ∀ x0, Sys2Proof.Laws.Encodable.Statement (.yield x0) := fun _ => rfl
theorem Sys2Proof.Laws.Encodable.add : ∀ x0 x1 x2 x3 x4 x5, Sys2Proof.Laws.Encodable.Statement (.add x0 x1 x2 x3 x4 x5) := fun _ _ _ _ _ _ => rfl
theorem Sys2Proof.Laws.Encodable.sub : ∀ x0 x1 x2 x3 x4 x5, Sys2Proof.Laws.Encodable.Statement (.sub x0 x1 x2 x3 x4 x5) := fun _ _ _ _ _ _ => rfl
theorem Sys2Proof.Laws.Encodable.mul : ∀ x0 x1 x2 x3 x4 x5, Sys2Proof.Laws.Encodable.Statement (.mul x0 x1 x2 x3 x4 x5) := fun _ _ _ _ _ _ => rfl
theorem Sys2Proof.Laws.Encodable.mulh : ∀ x0 x1 x2 x3 x4, Sys2Proof.Laws.Encodable.Statement (.mulh x0 x1 x2 x3 x4) := fun _ _ _ _ _ => rfl
theorem Sys2Proof.Laws.Encodable.mad : ∀ x0 x1 x2 x3 x4 x5 x6, Sys2Proof.Laws.Encodable.Statement (.mad x0 x1 x2 x3 x4 x5 x6) := fun _ _ _ _ _ _ _ => rfl
theorem Sys2Proof.Laws.Encodable.addc : ∀ x0 x1 x2 x3 x4, Sys2Proof.Laws.Encodable.Statement (.addc x0 x1 x2 x3 x4) := fun _ _ _ _ _ => rfl
theorem Sys2Proof.Laws.Encodable.subb : ∀ x0 x1 x2 x3 x4, Sys2Proof.Laws.Encodable.Statement (.subb x0 x1 x2 x3 x4) := fun _ _ _ _ _ => rfl
theorem Sys2Proof.Laws.Encodable.abs : ∀ x0 x1 x2 x3 x4, Sys2Proof.Laws.Encodable.Statement (.abs x0 x1 x2 x3 x4) := fun _ _ _ _ _ => rfl
theorem Sys2Proof.Laws.Encodable.min : ∀ x0 x1 x2 x3 x4, Sys2Proof.Laws.Encodable.Statement (.min x0 x1 x2 x3 x4) := fun _ _ _ _ _ => rfl
theorem Sys2Proof.Laws.Encodable.max : ∀ x0 x1 x2 x3 x4, Sys2Proof.Laws.Encodable.Statement (.max x0 x1 x2 x3 x4) := fun _ _ _ _ _ => rfl
theorem Sys2Proof.Laws.Encodable.and : ∀ x0 x1 x2 x3 x4, Sys2Proof.Laws.Encodable.Statement (.and x0 x1 x2 x3 x4) := fun _ _ _ _ _ => rfl
theorem Sys2Proof.Laws.Encodable.or : ∀ x0 x1 x2 x3 x4, Sys2Proof.Laws.Encodable.Statement (.or x0 x1 x2 x3 x4) := fun _ _ _ _ _ => rfl
theorem Sys2Proof.Laws.Encodable.xor : ∀ x0 x1 x2 x3 x4, Sys2Proof.Laws.Encodable.Statement (.xor x0 x1 x2 x3 x4) := fun _ _ _ _ _ => rfl
theorem Sys2Proof.Laws.Encodable.lop3 : ∀ x0 x1 x2 x3 x4 x5, Sys2Proof.Laws.Encodable.Statement (.lop3 x0 x1 x2 x3 x4 x5) := fun _ _ _ _ _ _ => rfl
theorem Sys2Proof.Laws.Encodable.shl : ∀ x0 x1 x2 x3 x4, Sys2Proof.Laws.Encodable.Statement (.shl x0 x1 x2 x3 x4) := fun _ _ _ _ _ => rfl
theorem Sys2Proof.Laws.Encodable.shr : ∀ x0 x1 x2 x3 x4, Sys2Proof.Laws.Encodable.Statement (.shr x0 x1 x2 x3 x4) := fun _ _ _ _ _ => rfl
theorem Sys2Proof.Laws.Encodable.sar : ∀ x0 x1 x2 x3 x4, Sys2Proof.Laws.Encodable.Statement (.sar x0 x1 x2 x3 x4) := fun _ _ _ _ _ => rfl
theorem Sys2Proof.Laws.Encodable.rot : ∀ x0 x1 x2 x3 x4, Sys2Proof.Laws.Encodable.Statement (.rot x0 x1 x2 x3 x4) := fun _ _ _ _ _ => rfl
theorem Sys2Proof.Laws.Encodable.bfe : ∀ x0 x1 x2 x3 x4 x5, Sys2Proof.Laws.Encodable.Statement (.bfe x0 x1 x2 x3 x4 x5) := fun _ _ _ _ _ _ => rfl
theorem Sys2Proof.Laws.Encodable.bfi : ∀ x0 x1 x2 x3 x4 x5, Sys2Proof.Laws.Encodable.Statement (.bfi x0 x1 x2 x3 x4 x5) := fun _ _ _ _ _ _ => rfl
theorem Sys2Proof.Laws.Encodable.popc : ∀ x0 x1 x2 x3, Sys2Proof.Laws.Encodable.Statement (.popc x0 x1 x2 x3) := fun _ _ _ _ => rfl
theorem Sys2Proof.Laws.Encodable.clz : ∀ x0 x1 x2 x3, Sys2Proof.Laws.Encodable.Statement (.clz x0 x1 x2 x3) := fun _ _ _ _ => rfl
theorem Sys2Proof.Laws.Encodable.brev : ∀ x0 x1 x2 x3, Sys2Proof.Laws.Encodable.Statement (.brev x0 x1 x2 x3) := fun _ _ _ _ => rfl
theorem Sys2Proof.Laws.Encodable.cmp : ∀ x0 x1 x2 x3 x4 x5, Sys2Proof.Laws.Encodable.Statement (.cmp x0 x1 x2 x3 x4 x5) := fun _ _ _ _ _ _ => rfl
theorem Sys2Proof.Laws.Encodable.sel : ∀ x0 x1 x2 x3 x4 x5 x6, Sys2Proof.Laws.Encodable.Statement (.sel x0 x1 x2 x3 x4 x5 x6) := fun _ _ _ _ _ _ _ => rfl
theorem Sys2Proof.Laws.Encodable.mov : ∀ x0 x1 x2 x3, Sys2Proof.Laws.Encodable.Statement (.mov x0 x1 x2 x3) := fun _ _ _ _ => rfl
theorem Sys2Proof.Laws.Encodable.li : ∀ x0 x1 x2, Sys2Proof.Laws.Encodable.Statement (.li x0 x1 x2) := fun _ _ _ => rfl
theorem Sys2Proof.Laws.Encodable.prmt : ∀ x0 x1 x2 x3 x4, Sys2Proof.Laws.Encodable.Statement (.prmt x0 x1 x2 x3 x4) := fun _ _ _ _ _ => rfl
theorem Sys2Proof.Laws.Encodable.sext : ∀ x0 x1 x2 x3 x4, Sys2Proof.Laws.Encodable.Statement (.sext x0 x1 x2 x3 x4) := fun _ _ _ _ _ => rfl
theorem Sys2Proof.Laws.Encodable.dp4 : ∀ x0 x1 x2 x3 x4 x5 x6 x7, Sys2Proof.Laws.Encodable.Statement (.dp4 x0 x1 x2 x3 x4 x5 x6 x7) := fun _ _ _ _ _ _ _ _ => rfl
theorem Sys2Proof.Laws.Encodable.sad : ∀ x0 x1 x2 x3 x4 x5, Sys2Proof.Laws.Encodable.Statement (.sad x0 x1 x2 x3 x4 x5) := fun _ _ _ _ _ _ => rfl
theorem Sys2Proof.Laws.Encodable.fadd : ∀ x0 x1 x2 x3 x4 x5 x6, Sys2Proof.Laws.Encodable.Statement (.fadd x0 x1 x2 x3 x4 x5 x6) := fun _ _ _ _ _ _ _ => rfl
theorem Sys2Proof.Laws.Encodable.fsub : ∀ x0 x1 x2 x3 x4 x5 x6, Sys2Proof.Laws.Encodable.Statement (.fsub x0 x1 x2 x3 x4 x5 x6) := fun _ _ _ _ _ _ _ => rfl
theorem Sys2Proof.Laws.Encodable.fmul : ∀ x0 x1 x2 x3 x4 x5 x6, Sys2Proof.Laws.Encodable.Statement (.fmul x0 x1 x2 x3 x4 x5 x6) := fun _ _ _ _ _ _ _ => rfl
theorem Sys2Proof.Laws.Encodable.ffma : ∀ x0 x1 x2 x3 x4 x5 x6 x7, Sys2Proof.Laws.Encodable.Statement (.ffma x0 x1 x2 x3 x4 x5 x6 x7) := fun _ _ _ _ _ _ _ _ => rfl
theorem Sys2Proof.Laws.Encodable.fmin : ∀ x0 x1 x2 x3 x4, Sys2Proof.Laws.Encodable.Statement (.fmin x0 x1 x2 x3 x4) := fun _ _ _ _ _ => rfl
theorem Sys2Proof.Laws.Encodable.fmax : ∀ x0 x1 x2 x3 x4, Sys2Proof.Laws.Encodable.Statement (.fmax x0 x1 x2 x3 x4) := fun _ _ _ _ _ => rfl
theorem Sys2Proof.Laws.Encodable.fcmp : ∀ x0 x1 x2 x3 x4 x5, Sys2Proof.Laws.Encodable.Statement (.fcmp x0 x1 x2 x3 x4 x5) := fun _ _ _ _ _ _ => rfl
theorem Sys2Proof.Laws.Encodable.fclass : ∀ x0 x1 x2 x3, Sys2Proof.Laws.Encodable.Statement (.fclass x0 x1 x2 x3) := fun _ _ _ _ => rfl
theorem Sys2Proof.Laws.Encodable.fdiv : ∀ x0 x1 x2 x3 x4 x5 x6, Sys2Proof.Laws.Encodable.Statement (.fdiv x0 x1 x2 x3 x4 x5 x6) := fun _ _ _ _ _ _ _ => rfl
theorem Sys2Proof.Laws.Encodable.fsqrt : ∀ x0 x1 x2 x3 x4 x5, Sys2Proof.Laws.Encodable.Statement (.fsqrt x0 x1 x2 x3 x4 x5) := fun _ _ _ _ _ _ => rfl
theorem Sys2Proof.Laws.Encodable.frcp : ∀ x0 x1 x2, Sys2Proof.Laws.Encodable.Statement (.frcp x0 x1 x2) := fun _ _ _ => rfl
theorem Sys2Proof.Laws.Encodable.frsq : ∀ x0 x1 x2, Sys2Proof.Laws.Encodable.Statement (.frsq x0 x1 x2) := fun _ _ _ => rfl
theorem Sys2Proof.Laws.Encodable.fex2 : ∀ x0 x1 x2, Sys2Proof.Laws.Encodable.Statement (.fex2 x0 x1 x2) := fun _ _ _ => rfl
theorem Sys2Proof.Laws.Encodable.flg2 : ∀ x0 x1 x2, Sys2Proof.Laws.Encodable.Statement (.flg2 x0 x1 x2) := fun _ _ _ => rfl
theorem Sys2Proof.Laws.Encodable.frred : ∀ x0 x1 x2 x3, Sys2Proof.Laws.Encodable.Statement (.frred x0 x1 x2 x3) := fun _ _ _ _ => rfl
theorem Sys2Proof.Laws.Encodable.fsin : ∀ x0 x1 x2, Sys2Proof.Laws.Encodable.Statement (.fsin x0 x1 x2) := fun _ _ _ => rfl
theorem Sys2Proof.Laws.Encodable.fcos : ∀ x0 x1 x2, Sys2Proof.Laws.Encodable.Statement (.fcos x0 x1 x2) := fun _ _ _ => rfl
theorem Sys2Proof.Laws.Encodable.fint : ∀ x0 x1 x2 x3 x4, Sys2Proof.Laws.Encodable.Statement (.fint x0 x1 x2 x3 x4) := fun _ _ _ _ _ => rfl
theorem Sys2Proof.Laws.Encodable.fcvt : ∀ x0 x1 x2 x3 x4 x5 x6, Sys2Proof.Laws.Encodable.Statement (.fcvt x0 x1 x2 x3 x4 x5 x6) := fun _ _ _ _ _ _ _ => rfl
theorem Sys2Proof.Laws.Encodable.f2i : ∀ x0 x1 x2 x3 x4 x5, Sys2Proof.Laws.Encodable.Statement (.f2i x0 x1 x2 x3 x4 x5) := fun _ _ _ _ _ _ => rfl
theorem Sys2Proof.Laws.Encodable.i2f : ∀ x0 x1 x2 x3 x4 x5 x6, Sys2Proof.Laws.Encodable.Statement (.i2f x0 x1 x2 x3 x4 x5 x6) := fun _ _ _ _ _ _ _ => rfl
theorem Sys2Proof.Laws.Encodable.fpack : ∀ x0 x1 x2 x3 x4 x5 x6, Sys2Proof.Laws.Encodable.Statement (.fpack x0 x1 x2 x3 x4 x5 x6) := fun _ _ _ _ _ _ _ => rfl
theorem Sys2Proof.Laws.Encodable.funpack : ∀ x0 x1 x2 x3, Sys2Proof.Laws.Encodable.Statement (.funpack x0 x1 x2 x3) := fun _ _ _ _ => rfl
theorem Sys2Proof.Laws.Encodable.fldexp : ∀ x0 x1 x2 x3 x4 x5 x6, Sys2Proof.Laws.Encodable.Statement (.fldexp x0 x1 x2 x3 x4 x5 x6) := fun _ _ _ _ _ _ _ => rfl
theorem Sys2Proof.Laws.Encodable.ffrexp : ∀ x0 x1 x2 x3 x4, Sys2Proof.Laws.Encodable.Statement (.ffrexp x0 x1 x2 x3 x4) := fun _ _ _ _ _ => rfl
theorem Sys2Proof.Laws.Encodable.fdot2 : ∀ x0 x1 x2 x3 x4 x5 x6 x7 x8, Sys2Proof.Laws.Encodable.Statement (.fdot2 x0 x1 x2 x3 x4 x5 x6 x7 x8) := fun _ _ _ _ _ _ _ _ _ => rfl
theorem Sys2Proof.Laws.Encodable.fdot4 : ∀ x0 x1 x2 x3 x4 x5 x6 x7 x8, Sys2Proof.Laws.Encodable.Statement (.fdot4 x0 x1 x2 x3 x4 x5 x6 x7 x8) := fun _ _ _ _ _ _ _ _ _ => rfl
theorem Sys2Proof.Laws.Encodable.shfl : ∀ x0 x1 x2 x3 x4 x5, Sys2Proof.Laws.Encodable.Statement (.shfl x0 x1 x2 x3 x4 x5) := fun _ _ _ _ _ _ => rfl
theorem Sys2Proof.Laws.Encodable.pswap : ∀ x0 x1 x2 x3 x4, Sys2Proof.Laws.Encodable.Statement (.pswap x0 x1 x2 x3 x4) := fun _ _ _ _ _ => rfl
theorem Sys2Proof.Laws.Encodable.vote : ∀ x0 x1 x2 x3, Sys2Proof.Laws.Encodable.Statement (.vote x0 x1 x2 x3) := fun _ _ _ _ => rfl
theorem Sys2Proof.Laws.Encodable.ballot : ∀ x0 x1 x2, Sys2Proof.Laws.Encodable.Statement (.ballot x0 x1 x2) := fun _ _ _ => rfl
theorem Sys2Proof.Laws.Encodable.lscan : ∀ x0 x1 x2 x3 x4 x5, Sys2Proof.Laws.Encodable.Statement (.lscan x0 x1 x2 x3 x4 x5) := fun _ _ _ _ _ _ => rfl
theorem Sys2Proof.Laws.Encodable.lred : ∀ x0 x1 x2 x3 x4, Sys2Proof.Laws.Encodable.Statement (.lred x0 x1 x2 x3 x4) := fun _ _ _ _ _ => rfl
theorem Sys2Proof.Laws.Encodable.matchl : ∀ x0 x1 x2 x3, Sys2Proof.Laws.Encodable.Statement (.matchl x0 x1 x2 x3) := fun _ _ _ _ => rfl
theorem Sys2Proof.Laws.Encodable.regroup : ∀ x0 x1 x2, Sys2Proof.Laws.Encodable.Statement (.regroup x0 x1 x2) := fun _ _ _ => rfl
theorem Sys2Proof.Laws.Encodable.regroupRendezvous : ∀ x0 x1 x2, Sys2Proof.Laws.Encodable.Statement (.regroupRendezvous x0 x1 x2) := fun _ _ _ => rfl
theorem Sys2Proof.Laws.Encodable.ld : ∀ x0 x1 x2 x3 x4 x5, Sys2Proof.Laws.Encodable.Statement (.ld x0 x1 x2 x3 x4 x5) := fun _ _ _ _ _ _ => rfl
theorem Sys2Proof.Laws.Encodable.st : ∀ x0 x1 x2 x3 x4 x5, Sys2Proof.Laws.Encodable.Statement (.st x0 x1 x2 x3 x4 x5) := fun _ _ _ _ _ _ => rfl
theorem Sys2Proof.Laws.Encodable.ldu : ∀ x0 x1 x2 x3 x4 x5, Sys2Proof.Laws.Encodable.Statement (.ldu x0 x1 x2 x3 x4 x5) := fun _ _ _ _ _ _ => rfl
theorem Sys2Proof.Laws.Encodable.stu : ∀ x0 x1 x2 x3 x4 x5, Sys2Proof.Laws.Encodable.Statement (.stu x0 x1 x2 x3 x4 x5) := fun _ _ _ _ _ _ => rfl
theorem Sys2Proof.Laws.Encodable.lds : ∀ x0 x1 x2 x3, Sys2Proof.Laws.Encodable.Statement (.lds x0 x1 x2 x3) := fun _ _ _ _ => rfl
theorem Sys2Proof.Laws.Encodable.sts : ∀ x0 x1 x2 x3, Sys2Proof.Laws.Encodable.Statement (.sts x0 x1 x2 x3) := fun _ _ _ _ => rfl
theorem Sys2Proof.Laws.Encodable.prf : ∀ x0 x1 x2, Sys2Proof.Laws.Encodable.Statement (.prf x0 x1 x2) := fun _ _ _ => rfl
theorem Sys2Proof.Laws.Encodable.atom : ∀ x0 x1 x2 x3 x4 x5 x6, Sys2Proof.Laws.Encodable.Statement (.atom x0 x1 x2 x3 x4 x5 x6) := fun _ _ _ _ _ _ _ => rfl
theorem Sys2Proof.Laws.Encodable.atomu : ∀ x0 x1 x2 x3 x4 x5 x6, Sys2Proof.Laws.Encodable.Statement (.atomu x0 x1 x2 x3 x4 x5 x6) := fun _ _ _ _ _ _ _ => rfl
theorem Sys2Proof.Laws.Encodable.atoms : ∀ x0 x1 x2 x3 x4 x5, Sys2Proof.Laws.Encodable.Statement (.atoms x0 x1 x2 x3 x4 x5) := fun _ _ _ _ _ _ => rfl
theorem Sys2Proof.Laws.Encodable.fence : ∀ x0 x1 x2, Sys2Proof.Laws.Encodable.Statement (.fence x0 x1 x2) := fun _ _ _ => rfl
theorem Sys2Proof.Laws.Encodable.wait : ∀ x0 x1 x2, Sys2Proof.Laws.Encodable.Statement (.wait x0 x1 x2) := fun _ _ _ => rfl
theorem Sys2Proof.Laws.Encodable.commit : ∀ x0 x1, Sys2Proof.Laws.Encodable.Statement (.commit x0 x1) := fun _ _ => rfl
theorem Sys2Proof.Laws.Encodable.cln : ∀ x0 x1, Sys2Proof.Laws.Encodable.Statement (.cln x0 x1) := fun _ _ => rfl
theorem Sys2Proof.Laws.Encodable.inv : ∀ x0 x1, Sys2Proof.Laws.Encodable.Statement (.inv x0 x1) := fun _ _ => rfl
theorem Sys2Proof.Laws.Encodable.clninv : ∀ x0 x1, Sys2Proof.Laws.Encodable.Statement (.clninv x0 x1) := fun _ _ => rfl
theorem Sys2Proof.Laws.Encodable.rdenter : ∀ x0, Sys2Proof.Laws.Encodable.Statement (.rdenter x0) := fun _ => rfl
theorem Sys2Proof.Laws.Encodable.rdexit : ∀ x0, Sys2Proof.Laws.Encodable.Statement (.rdexit x0) := fun _ => rfl
theorem Sys2Proof.Laws.Encodable.srsv : ∀ x0 x1 x2 x3, Sys2Proof.Laws.Encodable.Statement (.srsv x0 x1 x2 x3) := fun _ _ _ _ => rfl
theorem Sys2Proof.Laws.Encodable.srel : ∀ x0, Sys2Proof.Laws.Encodable.Statement (.srel x0) := fun _ => rfl
theorem Sys2Proof.Laws.Encodable.bload : ∀ x0 x1 x2, Sys2Proof.Laws.Encodable.Statement (.bload x0 x1 x2) := fun _ _ _ => rfl
theorem Sys2Proof.Laws.Encodable.cbt : ∀ x0 x1 x2, Sys2Proof.Laws.Encodable.Statement (.cbt x0 x1 x2) := fun _ _ _ => rfl
theorem Sys2Proof.Laws.Encodable.mma : ∀ x0 x1 x2 x3 x4 x5, Sys2Proof.Laws.Encodable.Statement (.mma x0 x1 x2 x3 x4 x5) := fun _ _ _ _ _ _ => rfl
theorem Sys2Proof.Laws.Encodable.szero : ∀ x0 x1 x2, Sys2Proof.Laws.Encodable.Statement (.szero x0 x1 x2) := fun _ _ _ => rfl
theorem Sys2Proof.Laws.Encodable.srd : ∀ x0 x1 x2 x3 x4, Sys2Proof.Laws.Encodable.Statement (.srd x0 x1 x2 x3 x4) := fun _ _ _ _ _ => rfl
theorem Sys2Proof.Laws.Encodable.swr : ∀ x0 x1 x2 x3 x4, Sys2Proof.Laws.Encodable.Statement (.swr x0 x1 x2 x3 x4) := fun _ _ _ _ _ => rfl
theorem Sys2Proof.Laws.Encodable.sst : ∀ x0 x1 x2 x3 x4, Sys2Proof.Laws.Encodable.Statement (.sst x0 x1 x2 x3 x4) := fun _ _ _ _ _ => rfl
theorem Sys2Proof.Laws.Encodable.cpy : ∀ x0 x1 x2 x3 x4, Sys2Proof.Laws.Encodable.Statement (.cpy x0 x1 x2 x3 x4) := fun _ _ _ _ _ => rfl
theorem Sys2Proof.Laws.Encodable.gath : ∀ x0 x1 x2 x3 x4 x5, Sys2Proof.Laws.Encodable.Statement (.gath x0 x1 x2 x3 x4 x5) := fun _ _ _ _ _ _ => rfl
theorem Sys2Proof.Laws.Encodable.scat : ∀ x0 x1 x2 x3 x4 x5, Sys2Proof.Laws.Encodable.Statement (.scat x0 x1 x2 x3 x4 x5) := fun _ _ _ _ _ _ => rfl
theorem Sys2Proof.Laws.Encodable.fill : ∀ x0 x1 x2 x3 x4 x5, Sys2Proof.Laws.Encodable.Statement (.fill x0 x1 x2 x3 x4 x5) := fun _ _ _ _ _ _ => rfl
theorem Sys2Proof.Laws.Encodable.tokset : ∀ x0 x1, Sys2Proof.Laws.Encodable.Statement (.tokset x0 x1) := fun _ _ => rfl
theorem Sys2Proof.Laws.Encodable.toksetApply : ∀ x0 x1, Sys2Proof.Laws.Encodable.Statement (.toksetApply x0 x1) := fun _ _ => rfl
theorem Sys2Proof.Laws.Encodable.pim : ∀ x0 x1 x2 x3 x4 x5, Sys2Proof.Laws.Encodable.Statement (.pim x0 x1 x2 x3 x4 x5) := fun _ _ _ _ _ _ => rfl
theorem Sys2Proof.Laws.Encodable.rowcp : ∀ x0 x1 x2 x3 x4, Sys2Proof.Laws.Encodable.Statement (.rowcp x0 x1 x2 x3 x4) := fun _ _ _ _ _ => rfl
theorem Sys2Proof.Laws.Encodable.rowz : ∀ x0 x1 x2 x3, Sys2Proof.Laws.Encodable.Statement (.rowz x0 x1 x2 x3) := fun _ _ _ _ => rfl
theorem Sys2Proof.Laws.Encodable.cgrp : ∀ x0 x1 x2 x3, Sys2Proof.Laws.Encodable.Statement (.cgrp x0 x1 x2 x3) := fun _ _ _ _ => rfl
theorem Sys2Proof.Laws.Encodable.cstart : ∀ x0 x1 x2 x3, Sys2Proof.Laws.Encodable.Statement (.cstart x0 x1 x2 x3) := fun _ _ _ _ => rfl
theorem Sys2Proof.Laws.Encodable.cwait : ∀ x0 x1, Sys2Proof.Laws.Encodable.Statement (.cwait x0 x1) := fun _ _ => rfl
theorem Sys2Proof.Laws.Encodable.red : ∀ x0 x1 x2 x3 x4 x5, Sys2Proof.Laws.Encodable.Statement (.red x0 x1 x2 x3 x4 x5) := fun _ _ _ _ _ _ => rfl
theorem Sys2Proof.Laws.Encodable.emit : ∀ x0 x1 x2, Sys2Proof.Laws.Encodable.Statement (.emit x0 x1 x2) := fun _ _ _ => rfl
theorem Sys2Proof.Laws.Encodable.trap : ∀ x0 x1, Sys2Proof.Laws.Encodable.Statement (.trap x0 x1) := fun _ _ => rfl
theorem Sys2Proof.Laws.Encodable.resume : ∀ x0 x1 x2 x3, Sys2Proof.Laws.Encodable.Statement (.resume x0 x1 x2 x3) := fun _ _ _ _ => rfl
theorem Sys2Proof.Laws.Encodable.csrr : ∀ x0 x1 x2, Sys2Proof.Laws.Encodable.Statement (.csrr x0 x1 x2) := fun _ _ _ => rfl
theorem Sys2Proof.Laws.Encodable.csrw : ∀ x0 x1 x2, Sys2Proof.Laws.Encodable.Statement (.csrw x0 x1 x2) := fun _ _ _ => rfl
theorem Sys2Proof.Laws.Encodable.bar : ∀ x0 x1, Sys2Proof.Laws.Encodable.Statement (.bar x0 x1) := fun _ _ => rfl
theorem Sys2Proof.Laws.Encodable.barrierRelease : ∀ x0 x1, Sys2Proof.Laws.Encodable.Statement (.barrierRelease x0 x1) := fun _ _ => rfl
theorem Sys2Proof.Laws.Encodable.gwait : ∀ x0 x1, Sys2Proof.Laws.Encodable.Statement (.gwait x0 x1) := fun _ _ => rfl
theorem Sys2Proof.Laws.Encodable.dfree : ∀ x0 x1 x2, Sys2Proof.Laws.Encodable.Statement (.dfree x0 x1 x2) := fun _ _ _ => rfl
theorem Sys2Proof.Laws.Encodable.brk : ∀ x0 x1, Sys2Proof.Laws.Encodable.Statement (.brk x0 x1) := fun _ _ => rfl
theorem Sys2Proof.Laws.Encodable.dbg : ∀ x0 x1 x2 x3 x4, Sys2Proof.Laws.Encodable.Statement (.dbg x0 x1 x2 x3 x4) := fun _ _ _ _ _ => rfl
theorem Sys2Proof.Laws.Encodable.halt : ∀ x0 x1 x2, Sys2Proof.Laws.Encodable.Statement (.halt x0 x1 x2) := fun _ _ _ => rfl
theorem Sys2Proof.Laws.Encodable.sleep : ∀ x0 x1, Sys2Proof.Laws.Encodable.Statement (.sleep x0 x1) := fun _ _ => rfl
theorem Sys2Proof.Laws.Encodable.unassignedOpcode : ∀ x0, Sys2Proof.Laws.Encodable.Statement (.unassignedOpcode x0) := fun _ => rfl
theorem Sys2Proof.Laws.Encodable.sleepWake : ∀ x0 x1, Sys2Proof.Laws.Encodable.Statement (.sleepWake x0 x1) := fun _ _ => rfl
theorem Sys2Proof.Laws.Encodable.clauseStart : ∀ x0 x1 x2, Sys2Proof.Laws.Encodable.Statement (.clauseStart x0 x1 x2) := fun _ _ _ => rfl
theorem Sys2Proof.Laws.Encodable.groupEnd : ∀ x0 x1, Sys2Proof.Laws.Encodable.Statement (.groupEnd x0 x1) := fun _ _ => rfl
theorem Sys2Proof.Laws.Encodable.memoryOpCompletion : ∀ x0 x1 x2, Sys2Proof.Laws.Encodable.Statement (.memoryOpCompletion x0 x1 x2) := fun _ _ _ => rfl
theorem Sys2Proof.Laws.Encodable.batchComplete : ∀ x0 x1 x2, Sys2Proof.Laws.Encodable.Statement (.batchComplete x0 x1 x2) := fun _ _ _ => rfl
theorem Sys2Proof.Laws.Encodable.faultRecordWrite : ∀ x0 x1, Sys2Proof.Laws.Encodable.Statement (.faultRecordWrite x0 x1) := fun _ _ => rfl
theorem Sys2Proof.Laws.Encodable.engineFaultSuspend : ∀ x0, Sys2Proof.Laws.Encodable.Statement (.engineFaultSuspend x0) := fun _ => rfl
theorem Sys2Proof.Laws.Encodable.comparatorBreakpoint : ∀ x0 x1 x2, Sys2Proof.Laws.Encodable.Statement (.comparatorBreakpoint x0 x1 x2) := fun _ _ _ => rfl
theorem Sys2Proof.Laws.Encodable.dbgStep : ∀ x0 x1, Sys2Proof.Laws.Encodable.Statement (.dbgStep x0 x1) := fun _ _ => rfl
theorem Sys2Proof.Laws.Encodable.dbgStop : ∀ x0 x1, Sys2Proof.Laws.Encodable.Statement (.dbgStop x0 x1) := fun _ _ => rfl
theorem Sys2Proof.Laws.Encodable.preemption : ∀ x0, Sys2Proof.Laws.Encodable.Statement (.preemption x0) := fun _ => rfl
theorem Sys2Proof.Laws.Encodable.contextRestore : ∀ x0, Sys2Proof.Laws.Encodable.Statement (.contextRestore x0) := fun _ => rfl
theorem Sys2Proof.Laws.Encodable.contextRemoval : ∀ x0, Sys2Proof.Laws.Encodable.Statement (.contextRemoval x0) := fun _ => rfl
theorem Sys2Proof.Laws.Encodable.escapementEvaluation : ∀ x0, Sys2Proof.Laws.Encodable.Statement (.escapementEvaluation x0) := fun _ => rfl
theorem Sys2Proof.Laws.Encodable.ageingTimeReached : ∀ x0 x1, Sys2Proof.Laws.Encodable.Statement (.ageingTimeReached x0 x1) := fun _ _ => rfl
theorem Sys2Proof.Laws.Encodable.settFill : ∀ x0 x1 x2, Sys2Proof.Laws.Encodable.Statement (.settFill x0 x1 x2) := fun _ _ _ => rfl
theorem Sys2Proof.Laws.Encodable.settSpill : ∀ x0 x1 x2, Sys2Proof.Laws.Encodable.Statement (.settSpill x0 x1 x2) := fun _ _ _ => rfl
theorem Sys2Proof.Laws.Encodable.cmemCfgWrite : ∀ x0 x1, Sys2Proof.Laws.Encodable.Statement (.cmemCfgWrite x0 x1) := fun _ _ => rfl
theorem Sys2Proof.Laws.Encodable.l1ResizeComplete : ∀ x0, Sys2Proof.Laws.Encodable.Statement (.l1ResizeComplete x0) := fun _ => rfl
theorem Sys2Proof.Laws.Encodable.xlatInvWrite : ∀ x0 x1, Sys2Proof.Laws.Encodable.Statement (.xlatInvWrite x0 x1) := fun _ _ => rfl
theorem Sys2Proof.Laws.Encodable.xlatInvComplete : ∀ x0, Sys2Proof.Laws.Encodable.Statement (.xlatInvComplete x0) := fun _ => rfl
theorem Sys2Proof.Laws.Encodable.commandDispatch : ∀ x0, Sys2Proof.Laws.Encodable.Statement (.commandDispatch x0) := fun _ => rfl
theorem Sys2Proof.Laws.Encodable.faceGrant : ∀ x0 x1, Sys2Proof.Laws.Encodable.Statement (.faceGrant x0 x1) := fun _ _ => rfl
theorem Sys2Proof.Laws.Encodable.mmaKstep : ∀ x0, Sys2Proof.Laws.Encodable.Statement (.mmaKstep x0) := fun _ => rfl
theorem Sys2Proof.Laws.Encodable.engineCommandComplete : ∀ x0, Sys2Proof.Laws.Encodable.Statement (.engineCommandComplete x0) := fun _ => rfl
theorem Sys2Proof.Laws.Encodable.nearMemoryRowComplete : ∀ x0, Sys2Proof.Laws.Encodable.Statement (.nearMemoryRowComplete x0) := fun _ => rfl
theorem Sys2Proof.Laws.Encodable.dresserVisit : ∀ x0 x1, Sys2Proof.Laws.Encodable.Statement (.dresserVisit x0 x1) := fun _ _ => rfl
theorem Sys2Proof.Laws.Encodable.eccTargetChange : ∀ x0 x1 x2 x3 x4, Sys2Proof.Laws.Encodable.Statement (.eccTargetChange x0 x1 x2 x3 x4) := fun _ _ _ _ _ => rfl
theorem Sys2Proof.Laws.Encodable.retrainQueue : ∀ x0 x1 x2 x3, Sys2Proof.Laws.Encodable.Statement (.retrainQueue x0 x1 x2 x3) := fun _ _ _ _ => rfl
theorem Sys2Proof.Laws.Encodable.retrainingWindow : ∀ x0 x1, Sys2Proof.Laws.Encodable.Statement (.retrainingWindow x0 x1) := fun _ _ => rfl
theorem Sys2Proof.Laws.Encodable.retrainRequeue : ∀ x0 x1, Sys2Proof.Laws.Encodable.Statement (.retrainRequeue x0 x1) := fun _ _ => rfl
theorem Sys2Proof.Laws.Encodable.shapeRecordWrite : ∀ x0 x1, Sys2Proof.Laws.Encodable.Statement (.shapeRecordWrite x0 x1) := fun _ _ => rfl
theorem Sys2Proof.Laws.Encodable.shapeChangeComplete : Sys2Proof.Laws.Encodable.Statement (.shapeChangeComplete) := rfl
theorem Sys2Proof.Laws.Encodable.writeIndexNotify : ∀ x0, Sys2Proof.Laws.Encodable.Statement (.writeIndexNotify x0) := fun _ => rfl
theorem Sys2Proof.Laws.Encodable.queueEntryRead : ∀ x0, Sys2Proof.Laws.Encodable.Statement (.queueEntryRead x0) := fun _ => rfl
theorem Sys2Proof.Laws.Encodable.clusterPlacement : ∀ x0, Sys2Proof.Laws.Encodable.Statement (.clusterPlacement x0) := fun _ => rfl
theorem Sys2Proof.Laws.Encodable.clusterReserve : ∀ x0 x1, Sys2Proof.Laws.Encodable.Statement (.clusterReserve x0 x1) := fun _ _ => rfl
theorem Sys2Proof.Laws.Encodable.slotMapping : ∀ x0, Sys2Proof.Laws.Encodable.Statement (.slotMapping x0) := fun _ => rfl
theorem Sys2Proof.Laws.Encodable.sliceExpiry : ∀ x0, Sys2Proof.Laws.Encodable.Statement (.sliceExpiry x0) := fun _ => rfl
theorem Sys2Proof.Laws.Encodable.waitingBudgetExceeded : ∀ x0, Sys2Proof.Laws.Encodable.Statement (.waitingBudgetExceeded x0) := fun _ => rfl
theorem Sys2Proof.Laws.Encodable.nodeCoalescingTimer : ∀ x0 x1, Sys2Proof.Laws.Encodable.Statement (.nodeCoalescingTimer x0 x1) := fun _ _ => rfl
theorem Sys2Proof.Laws.Encodable.partWrite : ∀ x0 x1, Sys2Proof.Laws.Encodable.Statement (.partWrite x0 x1) := fun _ _ => rfl
theorem Sys2Proof.Laws.Encodable.partctlWrite : ∀ x0, Sys2Proof.Laws.Encodable.Statement (.partctlWrite x0) := fun _ => rfl
theorem Sys2Proof.Laws.Encodable.rdmaWrite : ∀ x0 x1 x2 x3, Sys2Proof.Laws.Encodable.Statement (.rdmaWrite x0 x1 x2 x3) := fun _ _ _ _ => rfl
theorem Sys2Proof.Laws.Encodable.rdmaRead : ∀ x0 x1 x2 x3, Sys2Proof.Laws.Encodable.Statement (.rdmaRead x0 x1 x2 x3) := fun _ _ _ _ => rfl
theorem Sys2Proof.Laws.Encodable.cread : ∀ x0 x1, Sys2Proof.Laws.Encodable.Statement (.cread x0 x1) := fun _ _ => rfl
theorem Sys2Proof.Laws.Encodable.cwrite : ∀ x0 x1, Sys2Proof.Laws.Encodable.Statement (.cwrite x0 x1) := fun _ _ => rfl
theorem Sys2Proof.Laws.Encodable.load : ∀ x0 x1, Sys2Proof.Laws.Encodable.Statement (.load x0 x1) := fun _ _ => rfl
theorem Sys2Proof.Laws.Encodable.resumeCommand : ∀ x0 x1, Sys2Proof.Laws.Encodable.Statement (.resumeCommand x0 x1) := fun _ _ => rfl
theorem Sys2Proof.Laws.Encodable.remove : ∀ x0 x1, Sys2Proof.Laws.Encodable.Statement (.remove x0 x1) := fun _ _ => rfl
theorem Sys2Proof.Laws.Encodable.restore : ∀ x0 x1, Sys2Proof.Laws.Encodable.Statement (.restore x0 x1) := fun _ _ => rfl
theorem Sys2Proof.Laws.Encodable.mbox : ∀ x0 x1, Sys2Proof.Laws.Encodable.Statement (.mbox x0 x1) := fun _ _ => rfl
theorem Sys2Proof.Laws.Encodable.attest : ∀ x0 x1, Sys2Proof.Laws.Encodable.Statement (.attest x0 x1) := fun _ _ => rfl
theorem Sys2Proof.Laws.Encodable.winset : ∀ x0 x1, Sys2Proof.Laws.Encodable.Statement (.winset x0 x1) := fun _ _ => rfl
theorem Sys2Proof.Laws.Encodable.keyset : ∀ x0 x1, Sys2Proof.Laws.Encodable.Statement (.keyset x0 x1) := fun _ _ => rfl
theorem Sys2Proof.Laws.Encodable.mailboxSend : Sys2Proof.Laws.Encodable.Statement (.mailboxSend) := rfl
theorem Sys2Proof.Laws.Encodable.packageReset : Sys2Proof.Laws.Encodable.Statement (.packageReset) := rfl
theorem Sys2Proof.Laws.Encodable.windingStep : ∀ x0 x1, Sys2Proof.Laws.Encodable.Statement (.windingStep x0 x1) := fun _ _ => rfl
theorem Sys2Proof.Laws.Encodable.windingRestart : Sys2Proof.Laws.Encodable.Statement (.windingRestart) := rfl
theorem Sys2Proof.Laws.Encodable.cycleStretch : ∀ x0, Sys2Proof.Laws.Encodable.Statement (.cycleStretch x0) := fun _ => rfl
theorem Sys2Proof.Laws.Encodable.regulatorTick : ∀ x0 x1 x2, Sys2Proof.Laws.Encodable.Statement (.regulatorTick x0 x1 x2) := fun _ _ _ => rfl
theorem Sys2Proof.Laws.Encodable.thermalStop : ∀ x0, Sys2Proof.Laws.Encodable.Statement (.thermalStop x0) := fun _ => rfl
theorem Sys2Proof.Laws.Encodable.moduleLimitStop : Sys2Proof.Laws.Encodable.Statement (.moduleLimitStop) := rfl
theorem Sys2Proof.Laws.Encodable.moduleLimitRecovery : Sys2Proof.Laws.Encodable.Statement (.moduleLimitRecovery) := rfl
theorem Sys2Proof.Laws.Encodable.deratedBand : ∀ x0, Sys2Proof.Laws.Encodable.Statement (.deratedBand x0) := fun _ => rfl
theorem Sys2Proof.Laws.Encodable.rs : ∀ x0 x1 x2, Sys2Proof.Laws.Encodable.Statement (.rs x0 x1 x2) := fun _ _ _ => rfl
theorem Sys2Proof.Laws.Encodable.rx : ∀ x0 x1 x2, Sys2Proof.Laws.Encodable.Statement (.rx x0 x1 x2) := fun _ _ _ => rfl
theorem Sys2Proof.Laws.Encodable.atHome : ∀ x0 x1 x2 x3 x4 x5 x6 x7, Sys2Proof.Laws.Encodable.Statement (.atHome x0 x1 x2 x3 x4 x5 x6 x7) := fun _ _ _ _ _ _ _ _ => rfl
theorem Sys2Proof.Laws.Encodable.cb : ∀ x0 x1 x2 x3, Sys2Proof.Laws.Encodable.Statement (.cb x0 x1 x2 x3) := fun _ _ _ _ => rfl
theorem Sys2Proof.Laws.Encodable.upgradeNotice : ∀ x0 x1, Sys2Proof.Laws.Encodable.Statement (.upgradeNotice x0 x1) := fun _ _ => rfl
theorem Sys2Proof.Laws.Encodable.writeBack : ∀ x0 x1 x2 x3, Sys2Proof.Laws.Encodable.Statement (.writeBack x0 x1 x2 x3) := fun _ _ _ _ => rfl
theorem Sys2Proof.Laws.Encodable.recall : ∀ x0 x1, Sys2Proof.Laws.Encodable.Statement (.recall x0 x1) := fun _ _ => rfl
theorem Sys2Proof.Laws.Encodable.dirqLookup : Sys2Proof.Laws.Encodable.Statement (.dirqLookup) := rfl
theorem Sys2Proof.Laws.Encodable.firewallChange : ∀ x0, Sys2Proof.Laws.Encodable.Statement (.firewallChange x0) := fun _ => rfl
theorem Sys2Proof.Laws.Encodable.firewallChangeComplete : Sys2Proof.Laws.Encodable.Statement (.firewallChangeComplete) := rfl
theorem Sys2Proof.Laws.Encodable.remoteResponse : ∀ x0 x1 x2 x3, Sys2Proof.Laws.Encodable.Statement (.remoteResponse x0 x1 x2 x3) := fun _ _ _ _ => rfl
theorem Sys2Proof.Laws.Encodable.remoteRetry : ∀ x0, Sys2Proof.Laws.Encodable.Statement (.remoteRetry x0) := fun _ => rfl
theorem Sys2Proof.Laws.Encodable.remoteTimeout : ∀ x0, Sys2Proof.Laws.Encodable.Statement (.remoteTimeout x0) := fun _ => rfl
theorem Sys2Proof.Laws.Encodable.atomicBusyResend : ∀ x0, Sys2Proof.Laws.Encodable.Statement (.atomicBusyResend x0) := fun _ => rfl
theorem Sys2Proof.Laws.Encodable.replayEntryExpiry : ∀ x0 x1, Sys2Proof.Laws.Encodable.Statement (.replayEntryExpiry x0 x1) := fun _ _ => rfl
theorem Sys2Proof.Laws.Encodable.writeBackResend : ∀ x0, Sys2Proof.Laws.Encodable.Statement (.writeBackResend x0) := fun _ => rfl
theorem Sys2Proof.Laws.Encodable.packetDrop : ∀ x0, Sys2Proof.Laws.Encodable.Statement (.packetDrop x0) := fun _ => rfl
theorem Sys2Proof.Laws.Encodable.heartbeat : ∀ x0, Sys2Proof.Laws.Encodable.Statement (.heartbeat x0) := fun _ => rfl
theorem Sys2Proof.Laws.Encodable.cellDeathDeclare : ∀ x0, Sys2Proof.Laws.Encodable.Statement (.cellDeathDeclare x0) := fun _ => rfl
theorem Sys2Proof.Laws.Encodable.deathMessage : ∀ x0, Sys2Proof.Laws.Encodable.Statement (.deathMessage x0) := fun _ => rfl
theorem Sys2Proof.Laws.Encodable.directorySweep : Sys2Proof.Laws.Encodable.Statement (.directorySweep) := rfl
theorem Sys2Proof.Laws.Encodable.selfIsolation : Sys2Proof.Laws.Encodable.Statement (.selfIsolation) := rfl
theorem Sys2Proof.Laws.Encodable.lend : ∀ x0 x1, Sys2Proof.Laws.Encodable.Statement (.lend x0 x1) := fun _ _ => rfl
theorem Sys2Proof.Laws.Encodable.withdraw : ∀ x0, Sys2Proof.Laws.Encodable.Statement (.withdraw x0) := fun _ => rfl
theorem Sys2Proof.Laws.Encodable.withdrawComplete : ∀ x0, Sys2Proof.Laws.Encodable.Statement (.withdrawComplete x0) := fun _ => rfl
theorem Sys2Proof.Laws.Encodable.localGraceBegin : ∀ x0, Sys2Proof.Laws.Encodable.Statement (.localGraceBegin x0) := fun _ => rfl
theorem Sys2Proof.Laws.Encodable.localGraceEnd : ∀ x0, Sys2Proof.Laws.Encodable.Statement (.localGraceEnd x0) := fun _ => rfl
theorem Sys2Proof.Laws.Encodable.graceRequestMessage : ∀ x0 x1 x2, Sys2Proof.Laws.Encodable.Statement (.graceRequestMessage x0 x1 x2) := fun _ _ _ => rfl
theorem Sys2Proof.Laws.Encodable.graceReport : ∀ x0 x1 x2, Sys2Proof.Laws.Encodable.Statement (.graceReport x0 x1 x2) := fun _ _ _ => rfl
theorem Sys2Proof.Laws.Encodable.dfreePost : ∀ x0, Sys2Proof.Laws.Encodable.Statement (.dfreePost x0) := fun _ => rfl
theorem Sys2Proof.Laws.Encodable.dfreePostRetry : ∀ x0, Sys2Proof.Laws.Encodable.Statement (.dfreePostRetry x0) := fun _ => rfl
theorem Sys2Proof.Laws.Encodable.announcement : ∀ x0 x1 x2 x3 x4 x5, Sys2Proof.Laws.Encodable.Statement (.announcement x0 x1 x2 x3 x4 x5) := fun _ _ _ _ _ _ => rfl
theorem Sys2Proof.Laws.Encodable.routePacketHop : ∀ x0 x1, Sys2Proof.Laws.Encodable.Statement (.routePacketHop x0 x1) := fun _ _ => rfl
theorem Sys2Proof.Laws.Encodable.collectiveAbort : ∀ x0 x1 x2, Sys2Proof.Laws.Encodable.Statement (.collectiveAbort x0 x1 x2) := fun _ _ _ => rfl
theorem Sys2Proof.Laws.Encodable.collectiveTimeout : ∀ x0 x1, Sys2Proof.Laws.Encodable.Statement (.collectiveTimeout x0 x1) := fun _ _ => rfl
theorem Sys2Proof.Laws.Encodable.controlRegisterWrite : ∀ x0 x1 x2, Sys2Proof.Laws.Encodable.Statement (.controlRegisterWrite x0 x1 x2) := fun _ _ _ => rfl
theorem Sys2Proof.Laws.Encodable.teamMigration : ∀ x0 x1 x2, Sys2Proof.Laws.Encodable.Statement (.teamMigration x0 x1 x2) := fun _ _ _ => rfl
theorem Sys2Proof.Laws.Encodable.minimumResidencyReached : ∀ x0, Sys2Proof.Laws.Encodable.Statement (.minimumResidencyReached x0) := fun _ => rfl
theorem Sys2Proof.Laws.Encodable.clusterAged : ∀ x0, Sys2Proof.Laws.Encodable.Statement (.clusterAged x0) := fun _ => rfl
theorem Sys2Proof.Laws.Encodable.linkDownOrReturn : ∀ x0 x1, Sys2Proof.Laws.Encodable.Statement (.linkDownOrReturn x0 x1) := fun _ _ => rfl
theorem Sys2Proof.Laws.Encodable.rateLimitRelease : ∀ x0, Sys2Proof.Laws.Encodable.Statement (.rateLimitRelease x0) := fun _ => rfl
theorem Sys2Proof.Laws.Encodable.rdmaAtomic : ∀ x0, Sys2Proof.Laws.Encodable.Statement (.rdmaAtomic x0) := fun _ => rfl
theorem Sys2Proof.Laws.Encodable.badManagementCommand : ∀ x0 x1, Sys2Proof.Laws.Encodable.Statement (.badManagementCommand x0 x1) := fun _ _ => rfl
end

