-- ==== Sys2Proof/Tests/Slice0.lean ====
section
/-! SUPPORT. Tests: well-formedness, decoding, one-step runs with expected values from the spec, and for each statement a state and operands
that meet its hypotheses. -/

namespace Sys2Proof.Tests

open Sys2Proof Sys2Proof.Machine

abbrev p15 : Guard := ⟨15, false⟩
abbrev q7 : Guard := ⟨7, false⟩

/-! ### Well-formedness: an ill-formed term for each check -/

theorem test_wf_refuses_zero_fields :
    ∀ i ∈ ([.atom p15 ⟨.add, .s32, .pkg, .relaxed, false⟩ .cached 4 (.vec 2) (.vec 5) (.vec 6),
        .atoms p15 ⟨.add, .s32, .team, .relaxed, true⟩ 4 (.vec 2) (.vec 5) (.vec 0),
        .atomu q7 ⟨.cas, .b32, .pkg, .relaxed, true⟩ .cached 1 2 5 6,
        .ldu q7 .b32 .cached .dflt 4 ⟨true, false, 2, 0xFF, false, 0⟩, .prf p15 .dflt ⟨false, true, 2, 0xFF, true, 0⟩,
        .cln p15 ⟨false, true, 2, 0xFF, true, 0⟩, .usrd q7 1 0x11, .uswr q7 4 0x0B, .ulease q7 0x4000, .sleep q7 0x400000] : List Instr),
      i.wf = false ∧ i.reservedOk = false := by decide

theorem test_wf_refuses_uniform_guard : (Instr.uadd ⟨8, false⟩ .s32 false 4 5 6).wf = false := by decide

theorem test_wf_refuses_modifiers :
    ∀ i ∈ ([.add p15 .b32 true 1 (.vec 2) (.vec 3), .mulh p15 .b32 1 (.vec 2) (.vec 3), .abs p15 .n32 false 1 (.vec 2),
        .sad p15 .s64 1 (.vec 2) (.vec 3) (.vec 4), .and p15 .s32 1 (.vec 2) (.vec 3), .cmp p15 .b32 .lt 1 (.vec 2) (.vec 3),
        .cmp p15 .s32 .num 1 (.vec 2) (.vec 3), .fadd p15 .f8a .dyn false 1 (.vec 2) (.vec 3), .fdiv p15 .f16 .dyn false 1 (.vec 2) (.vec 3),
        .fcvt p15 .f32 .f32 .dyn false 1 (.vec 2), .fpack p15 .f32 .dyn false 1 (.vec 2) (.vec 3), .fdot2 p15 .f32 .f8a .dyn false 1 (.vec 2) (.vec 3) (.vec 4),
        .fdot4 p15 .f32 .f16 .dyn false 1 (.vec 2) (.vec 3) (.vec 4), .lred p15 .add .b32 1 (.vec 2), .st p15 .s8 .cached .dflt 1 ⟨false, true, 2, 0xFF, false, 0⟩,
        .ld p15 .b32 .ms .nol1 1 ⟨false, true, 2, 0xFF, false, 0⟩, .atom p15 ⟨.add, .b32, .pkg, .relaxed, false⟩ .cached 4 (.vec 2) (.vec 5) (.vec 0),
        .atoms p15 ⟨.add, .s32, .pkg, .relaxed, false⟩ 4 (.vec 2) (.vec 5) (.vec 0), .fence q7 .pkg .relaxed, .commit q7 .gl, .gwait q7 .team,
        .cgrp q7 .clu 1 2, .cstart q7 .f16 2 4, .red q7 .add .n32 .pkg 2 4] : List Instr), i.wf = false ∧ i.modsOk = false := by decide

theorem test_wf_refuses_registers :
    ∀ i ∈ ([.add p15 .s64 false 3 (.vec 2) (.vec 4), .uadd q7 .s32 false 128 1 2, .uadd q7 .s64 false 2 127 4, .cmp p15 .s32 .lt 16 (.vec 1) (.vec 2),
        .ucmp q7 .s32 .lt 8 1 2, .brq p15 false 8 4] : List Instr), i.wf = false ∧ i.operands.all Opnd.staticOk = false := by decide

/-! ### Decoding: words written out from the encoding tables of the spec -/

/-- One word or more of each family, by the formats of 03 R45 and the codes of 05 R74 to R84: opcode, guard, selects, d, a, b, c, modifiers. -/
theorem test_decode_families :
    ∀ x ∈ ([(0x0170_0405_0600_2000, .uadd q7 .s32 false 4 5 6), (0x41F4_0102_0300_2004, .sub p15 .s32 true 1 (.sca 2) (.vec 3)),
        (0x31F0_0000_0000_0003, .bra p15 3), (0x3310_0009_0000_0007, .bdiv ⟨1, false⟩ 9 7), (0x8EF0_0F0E_1000_5800, .frred p15 15 (.vec 14) 16),
        (0xB1F0_190D_1800_0000, .pswap p15 .b32 25 (.vec 13) (.vec 24)), (0xB714_050E_0000_0000, .regroup ⟨1, false⟩ 5 14),
        (0xC136_0B04_1190_0400, .st ⟨3, false⟩ .b32 .cached .dflt 11 ⟨true, true, 4, 17, true, 0x400⟩),
        (0xC9F4_000A_0300_4082, .atoms p15 ⟨.add, .n32, .team, .relaxed, true⟩ 0 (.sca 10) (.vec 3) (.vec 0)),
        (0xC7F6_0704_0600_0444, .atom p15 ⟨.or, .b32, .pkg, .acq, false⟩ .cached 7 (.sca 4) (.sca 6) (.vec 0)),
        (0xDA70_000C_0E00_0000, .bload q7 12 14), (0xE070_0F10_1300_0000, .sst q7 15 16 19 none), (0x3AF0_0000_0000_0000, .exit p15),
        (0xE670_080A_0C00_6900, .pim q7 .fma 8 10 12 none), (0xE870_0800_0C0E_0008, .rowz q7 8 12 (some 14)), (0xF470_0000_0000_0200, .bar q7 .grid),
        (0xFA70_0000_0010_0000, .sleep q7 0x100000), (0x3B08_0000_0000_0000, .yield ⟨0, true⟩)] : List (Nat × Instr)),
      decode (BitVec.ofNat 64 x.1) = .ok x.2 := by decide

/-- The checks of 03 R52 refuse a word that has a field set which must be zero, names a value or a register that is not listed, or has an
unassigned opcode. -/
theorem test_decode_refuses :
    (decode 0x40F0_0909_0900_2040 = .error .reservedField ∧ decode 0x02F0_0405_0600_2000 = .error .reservedField) ∧
    (decode 0x40F0_0909_0900_0004 = .error .illegal ∧ decode 0x0170_8005_0600_2000 = .error .illegal) ∧
    decode 0 = .error (.unassigned 0) ∧ decode 0xFF00_0000_0000_0000 = .error (.unassigned 0xFF) := by decide

/-! ### A state in which words run

Core 0's slot 0 holds a group of 32 lanes at monitor privilege, standing at the one word of a clause; its registers are those of `regs`. The
core's cached translation maps virtual addresses below 2^34 to the same local addresses, and the L2 holds the first granules. -/

/-- A group with registers: vector registers by lane × 256 + number. -/
def grp (v : List (Nat × Word32)) (sc : List (Nat × Word32)) : Group :=
  let g := Group.start ⟨0, 0, 0, 0, 0, 0, 0, 0⟩ 32 256 0 true 0 false ⟨.active, false, 0, 0, none, 0⟩
  { g.setEnt 0 { g.ent 0 with pos := ⟨0, 1⟩ } with regs := { g.regs with v := v, s := sc } }

/-- The machine with that group. -/
def at_ (g : Group) : State :=
  let s := State.reset.withFetchWord 64 0x3AF0_0000_0000_0000
  { (s.l2Fill 0).setGroup 0 0 g with cur := ⟨0, 0, 0, none, 1, false⟩ }

abbrev g0 : Group := grp [] []
abbrev s0 : State := at_ g0

/-- A word that passes its checks is ready in a group without register errors or late timeouts. -/
theorem ready_at (i : Instr) (v sc : List (Nat × Word32)) (h : checkWord i true 256 1 1 = none) : Ready i (at_ (grp v sc)) (grp v sc) :=
  ⟨by rfl, h, by
    have hb (ls : List Nat) : (grp v sc).badRead i ls = none := rfl
    cases hr : ((grp v sc).readers ((grp v sc).ent (at_ (grp v sc)).cur.entry) i) with
    | none => rfl
    | some ls => exact hb ls, Or.inl rfl⟩

abbrev uAt : MAddr := ⟨false, false, 4, 0xFF, false, 0⟩
abbrev mAt : MAddr := ⟨true, true, 4, 0xFF, false, 0⟩

/-! Every instruction word, with operands that it lists. -/

def wordsA : List Instr :=
  [.uadd q7 .s32 true 4 5 6, .usub q7 .n64 false 4 6 8, .umul q7 .b32 false 4 5 6, .umulh q7 .s32 4 5 6, .umad q7 .s64 true 4 6 8 10,
   .uand q7 .b32 4 5 6, .uor q7 .b64 4 6 8, .uxor q7 .b32 4 5 6, .ushl q7 .b32 4 5 6, .ushr q7 .b64 4 6 8, .usar q7 .b32 4 5 6,
   .umin q7 .s32 4 5 6, .umax q7 .n32 4 5 6, .ubfe q7 .s32 4 5 6 7, .ubfi q7 .b32 4 5 6 7, .upopc q7 .b64 4 6, .uclz q7 .b32 4 5,
   .ucmp q7 .s32 .lt 3 4 5, .usel q7 .b32 4 5 6 3, .umov q7 .b64 4 6, .uli q7 4 7, .ulih q7 4 7, .usrd q7 4 3, .uswr q7 4 0xC, .ufmt q7 4,
   .ulease q7 0x80000010, .nop p15, .bra p15 1, .brq p15 true 3 1, .bdiv p15 2 1, .regang p15 1]

def wordsB : List Instr :=
  [.loop p15 true 3 1, .call p15 4 1, .calli p15 4 (.sca 6), .ret p15 (.vec 6), .jmpi p15 (.sca 6), .exit p15, .yield p15,
   .add p15 .s32 true 1 (.vec 2) (.sca 3), .sub p15 .n64 false 4 (.vec 2) (.vec 6), .mul p15 .b32 false 1 (.vec 2) (.vec 3),
   .mulh p15 .s32 1 (.vec 2) (.vec 3), .mad p15 .s64 true 4 (.vec 2) (.sca 6) (.vec 8), .addc p15 1 (.vec 2) (.vec 3) 4,
   .subb p15 1 (.vec 2) (.vec 3) 15, .abs p15 .s32 true 1 (.vec 2), .min p15 .s32 1 (.vec 2) (.vec 3), .max p15 .n32 1 (.vec 2) (.vec 3),
   .and p15 .b64 4 (.vec 2) (.vec 6), .or p15 .b32 1 (.vec 2) (.vec 3), .xor p15 .b32 1 (.vec 2) (.vec 3),
   .lop3 p15 0x96 1 (.vec 2) (.vec 3) (.vec 4), .shl p15 .b32 1 (.vec 2) (.vec 3), .shr p15 .b64 4 (.vec 2) (.vec 7),
   .sar p15 .b32 1 (.vec 2) (.vec 3), .rot p15 .b32 1 (.vec 2) (.sca 3), .bfe p15 .s32 1 (.vec 2) (.vec 3) (.vec 4),
   .bfi p15 .b64 4 (.vec 2) (.vec 7) (.vec 8), .popc p15 .b64 1 (.vec 2), .clz p15 .b32 1 (.vec 2), .brev p15 .b32 1 (.vec 2),
   .cmp p15 .s32 .ge 2 (.vec 1) (.sca 6)]

def wordsC : List Instr :=
  [.sel p15 .b32 1 (.vec 2) (.vec 3) true 2, .mov p15 .b64 4 (.sca 2), .li p15 1 7, .prmt p15 1 (.vec 2) (.vec 3) (.vec 4),
   .sext p15 .s64 4 (.vec 2) (.vec 7), .dp4 p15 .s32 .n8 true 1 (.vec 2) (.vec 3) (.vec 4), .sad p15 .n32 1 (.vec 2) (.vec 3) (.vec 4),
   .fadd p15 .f64 .dyn false 4 (.vec 2) (.vec 6), .fsub p15 .f32 .rz true 1 (.vec 2) (.vec 3), .fmul p15 .bf16 .rn false 1 (.vec 2) (.vec 3),
   .ffma p15 .f16 .rp false 1 (.vec 2) (.vec 3) (.vec 4), .fmin p15 .f32 1 (.vec 2) (.vec 3), .fmax p15 .f16 1 (.vec 2) (.vec 3),
   .fcmp p15 .f32 .nan 2 (.vec 2) (.vec 3), .fclass p15 .f64 1 (.vec 2), .fdiv p15 .f32 .rm false 1 (.vec 2) (.vec 3),
   .fsqrt p15 .f64 .dyn false 4 (.vec 2), .frcp p15 1 (.vec 2), .frsq p15 1 (.vec 2), .fex2 p15 1 (.vec 2), .flg2 p15 1 (.vec 2),
   .frred p15 1 (.vec 2) 3, .fsin p15 1 (.vec 2), .fcos p15 1 (.sca 2), .fint p15 .f32 .rn 1 (.vec 2), .fcvt p15 .f8a .f32 .dyn true 1 (.vec 2),
   .f2i p15 .s32 .f32 .rz 1 (.vec 2), .i2f p15 .f32 .n64 .rn false 1 (.vec 2), .fpack p15 .bf16 .dyn false 1 (.vec 2) (.vec 3),
   .funpack p15 .f16 4 (.vec 2), .fldexp p15 .f32 .dyn false 1 (.vec 2) (.vec 3)]

def wordsD : List Instr :=
  [.ffrexp p15 .f32 1 (.vec 2) 3, .fdot2 p15 .f32 .bf16 .dyn false 1 (.vec 2) (.vec 3) (.vec 4),
   .fdot4 p15 .f32 .f8b .dyn false 1 (.vec 2) (.vec 3) (.vec 4), .shfl p15 .b32 .up 1 (.vec 2) (.vec 3), .pswap p15 .b64 4 (.vec 2) (.vec 6),
   .vote p15 .agree 2 3, .ballot p15 1 2, .lscan p15 .add .s32 true 1 (.vec 2), .lred p15 .and .b64 4 (.vec 2), .matchl p15 .b32 1 (.vec 2),
   .regroup p15 1 2, .ld p15 .b32 .cached .dflt 1 mAt, .st p15 .b128 .cached .keep 8 mAt, .ldu q7 .s16 .cached .dflt 8 uAt, .stu q7 .b64 .ms .dflt 8 uAt,
   .lds p15 .b32 1 mAt, .sts p15 .n8 1 mAt, .prf p15 .stream mAt, .atom p15 ⟨.add, .s32, .pkg, .ar, false⟩ .cached 1 (.sca 4) (.vec 3) (.vec 0),
   .atomu q7 ⟨.cas, .b64, .cell, .relaxed, false⟩ .cached 8 4 10 12, .atoms p15 ⟨.max, .n32, .team, .rel, true⟩ 0 (.sca 10) (.vec 3) (.vec 0),
   .fence q7 .pkg .sc, .wait q7 .mx 4, .commit q7 .cp, .cln p15 mAt, .inv p15 mAt, .clninv p15 mAt, .rdenter q7, .rdexit q7, .srsv q7 true 4 5, .srel q7]

def wordsE : List Instr :=
  [.bload q7 4 6, .cbt q7 8 4, .mma q7 true 8 4 6 none, .szero q7 8 (some 9), .srd q7 8 4 6 none, .swr q7 8 4 6 none, .sst q7 8 4 6 none,
   .cpy q7 8 4 6 none, .gath q7 .n16 8 4 12 none, .scat q7 .b32 8 4 12 none, .fill q7 true 8 4 6 none, .tokset q7 4, .pim q7 .scale 8 4 12 none,
   .rowcp q7 8 4 6 none, .rowz q7 8 6 none, .cgrp q7 .cell 8 4, .cstart q7 .f32 4 8, .cwait q7 4, .red q7 .add .f32 .dom 4 8, .emit p15 4 8,
   .trap p15 7, .resume q7 8 9 10, .csrr q7 8 4, .csrw q7 4 8, .bar q7 .clu, .gwait q7 .pkg, .dfree q7 4 8, .brk p15 7, .dbg q7 8 9 10 11,
   .halt q7 8 9, .sleep q7 0x100001]

/-- The number of an instruction's opcode (05 R74). -/
def opOf (i : Instr) : Nat := ((encode i).map fun w : Word64 => (w >>> 56).toNat).getD 0

/-- Each word of a list passes its checks. -/
def passes (is : List Instr) : Bool := is.all fun i => decide (checkWord i true 256 1 1 = none)

theorem test_checksA : passes wordsA = true := by decide
theorem test_checksB : passes wordsB = true := by decide
theorem test_checksC : passes wordsC = true := by decide
theorem test_checksD : passes wordsD = true := by decide
theorem test_checksE : passes wordsE = true := by decide

theorem passes_ready (is : List Instr) (h : passes is = true) (i : Instr) (hi : i ∈ is) : Ready i s0 g0 :=
  ready_at i [] [] (of_decide_eq_true (List.all_eq_true.mp h i hi))

/-- The opcodes of the words are 155, each once: the lists name every instruction word. -/
theorem test_words_complete : let ops := (wordsA.map opOf) ++ (wordsB.map opOf) ++ (wordsC.map opOf) ++ (wordsD.map opOf) ++ (wordsE.map opOf)
    ops.length = 155 ∧ ops.eraseDups.length = 155 := by decide +kernel

/-- Each of the 155 instruction words is ready in the machine: the hypothesis of every statement about what a word does to its own group is met. -/
theorem test_words_ready : ∀ i ∈ wordsA ++ wordsB ++ wordsC ++ wordsD ++ wordsE, Ready i s0 g0 := by
  intro i h
  simp only [List.mem_append] at h
  obtain (((h | h) | h) | h) | h := h
  · exact passes_ready _ test_checksA i h
  · exact passes_ready _ test_checksB i h
  · exact passes_ready _ test_checksC i h
  · exact passes_ready _ test_checksD i h
  · exact passes_ready _ test_checksE i h

/-! ### Words of a group's own: hypotheses beside `Ready` -/

/-- A machine with a group is ready for a word of one word length whose checks pass. -/
theorem ready_of (i : Instr) (g : Group) (hc : checkWord i g.mon g.regs.nvr (g.ent 0).pos.slot 1 = none)
    (hs : (g.readers (g.ent 0) i).bind (g.badRead i) = none) (hl : g.lateTimeout = none) : Ready i (at_ g) g := ⟨rfl, hc, hs, .inl hl⟩

theorem test_running : Running s0 g0 := ⟨by decide, by decide, ⟨1, by decide⟩⟩

/-- Branch targets at the two ends of the virtual space (03 R49, R50): the issuing word is at byte 8. -/
theorem test_branch_targets : InSpace (s0.wordsOn g0 (-1)) ∧ ¬ InSpace (s0.wordsOn g0 (-2)) ∧ InSpace (s0.wordsOn g0 (2 ^ 31 - 1)) := by decide

/-- Scalar pairs with a misaligned target, one beyond the space and the last word of the space (07 R129). -/
abbrev gJump : Group := grp [] [(6, 4), (9, 0x2000000), (10, 0xFFFFFFF8), (11, 0x1FFFFFF)]
theorem test_jump_targets : gJump.src (.sca 6) 2 0 % 8 ≠ 0 ∧ gJump.src (.sca 8) 2 0 = 2 ^ 57 ∧ gJump.src (.sca 10) 2 0 = 2 ^ 57 - 8 ∧
    (at_ gJump).lanes gJump p15 = List.range 32 ∧ Running (at_ gJump) gJump :=
  ⟨by decide, by decide, by decide, by decide, ⟨by decide, by decide, ⟨1, by decide⟩⟩⟩

/-- Entry 0 and its join entry 1, both arrived (07 R119). -/
abbrev gJoin : Group := { g0 with ents := [(0, { g0.ent 0 with st := .arrived, mask := 1, depth := 1, reconv := 64 }),
  (1, { Entry.freed with st := .arrived, mask := 2, keeper := 0, level := 1, join := true, reconv := 64 })] }
theorem test_join : (gJoin.ent 0).st = .arrived ∧ (gJoin.ent 1).st = .arrived ∧ (gJoin.ent 1).join = true ∧ (gJoin.ent 1).keeper = 0 ∧
    (gJoin.ent 1).level = (gJoin.ent 0).depth ∧ (gJoin.ent 1).depth = 0 := by decide

/-- `exit` of some lanes and of the last. -/
abbrev gSome : Group := { g0 with regs := { g0.regs with p := [(1, true)] } }
theorem test_exit_some : (g0.ent 0).mask &&& ~~~(maskOf ((at_ gSome).lanes gSome ⟨1, false⟩)) ≠ 0 ∧ gSome.joinable = none ∧
    Ready (.exit ⟨1, false⟩) (at_ gSome) gSome ∧ Running (at_ gSome) gSome :=
  ⟨by decide, by decide, ready_of _ _ (by decide) (by decide) rfl, ⟨by decide, by decide, ⟨1, by decide⟩⟩⟩
theorem test_exit_all : (g0.ent 0).mask &&& ~~~(maskOf (s0.lanes g0 p15)) = 0 ∧ g0.inflight = [] := by decide
theorem test_exit_others : ∀ j, j ≠ s0.cur.entry → (g0.ent j).mask = 0 := by
  intro j h
  cases j with
  | zero => exact absurd rfl h
  | succ n => rfl

/-- Guards that are true and false. -/
theorem test_guards : g0.guardUni q7 = true ∧ g0.guardUni ⟨3, false⟩ = false ∧ s0.lanes g0 ⟨3, false⟩ = [] ∧ s0.lanes g0 p15 ≠ [] := by decide

/-- Values that FMT takes and refuses (02 R27). -/
theorem test_fmt : FmtValid 0x133 ∧ ¬ FmtValid 0x136 ∧ ¬ FmtValid 0x8133 ∧ (s0.frag g0).st ≠ .free := by
  refine ⟨?_, ?_, ?_, by decide⟩ <;> simp only [FmtValid] <;> decide

/-- A lane selector and a uniform one of `usrd`; a leader with a value read for its shadow (14 R270). -/
theorem test_usrd : Ready (.usrd q7 4 0) s0 g0 ∧ Ready (.usrd q7 4 0x0A) s0 g0 := ⟨ready_of _ _ (by decide) (by decide) rfl,
  ready_of _ _ (by decide) (by decide) rfl⟩
abbrev gShadow : Group := { g0 with leader := some 1 }
abbrev sShadow : State := (at_ gShadow).setGroup 0 1 { g0 with shadow := some 0, readQueue := [5] }
theorem test_shadow : Ready (.usrd q7 4 0x0A) sShadow gShadow ∧ (sShadow.group? 0 1).map (·.readQueue) = some [5] ∧ gShadow.leader = some 1 :=
  ⟨⟨by rfl, by decide, by decide, .inl rfl⟩, by decide, rfl⟩

/-- A divided group, for the words that refuse one (cause 0x01). -/
abbrev gSplit : Group := { g0 with ents := [(0, { g0.ent 0 with mask := 1 }), (1, { Entry.freed with st := .running, mask := 2 })] }
theorem test_divided : gSplit.single = false ∧ Ready (.bar q7 .clu) (at_ gSplit) gSplit ∧ Ready (.regroup p15 1 2) (at_ gSplit) gSplit :=
  ⟨by decide, ready_of _ _ (by decide) (by decide) rfl, ready_of _ _ (by decide) (by decide) rfl⟩
theorem test_undivided : Undivided s0 g0 ∧ g0.single = true := ⟨⟨by decide, rfl, by decide⟩, by decide⟩

/-! ### Groups that meet (07 R138) -/

/-- The half of group `n` of a team that waits for group `m`, with the lanes of `mask`. -/
abbrev gMeet (n m nvr : Nat) (mask : BitVec 32) : Group := { g0 with
  ids := { g0.ids with grpid := n, uid := n }, ents := [(0, { g0.ent 0 with st := .regroup })], regs := { g0.regs with nvr := nvr }
  meet := some (m, mask, 5, 64) }
abbrev sMeet (a b : Group) : State := ((State.reset.withFetchWord 64 0).setGroup 0 0 a).setGroup 0 1 b

theorem meeting (n m nvr : Nat) (mask : BitVec 32) (slot : Nat) (s : State) (hg : s.group? 0 slot = some (gMeet n m nvr mask)) (hc : s.cmds = [])
    (hx : (s.ctx 0).save = none ∧ (s.ctx 0).removing = none) : Meeting s 0 slot (gMeet n m nvr mask) m (mask, 5, 64) :=
  ⟨hg, rfl, rfl, ⟨rfl, rfl, rfl⟩, ⟨rfl, rfl, rfl⟩, ⟨rfl, rfl, rfl, rfl, (fun (x : Nat × Nat) (hx : x ∈ ([] : List (Nat × Nat))) => by cases hx), by
    intro c h
    have : s.cmdsOf 0 slot = [] := by rw [State.cmdsOf, hc]; rfl
    rw [this] at h
    exact absurd h (by simp)⟩, hx⟩

/-- Two halves of 16 lanes fuse; 33 lanes do not; 256 registers of 32 lanes beside four such groups do not fit a quarter. -/
abbrev sFuse : State := sMeet (gMeet 0 1 32 0xFFFF) (gMeet 1 0 32 0xFFFF)
theorem test_meet : Meeting sFuse 0 0 (gMeet 0 1 32 0xFFFF) 1 (0xFFFF, 5, 64) ∧ Meeting sFuse 0 1 (gMeet 1 0 32 0xFFFF) 0 (0xFFFF, 5, 64) ∧
    TeamMates (gMeet 0 1 32 0xFFFF) (gMeet 1 0 32 0xFFFF) ∧ (maskLanes 0xFFFF).length + (maskLanes 0xFFFF).length = 32 :=
  ⟨meeting _ _ _ _ _ _ rfl rfl ⟨rfl, rfl⟩, meeting _ _ _ _ _ _ rfl rfl ⟨rfl, rfl⟩, ⟨rfl, rfl, rfl, rfl⟩, by decide⟩
theorem test_meet_holds : QuarterHolds sFuse 0 0 [0, 1] 32 32 := by simp only [QuarterHolds]; decide
abbrev sMany : State := sMeet (gMeet 0 1 32 0x1FFFF) (gMeet 1 0 32 0xFFFF)
theorem test_meet_many : Meeting sMany 0 0 (gMeet 0 1 32 0x1FFFF) 1 (0x1FFFF, 5, 64) ∧ Meeting sMany 0 1 (gMeet 1 0 32 0xFFFF) 0 (0xFFFF, 5, 64) ∧
    32 < (maskLanes 0x1FFFF).length + (maskLanes 0xFFFF).length :=
  ⟨meeting _ _ _ _ _ _ rfl rfl ⟨rfl, rfl⟩, meeting _ _ _ _ _ _ rfl rfl ⟨rfl, rfl⟩, by decide⟩
abbrev gBig : Group := { g0 with regs := { g0.regs with nvr := 256 } }
abbrev sFull : State := ((((sMeet (gMeet 0 1 256 0xFFFF) (gMeet 1 0 256 0xFFFF)).setGroup 0 2 gBig).setGroup 0 3 gBig).setGroup 0 4 gBig).setGroup 0 5 gBig
theorem test_meet_full : Meeting sFull 0 0 (gMeet 0 1 256 0xFFFF) 1 (0xFFFF, 5, 64) ∧ ¬ QuarterHolds sFull 0 0 [0, 1] 32 256 :=
  ⟨meeting _ _ _ _ _ _ rfl rfl ⟨rfl, rfl⟩, by simp only [QuarterHolds]; decide⟩

/-! ### Memory words (12) -/

theorem mem_of_find {α : Type} (t : Tbl α) (k : Nat) (x : α) (h : Tbl.find? t k = some x) : (k, x) ∈ t := by
  induction t with
  | nil => cases h
  | cons p t ih =>
    obtain ⟨a, v⟩ := p
    simp only [Tbl.find?] at h
    split at h
    · next e => cases h; exact List.mem_cons.mpr (.inl (by rw [e]))
    · exact List.mem_cons_of_mem _ (ih h)

/-- Stacks on which nothing is marked can be read. -/
theorem good_stacks (s : State) (hp : s.mem.poison = []) (hs : s.mem.syms = []) (hk : s.mem.keyIds = []) (hb : s.hbm = []) : GoodStacks s :=
  ⟨fun _ => by rw [Mem.poisonOf, hp]; rfl, fun _ => by rw [Mem.symsOf, hs]; rfl,
   fun _ => by simp [State.tagOk, Mem.keyId, hk, Tbl.getD, Tbl.find?], fun _ => by rw [State.stack, hb]; rfl⟩

/-- The check of `OwnL2` over the sectors that the L2 lists. -/
def l2Fits (s : State) : Bool := s.memsys.l2.all fun x =>
  (x.1 * 32 / 2 ^ 51 == s.fabric.self && x.2.holder == .home && x.2.poison == 0) &&
    (x.2.dirty || (List.range 32).all fun i => BitVec.ofNat 8 (x.2.data / 256 ^ i) == s.mem.byte (lpaOf (x.1 * 32) + i))

theorem own_l2 (s : State) (h : l2Fits s = true) : OwnL2 s := by
  rw [l2Fits, List.all_eq_true] at h
  refine ⟨fun x hx => ?_, fun k y hy hd i hi => ?_⟩
  · have := h x hx
    simp only [Bool.and_eq_true, beq_iff_eq] at this
    exact ⟨this.1.1.1, this.1.1.2, this.1.2⟩
  · have := h _ (mem_of_find _ _ _ hy)
    simp only [Bool.and_eq_true, Bool.or_eq_true, List.all_eq_true, List.mem_range, beq_iff_eq, hd, Bool.false_eq_true, false_or] at this
    exact this.2 i hi

/-- The two together, for the small machines below. -/
theorem sound (s : State) (hm : (s.mem.poison = [] ∧ s.mem.syms = [] ∧ s.mem.keyIds = [] ∧ s.hbm = []) ∧ l2Fits s = true) : GoodStacks s ∧ OwnL2 s :=
  ⟨good_stacks s hm.1.1 hm.1.2.1 hm.1.2.2.1 hm.1.2.2.2, own_l2 s hm.2⟩

theorem test_undisturbed : Undisturbed s0 g0 :=
  ⟨by decide, sound _ (by decide +kernel), by decide, by decide, by decide, by decide⟩

/-- The check of `UsesOnly`. -/
def same (s t : State) : Bool := decide (t = { s with memsys := { s.memsys with lines := t.memsys.lines, uses := t.memsys.uses } })
theorem of_same (s t : State) (h : same s t = true) : UsesOnly s t := by
  rw [same, decide_eq_true_eq] at h
  exact h

/-- A read that answers a value and leaves nothing but the order of use of the L2's lines. -/
theorem reads_value {α : Type} [DecidableEq α] (t : Try α) (s : State) (v : α) (h : (match t with
    | .ok s1 b => same s s1 && decide (b = v)
    | _ => false) = true) : ∃ s1, t = .ok s1 v ∧ UsesOnly s s1 := by
  cases t with
  | ok s1 b =>
    simp only [same, Bool.and_eq_true, decide_eq_true_eq] at h
    exact ⟨s1, by rw [h.2], h.1⟩
  | wait _ => cases h
  | bad _ _ _ _ => cases h

/-- Two such reads, one after the other, of values with properties. -/
theorem reads_twice {α β : Type} (t : Try α) (u : State → Try β) (s : State) (p : α → Bool) (r : β → Bool) (h : (match t with
    | .ok s1 a => (same s s1 && p a) && (match u s1 with
      | .ok s2 b => same s1 s2 && r b
      | _ => false)
    | _ => false) = true) : ∃ s1 a, t = .ok s1 a ∧ UsesOnly s s1 ∧ p a = true ∧ ∃ s2 b, u s1 = .ok s2 b ∧ UsesOnly s1 s2 ∧ r b = true := by
  cases t with
  | ok s1 a =>
    simp only [Bool.and_eq_true] at h
    refine ⟨s1, a, rfl, of_same _ _ h.1.1, h.1.2, ?_⟩
    cases hu : u s1 with
    | ok s2 b =>
      simp only [hu, Bool.and_eq_true] at h
      exact ⟨s2, b, rfl, of_same _ _ h.2.1, h.2.2⟩
    | wait _ => simp [hu] at h
    | bad _ _ _ _ => simp [hu] at h
  | wait _ => cases h
  | bad _ _ _ _ => cases h

/-- One such read. -/
theorem reads_with {α : Type} (t : Try α) (s : State) (p : α → Bool) (h : (match t with
    | .ok s1 a => same s s1 && p a
    | _ => false) = true) : ∃ s1 a, t = .ok s1 a ∧ UsesOnly s s1 ∧ p a = true := by
  cases t with
  | ok s1 a =>
    simp only [Bool.and_eq_true] at h
    exact ⟨s1, a, rfl, of_same _ _ h.1, h.2⟩
  | wait _ => cases h
  | bad _ _ _ _ => cases h

/-- A write that answers with a state of a property. -/
theorem writes_with (t : Try Unit) (p : State → Bool) (h : (match t with
    | .ok s1 _ => p s1
    | _ => false) = true) : ∃ s1, t = .ok s1 () ∧ p s1 = true := by
  cases t with
  | ok s1 _ => exact ⟨s1, rfl, h⟩
  | wait _ => cases h
  | bad _ _ _ _ => cases h

/-- The page of a machine with the leaf `l` instead. -/
abbrev sLeaf (l : Word64) : State := s0.setCore 0 { s0.coreSt 0 with tlb := [⟨0, 0, 2 ^ 34, l⟩] }

/-- A mapped address of the cached aperture and one of the memory-side one; the last address of the page. -/
theorem test_maps : Maps s0 g0 .cached true true 0 0 ∧ Maps (sLeaf 0x67F) g0 .ms true true 0 0 ∧
    Maps s0 g0 .cached true true (2 ^ 34 - 1) (2 ^ 34 - 1) ∧ Undisturbed (sLeaf 0x67F) g0 :=
  ⟨⟨by decide, by decide, _, rfl, by decide, by decide, by decide, by decide, by decide, by decide, by decide, by decide, by decide⟩,
   ⟨by decide, by decide, _, rfl, by decide, by decide, by decide, by decide, by decide, by decide, by decide, by decide, by decide⟩,
   ⟨by decide, by decide, _, rfl, by decide, by decide, by decide, by decide, by decide, by decide, by decide, by decide, by decide⟩,
   ⟨by decide, sound _ (by decide +kernel), by decide, by decide, by decide, by decide⟩⟩

/-- The addresses of `ld`, `ldu` and `atom` in that machine. -/
theorem test_addresses : (∀ l ∈ s0.lanes g0 p15, g0.laneAddr mAt 2 4 l = 0) ∧ g0.uniAddr uAt 8 = 0 ∧
    (∀ l ∈ s0.lanes g0 p15, g0.src (.sca 4) 2 l = 0) ∧ g0.rdSs 4 2 = 0 := by decide

/-- 12 R210 checks 1 and 2 at the ends of both spaces: a negative address, the last and the first beyond, the alignment. -/
theorem test_address_causes : addrCause (2 ^ 57) 4 (-4) = some 0x11 ∧ addrCause (2 ^ 57) 4 (2 ^ 57) = some 0x11 ∧ addrCause (2 ^ 57) 4 (2 ^ 57 - 4) = none ∧
    addrCause (2 ^ 57) 4 (2 ^ 57 - 2) = some 0x13 ∧ addrCause (2 ^ 22) 8 (2 ^ 22) = some 0x11 ∧ addrCause (2 ^ 22) 8 0 = none := by decide

/-- Groups whose base is misaligned, beyond the space, and so in one lane alone. -/
abbrev gOdd : Group := grp [(5 * 256 + 7, 1)] [(4, 2), (5, 0)]
theorem test_address_checks : addrCause (2 ^ 57) 4 (gOdd.laneAddr mAt 2 4 0) = some 0x13 ∧ addrCause (2 ^ 57) 8 (gOdd.uniAddr uAt 8) = some 0x13 ∧
    addrCause (2 ^ 57) 4 (gOdd.src (.sca 4) 2 0) = some 0x13 ∧ addrCause (2 ^ 22) 4 (gOdd.laneAddr ⟨false, false, 7, 0xFF, false, 0⟩ 1 4 5) = some 0x13 ∧
    (∀ m ∈ (at_ gOdd).lanes gOdd p15, m < 5 → addrCause (2 ^ 22) 4 (gOdd.laneAddr ⟨false, false, 7, 0xFF, false, 0⟩ 1 4 m) = none) ∧
    Ready (.ld p15 .b32 .cached .dflt 1 mAt) (at_ gOdd) gOdd ∧ Ready (.ldu q7 .b64 .cached .dflt 8 uAt) (at_ gOdd) gOdd :=
  ⟨by decide, by decide, by decide, by decide, by decide, ready_of _ _ (by decide) (by decide) rfl, ready_of _ _ (by decide) (by decide) rfl⟩
abbrev gFar : Group := grp [] [(4, 0), (5, 0x2000000)]
theorem test_address_far : addrCause (2 ^ 57) 1 (gFar.laneAddr mAt 2 1 0) = some 0x11 ∧ Ready (.cln p15 mAt) (at_ gFar) gFar :=
  ⟨by decide, ready_of _ _ (by decide) (by decide) rfl⟩

/-- A team with one resident sett (12 R214). -/
abbrev sPad : State := s0.setTeam 0 0 ⟨0, 0, 0, 0, 1, 0, [], [(0, { Sett.absent with st := .res })], 0, [], 0, 1, 0⟩
theorem test_resident : Resident sPad g0 4 0 ∧ Resident sPad g0 4 2044 ∧ Undisturbed sPad g0 ∧ Ready (.sts p15 .b32 1 mAt) sPad g0 :=
  ⟨⟨by decide, by decide, by decide, _, _, rfl, by decide, by decide, rfl, .inl rfl, rfl⟩,
   ⟨by decide, by decide, by decide, _, _, rfl, by decide, by decide, rfl, .inl rfl, rfl⟩,
   ⟨by decide, sound _ (by decide +kernel), by decide, by decide, by decide, by decide⟩, ⟨by rfl, by decide, by decide, .inl rfl⟩⟩

/-! ### Operations in flight, waits, barriers, sections (02, 12, 16, 22) -/

/-- An operation with nothing left to perform, and one with a fault. -/
abbrev opDone (p : Path) : PendOp := ⟨p, none, [], [], ⟨0, 1⟩, ⟨0, 2⟩, 0, 0, 1, true, false, false, none, true, none, none, false⟩
abbrev gBusy : Group := { g0 with inflight := [opDone .gl, { opDone .gs with fault := some (.word 0x34) }] }
theorem test_inflight : (∀ x ∈ gBusy.inflight, x.todo = [] ∨ x.fault ≠ none) ∧ gBusy.inflight = [] ++ opDone .gl :: [{ opDone .gs with fault := some (.word 0x34) }] ∧
    (at_ gBusy).group? 0 0 = some gBusy ∧ gBusy.shadow = none ∧ gBusy.ownRecord = false ∧ (opDone .gl).awaits = none ∧
    Ready (.fence q7 .pkg .sc) (at_ gBusy) gBusy ∧ Ready (.bar q7 .team) (at_ gBusy) gBusy ∧ gBusy.single = true :=
  ⟨by decide, rfl, rfl, rfl, by decide, rfl, ready_of _ _ (by decide) (by decide) rfl, ready_of _ _ (by decide) (by decide) rfl, by decide⟩

/-- A batch that is not complete, a threshold below and at its counter, a complete one. -/
abbrev gBatch : Group := { grp [] [(4, 1)] with batches := [⟨.cp, [9], false⟩, ⟨.cp, [], true⟩] }
theorem test_batches : gBatch.ctr .cp = 2 ∧ (gBatch.rdS 4).toNat < gBatch.ctr .cp ∧ (gBatch.rdS 9).toNat < gBatch.ctr .cp ∧
    gBatch.ctr .mx ≤ (gBatch.rdS 4).toNat ∧ (at_ gBatch).group? 0 0 = some gBatch ∧ Ready (.wait q7 .cp 4) (at_ gBatch) gBatch :=
  ⟨by decide, by decide, by decide, by decide, rfl, ready_of _ _ (by decide) (by decide) rfl⟩

/-- A group blocked at a barrier whose instance has completed. -/
theorem test_barrier : (at_ { g0 with block := .bar .team 1 }).group? 0 0 = some { g0 with block := .bar .team 1 } ∧
    Group.runs { g0 with block := .bar .team 1 } = true ∧ sPad.barGen 0 g0.ids .team = 0 := ⟨rfl, by decide, by decide⟩

/-- Read depths at their ends (22 R386, R387). -/
theorem test_depths : g0.rdepth = 0 ∧ Ready (.rdenter q7) (at_ { g0 with rdepth := 15 }) { g0 with rdepth := 15 } ∧
    Ready (.rdexit q7) (at_ { g0 with rdepth := 1 }) { g0 with rdepth := 1 } ∧
    Undivided (at_ { g0 with rdepth := 14 }) { g0 with rdepth := 14 } :=
  ⟨rfl, ready_of _ _ (by decide) (by decide) rfl, ready_of _ _ (by decide) (by decide) rfl, ⟨by decide, rfl, by decide⟩⟩

/-- Grace periods: requested, running without a reader, and a wider one that waits for a package. -/
theorem test_grace : let a := s0.setGrace 0 { Grace.reset with request := true }
    let b := s0.setGrace 0 { Grace.reset with busy := true }
    let c := s0.setGrace 0 { Grace.reset with gcp := 1, cell := some ([3], 1) }
    (a.graceOf 0).request = true ∧ (a.graceOf 0).busy = false ∧ (b.graceOf 0).busy = true ∧ (b.graceOf 0).cell = none ∧
    (∀ q ∈ b.members 0, (b.ctx q).rc0 = 0) ∧ (c.graceOf 0).cell = some ([3], 1) ∧ (c.graceOf 0).cellReq = false ∧ (s0.graceOf 0).dom = none := by decide

/-- `dfree` in a context whose reclaim node has a ring and whose deferred-free ring stands at 0 (22 R392). -/
abbrev sFree : State := s0.setCtx 0 { s0.ctx 0 with regs := { CtxRegs.reset with rvalid := true, rnode := 0 } }
theorem test_dfree_room : (sFree.ctx 0).regs.rvalid = true ∧ (s0.ctx 0).regs.rvalid = false ∧
    ((sFree.ctx 0).regs.dfTail + 2 ^ 17 - (sFree.ctx 0).regs.dfHead) % 2 ^ 17 ≠ 2 ^ (sFree.ctx 0).regs.dfLogn ∧
    (sFree.ctx 0).regs.dfRing + 16 * ((sFree.ctx 0).regs.dfTail % 2 ^ (sFree.ctx 0).regs.dfLogn) = 0 ∧
    Maps sFree { g0 with mon := true } .cached false true 0 0 ∧ Undisturbed sFree g0 ∧ (sFree.ctx 0).regs.dfHead = (sFree.ctx 0).regs.dfTail :=
  ⟨by decide, by decide, by decide, by decide,
   ⟨by decide, by decide, _, rfl, by decide, by decide, by decide, by decide, by decide, by decide, by decide, by decide, by decide⟩,
   ⟨by decide, sound _ (by decide +kernel), by decide, by decide, by decide, by decide⟩, by decide⟩

/-! ### Graph nodes and deferred frees (21, 22) -/


/-- A machine whose granule 0 holds, beside the clause, a kernel of `lanes` lanes at 32 and a node at 64 with its ring at 1024, records of 16 bytes. -/
abbrev mNode (lanes : Nat) : Mem :=
  (((((State.reset.mem.wr 40 8 (lanes + 0x101_0100 + 2 ^ 32 * 16)).wr 64 8 32).wr 72 8 0).wr 80 8 (5 + 1024)).wr 88 8 (2 ^ 20 + 2 ^ 21 * 0 + 16 * 7))
abbrev sNode (lanes : Nat) : State :=
  let s := ({ State.reset with memsys := { State.reset.memsys with mem := mNode lanes } } : State).withFetchWord 64 0
  let s := ((s.l2Fill 0).l2Fill 8).l2Fill 9
  let c := s.ctx 0
  { (s.setCtx 0 { c with desc := { QDesc.none with valid := true, vmax := 16, smax := 8, graph := 64, nnodes := 1, ring := 2048, logn := 4 },
                         regs := { c.regs with rvalid := true } }) with cur := ⟨0, 0, 0, none, 1, false⟩ }
abbrev kNode (lanes : Nat) : Kernel := ⟨0, lanes, 1, 1, 1, 16, 0, false, 0⟩
abbrev node0 (lanes : Nat) : Node := ⟨kNode lanes, 0, 5, 1024, 16, 7, false, List.replicate 8 0⟩

theorem test_node : (∃ s1, (sNode 32).nodeOf 0 0 = .ok s1 (some (node0 32)) ∧ UsesOnly (sNode 32) s1) ∧
    ∃ s1, (sNode 1).nodeOf 0 0 = .ok s1 (some (node0 1)) ∧ UsesOnly (sNode 1) s1 :=
  ⟨reads_value _ _ _ (by decide +kernel), reads_value _ _ _ (by decide +kernel)⟩
theorem test_emit : Undisturbed (sNode 32) g0 ∧ Ready (.emit p15 4 8) (sNode 32) g0 ∧ (8 : Reg).toNat + (node0 32).rsize / 4 ≤ g0.regs.nvr ∧
    ((sNode 32).lanes g0 p15).length ≤ 2 ^ (node0 32).logn ∧ ((sNode 32).lanes g0 p15).length = (node0 32).kernel.lanes ∧ g0.ctr .gs < 255 ∧
    (s0.ctx 0).desc.graph = 0 ∧ g0.regs.nvr < (253 : Reg).toNat + (node0 32).rsize / 4 :=
  ⟨⟨by decide, sound _ (by decide +kernel), by decide, by decide, by decide, by decide⟩, ⟨by rfl, by decide, by decide, .inl rfl⟩, by decide, by decide +kernel, by decide +kernel,
   by decide +kernel, by decide, by decide⟩
theorem test_emit_maps (v : Nat) (h : v < 2 ^ 34) : Maps (sNode 32) g0 .cached false true (v : Int) v := by
  have hf : ((sNode 32).coreSt 0).tlb.find? (fun t => t.ctx == ((sNode 32).ctx 0).hw.getD 64 && t.base ≤ v && v < t.base + t.size) =
      some ⟨0, 0, 2 ^ 34, BitVec.ofNat 64 0x63F⟩ := by
    have ht : ((sNode 32).coreSt 0).tlb = [⟨0, 0, 2 ^ 34, BitVec.ofNat 64 0x63F⟩] := rfl
    have hh : ((sNode 32).ctx 0).hw.getD 64 = 0 := rfl
    simpa [ht, hh] using h
  have hs : (sNode 32).fabric.self = 0 := rfl
  refine ⟨by omega, by norm_num at h ⊢; omega, _, hf, by decide, ?_, ?_, by decide, ?_, by decide, by decide, by decide, by decide⟩
  · norm_num at h ⊢; omega
  · rw [hs]; norm_num at h ⊢; omega
  · unfold lpaOf dataEnd; norm_num at h ⊢; omega
theorem test_dfree : Ready (.dfree q7 4 8) (sNode 1) g0 ∧ Undisturbed (sNode 1) g0 ∧ ((sNode 1).ctx 0).regs.rvalid = true ∧
    ((sNode 1).ctx 0).regs.dfHead = ((sNode 1).ctx 0).regs.dfTail :=
  ⟨⟨by rfl, by decide, by decide, .inl rfl⟩, ⟨by decide, sound _ (by decide +kernel), by decide, by decide, by decide, by decide⟩, by decide, by decide⟩
/-- A record that waits in the deferred-free ring at 0 for a target already reached, and its post (22 R394). -/
abbrev sPost (stopped : Bool) : State := (sNode 1).setCtx 0 { (sNode 1).ctx 0 with
  regs := { ((sNode 1).ctx 0).regs with dfTail := 1 }, dfSeen := [⟨0, 0, [], [], 0⟩], postStopped := stopped }
theorem test_dfree_post (b : Bool) : ((sPost b).ctx 0).regs.dfHead ≠ ((sPost b).ctx 0).regs.dfTail ∧ ((sPost b).ctx 0).removing = none ∧
    ((sPost b).ctx 0).st ≠ .removed ∧ ((sPost b).ctx 0).postStopped = b ∧ ((sPost b).nodeSt 0 0).slotFree 0 ((sPost b).nodeSt 0 0).seq = true ∧
    (∃ s1 d, (sPost b).vread ((sPost b).schedCore 0) 0 0 2 16 = .ok s1 d ∧ UsesOnly (sPost b) s1 ∧ (d.length == 16 && d.getD 14 0 == 0) = true) ∧
    (∃ s2, (sPost b).nodeOf 0 0 = .ok s2 (some (node0 1)) ∧ UsesOnly (sPost b) s2) ∧
    ∃ s3, (sPost b).vwrite ((sPost b).schedCore 0) 0 1024 17 (List.replicate 16 0) = .ok s3 () ∧ (fun s3 : State => decide (s3.ctxs = (sNode 1 |>.setCtx 0 ((sPost b).ctx 0)).ctxs)) s3 = true := by
  cases b <;> refine ⟨by decide, by decide, by decide, by decide, by decide, reads_with _ _ (fun d : List Byte => d.length == 16 && d.getD 14 0 == 0) (by decide +kernel),
    reads_value _ _ _ (by decide +kernel), writes_with _ _ (by decide +kernel)⟩

/-! ### Engine commands at issue (15, 16, 19) -/

/-- Operands of `cpy`: 64 bytes, one row, from 256 to 0. -/
abbrev gCopy (w0 : Word32) : Group := grp [] [(10, 256), (12, w0), (20, 0xA09)]
abbrev noToks : Toks := (none, none, none)
theorem room (g : Group) (p : Path) (n : Nat) (hc : g.ctr p < 255) (he : (g.ent 0).st = .running) (hn : n ≤ 32) (toks : Toks) :
    Room (at_ g) g p n toks := by
  refine ⟨fun k c h => ?_, hn, fun o t _ h => ?_, .inl hc, fun _ => ?_, fun _ => ⟨rfl, he⟩⟩
  · have h0 : (at_ g).clusterOf g.ids = none := rfl
    rw [h0] at h
    cases h
  · have h0 : (at_ g).team? (at_ g).cur.core g.ids.teamSlot = none := rfl
    rw [h0] at h
    cases h
  · have h0 : (at_ g).cmds = [] := rfl
    simp [h0]
theorem unmet (g : Group) : Unmet (at_ g) g := by
  refine ⟨?_, rfl, rfl⟩
  have h0 : (at_ g).track.acc = [] := rfl
  rw [h0]
  simp

/-- A legal copy with tokens 1 and 2; a row of no bytes; a token word with a reserved bit; an overlap. -/
theorem test_cpy : let g := gCopy 64
    Ready (.cpy q7 8 10 12 (some 20)) (at_ g) g ∧ TokensValid g (some 20) ∧ Names g (some 20) (some 1, none, some 2) ∧
    Unmet (at_ g) g ∧ Room (at_ g) g .cp 2 (some 1, none, some 2) ∧ wordField (g.rdS 12) 0 21 ≠ 0 ∧
    Span.inside (false, false, 256, 64) ∧ Span.inside (false, true, 0, 64) ∧ TokensValid (gCopy 0) none ∧ wordField ((gCopy 0).rdS 12) 0 21 = 0 ∧
    ¬ TokensValid { g with regs := { g.regs with s := [(20, 0x1000)] } } (some 20) ∧ ¬ TokensValid { g with regs := { g.regs with s := [(20, 0x909)] } } (some 20) := by
  refine ⟨ready_of _ _ (by decide) (by decide) rfl, ?_, by rfl, unmet _, room _ _ _ (by decide) (by decide) (by decide) _, by decide,
    by simp [Span.inside], by simp [Span.inside], ?_, by decide, fun h => ?_, fun h => ?_⟩
  · rintro c ⟨⟩; decide
  · rintro c ⟨⟩
  · exact absurd (h 20 rfl) (by decide)
  · exact absurd (h 20 rfl) (by decide)

/-- `gath` and `scat`: 2 elements of 2 bytes of a table of 4, and a misaligned destination; `fill`; rows. -/
abbrev gElem (dst : Word32) : Group := grp [] [(8, dst), (10, 4096), (12, 8192), (14, 1), (15, 4), (16, 3), (18, 2)]
theorem test_elements : Ready (.gath q7 .n16 8 10 12 none) (at_ (gElem 64)) (gElem 64) ∧ Ready (.fill q7 true 8 4 16 none) (at_ (gElem 64)) (gElem 64) ∧
    wordField ((gElem 64).rdS 14) 19 13 = 0 ∧ ((gElem 64).rdS 15).toNat ≠ 0 ∧ (gElem 64).rdSs 8 2 % 2 = 0 ∧ (gElem 65).rdSs 8 2 % 2 ≠ 0 ∧
    ((gElem 64).rdS 13).toNat = 0 ∧ wordField ((gElem 64).rdS 16) 0 26 ≠ 0 ∧ wordField ((gElem 64).rdS 4) 0 26 = 0 ∧ (gElem 64).rdSs 8 2 % 8 = 0 ∧
    Span.inside (false, true, 64, 24) ∧ Room (at_ (gElem 64)) (gElem 64) .cp 3 noToks :=
  ⟨ready_of _ _ (by decide) (by decide) rfl, ready_of _ _ (by decide) (by decide) rfl, by decide, by decide, by decide, by decide, by decide, by decide,
   by decide, by decide, by simp [Span.inside], room _ _ _ (by decide) (by decide) (by decide) _⟩
abbrev gRows (dst : Word32) : Group := grp [] [(8, dst), (10, 1024 * 8), (12, 1024 * 16), (14, 1), (15, 0x3F80)]
theorem test_rows : Ready (.rowcp q7 8 10 14 none) (at_ (gRows 1024)) (gRows 1024) ∧ Ready (.pim q7 .fma 8 10 12 none) (at_ (gRows 1024)) (gRows 1024) ∧
    (gRows 1024).rdSs 8 2 % 1024 = 0 ∧ (gRows 32).rdSs 8 2 % 1024 ≠ 0 ∧ wordField ((gRows 0).rdS 14) 16 16 = 0 ∧ wordField ((gRows 0).rdS 15) 16 16 = 0 ∧
    ¬ (1024 < 8192 + 1024 * 2 ∧ 8192 < 1024 + 1024 * 2) ∧ (8192 < 8192 + 1024 * 2) ∧ Room (at_ (gRows 1024)) (gRows 1024) .nm 3 noToks :=
  ⟨ready_of _ _ (by decide) (by decide) rfl, ready_of _ _ (by decide) (by decide) rfl, by decide, by decide, by decide, by decide, by decide, by decide,
   room _ _ _ (by decide) (by decide) (by decide) _⟩

/-- A group with a reservation of two slates, two beds and a codebook, the formats BF16 and FP32; one without. -/
abbrev resv0 : Resv := ⟨false, 2, 2, 1, [], [], [], [0, 1], [], [], []⟩
abbrev gBench (sc : List (Nat × Word32)) : Group := { grp [] sc with resv := some resv0 }
theorem test_bench : let g := gBench [(14, 0x40000)]
    Reserved (at_ g) g resv0 ∧ Ready (.mma q7 true 8 10 14 none) (at_ g) g ∧ Ready (.bload q7 10 14) (at_ g) g ∧ Ready (.srd q7 8 10 14 none) (at_ g) g ∧
    Room (at_ g) g .mx 1 noToks ∧ Span.inside (false, false, 0, 2 ^ 15) ∧ wordField (g.rdS 8) 0 6 + 1 < resv0.nsl ∧ wordField (g.rdS 14) 0 5 + 1 < resv0.nbed ∧
    ((g.ent 0).fmt.extractLsb' 0 4).toNat ≤ 5 ∧ ((g.ent 0).fmt.extractLsb' 4 4).toNat ≤ 6 ∧ ((g.ent 0).fmt.extractLsb' 8 4).toNat = 1 ∧
    wordField (g.rdS 14) 12 6 + (wordField (g.rdS 14) 6 6 + 1) ≤ stepsHeld 3 ∧ g.rdSs 10 2 % 32 = 0 ∧ g0.resv = none :=
  ⟨⟨rfl, by decide⟩, ready_of _ _ (by decide) (by decide) rfl, ready_of _ _ (by decide) (by decide) rfl, ready_of _ _ (by decide) (by decide) rfl,
   room _ _ _ (by decide) (by decide) (by decide) _, by simp [Span.inside], by decide, by decide, by decide, by decide, by decide, by decide, by decide, rfl⟩
/-- Formats that do not go together (15 R287): INT8 with BF16; rows that fit their pitch and rows that do not. -/
theorem test_bench_refused : let g : Group := { gBench [] with ents := [(0, { g0.ent 0 with fmt := 0x173 })] }
    Ready (.mma q7 false 8 10 14 none) (at_ g) g ∧ Reserved (at_ g) g resv0 ∧ ((g.ent 0).fmt.extractLsb' 4 4).toNat = 7 ∧ ((g.ent 0).fmt.extractLsb' 0 4).toNat = 3 :=
  ⟨ready_of _ _ (by decide) (by decide) rfl, ⟨rfl, by decide⟩, by decide, by decide⟩
theorem test_slate_rows : (let x : Word32 := 0x400000; wordField x 1 17 = 0 ∧ 256 ≤ 16 * wordField x 18 14) ∧ wordField (0x2 : Word32) 1 4 ≤ 5 ∧
    wordField (0x2 : Word32) 5 13 = 0 := by decide

/-- `tokset` words that are applied: one that waits for an operation, one that does not. -/
abbrev gTok : Group := { gBusy with toksets := [(0x102, 0), (0x1, 9)] }
abbrev sTok : State := sPad.setGroup 0 0 gTok
theorem test_tokset : sTok.group? 0 0 = some gTok ∧ gTok.toksets = (0x102, 0) :: [(0x1, 9)] ∧ (∀ o ∈ gTok.inflight, 0 ≤ o.born) ∧
    (sTok.team? 0 gTok.ids.teamSlot).isSome = true ∧ (∃ o ∈ gTok.inflight, o.born < 9) ∧ Ready (.tokset q7 4) s0 g0 ∧
    wordField ((grp [] [(4, 0x10000)]).rdS 4) 16 16 ≠ 0 :=
  ⟨rfl, rfl, by decide, by decide, by decide, ready_of _ _ (by decide) (by decide) rfl, by decide⟩

/-! ### Engine commands that run (15, 16, 19) -/

/-- A dispatched command of the group, and the machine that holds it. -/
abbrev cmd0 (path : Path) (op : CmdOp) (buf : Nat) (progress : Nat) : Cmd :=
  { id := 7, core := 0, slot := 0, queue := 0, path := path, op := op, fmt := 0x133, rows := 1, in0 := none, in1 := none, outTok := none, flag := none,
    disp := true, suspended := false, granted := [], ran := [], done := false, progress := progress, buf := List.replicate buf 0, pos := ⟨0, 1⟩, after := ⟨0, 2⟩,
    entry := 0, mask := 1, ids := ⟨0, 0, 0, 0, 0, 0, 0, 0⟩, mon := true, start := 0 }
abbrev sCmd (g : Group) (c : Cmd) : State := { at_ g with cmds := [c] }

theorem live (g : Group) (c : Cmd) (h : c.suspended = false ∧ c.done = false) (hq : c.queue = 0) : Live (sCmd g c) c := by
  refine ⟨by simp, h, ?_⟩
  rw [hq]
  exact ⟨rfl, rfl⟩

/-- Commands to dispatch: with no token and no lock; with a token that is not ready; behind a lock of a dispatched command. -/
abbrev cWait : Cmd := { cmd0 .cp (.fill 4 true 0 1 8) 0 0 with disp := false }
theorem test_dispatch : Live (sCmd g0 cWait) cWait ∧ cWait.disp = false ∧ (sCmd g0 cWait).locksNear cWait = [] := ⟨live _ _ ⟨rfl, rfl⟩ rfl, rfl, rfl⟩
theorem test_dispatch_ready : TokensReady (sCmd g0 cWait) cWait := by
  intro k h
  rcases h with h | h <;> cases h
theorem test_dispatch_token : ¬ TokensReady (sCmd g0 { cWait with in0 := some 3 }) { cWait with in0 := some 3 } ∧
    Live (sCmd g0 { cWait with in0 := some 3 }) { cWait with in0 := some 3 } := by
  refine ⟨fun h => ?_, live _ _ ⟨rfl, rfl⟩ rfl⟩
  obtain ⟨t, ht, -⟩ := h 3 (.inl rfl)
  have h0 : (sCmd g0 { cWait with in0 := some 3 }).team? 0 0 = none := rfl
  rw [h0] at ht
  cases ht
abbrev lock0 (cmd : Nat) (wr disp : Bool) : Lock := ⟨cmd, cmd, 0, 63, true, wr, 0, 0, 0, disp, 0⟩
abbrev sLocks : State :=
  { sCmd g0 cWait with cmds := [{ cmd0 .cp (.fill 4 true 0 1 8) 0 0 with id := 5 }, cWait]
                       clusters := [(0, ⟨0, 0, 0, 0, 1, 1, false, [], 0, [lock0 5 true true, lock0 7 false false]⟩)] }
theorem test_dispatch_lock : Collide (lock0 7 false false) (lock0 5 true true) ∧ lock0 5 true true ∈ sLocks.locksNear cWait ∧
    lock0 7 false false ∈ sLocks.locksNear cWait ∧ sLocks.cmds.find? (fun x => x.id == 5) = some { cmd0 .cp (.fill 4 true 0 1 8) 0 0 with id := 5 } ∧
    sLocks.cmds.find? (fun x => x.id == 7) = some cWait := by
  refine ⟨⟨rfl, fun _ => rfl, .inr rfl, by decide, by decide⟩, by decide, by decide, by decide, by decide⟩

/-- Two commands that wait for one face, one of them aged. -/
abbrev cFace (id start : Nat) : Cmd := { cmd0 .mx (.bload false 0 0 1 0 0) 0 0 with id := id, start := start }
abbrev sFace : State := { at_ (gBench []) with cmds := [cFace 3 0, cFace 4 90], cycle := 4100 }
theorem test_face : (∀ c ∈ sFace.cmds, c.done = false ∧ c.disp = true ∧ c.suspended = false ∧ c.granted = [] ∧ benchOf c.core = 0 ∧
    sFace.faceOf c 0 = some 0 ∧ 0 ∉ c.ran ∧ c.wantsA * c.stepBytes ≤ c.buf.length) ∧ (cFace 3 0).start + 64 * Tbl.getD sFace.mxAge 0 0x40 < sFace.cycle ∧
    sFace.cycle ≤ (cFace 4 90).start + 64 * Tbl.getD sFace.mxAge 0 0x40 ∧
    sFace.faceOf (cFace 3 0) 0 ≠ some 1 := by decide

/-- `srsv` with each of its answers. -/
theorem test_srsv : let w : Word32 := 0x81
    let b := benchOf 0
    let held (s : State) : Nat := ((s.reservations b).map fun x => if x.2.wide then 2 * x.2.nsl else x.2.nsl).sum
    Live (sCmd g0 (cmd0 .mx (.srsv false w 4) 0 0)) (cmd0 .mx (.srsv false w 4) 0 0) ∧ g0.resv = none ∧ (gBench []).resv ≠ none ∧
    wordField w 0 7 = 1 ∧ wordField w 7 3 = 1 ∧ wordField w 10 7 = 0 ∧ wordField w 17 15 = 0 ∧ wordField (0 : Word32) 0 7 = 0 ∧
    (s0.ctx 0).desc.slmax < held s0 + 1 ∧ ¬ 64 < held (at_ (gBench [])) + 1 ∧ 64 < held (at_ (gBench [])) + 63 :=
  ⟨live _ _ ⟨rfl, rfl⟩ rfl, rfl, by decide, by decide, by decide, by decide, by decide, by decide, by decide, by decide, by decide⟩
abbrev cBload : Cmd := cmd0 .mx (.bload false 0 1 2 3 0) 2048 0
abbrev cMma : Cmd := cmd0 .mx (.mma true false 0 0 0 1 0 0) 32 0
theorem test_ksteps : Live (sCmd (gBench []) cBload) cBload ∧ cBload.buf.length = 1024 * formatBytes ((cBload.fmt.extractLsb' 4 4).toNat) ∧
    Live (sCmd (gBench []) cMma) cMma ∧ cMma.buf.length = (maskLanes cMma.rows).length * (16 * formatBytes ((cMma.fmt.extractLsb' 0 4).toNat)) ∧
    resv0.badPass cMma.fmt 0 0 0 (maskLanes cMma.rows) = false ∧ ({ cMma with granted := [0] } : Cmd).granted = [0] ∧
    cMma.stepBytes ≤ cMma.buf.length ∧ (sCmd (gBench []) cMma).entriesBefore cMma = [] ∧ (sCmd (gBench []) cMma).group? 0 0 = some (gBench []) ∧ (gBench []).resv = some resv0 := by
  refine ⟨live _ _ ⟨rfl, rfl⟩ rfl, ?_, live _ _ ⟨rfl, rfl⟩ rfl, ?_, by decide, rfl, by decide, by decide, rfl, rfl⟩
  · rw [List.length_replicate]; decide
  · rw [List.length_replicate]; decide
theorem test_srel : Live (sCmd g0 { cmd0 .mx .srel 0 0 with disp := false }) { cmd0 .mx .srel 0 0 with disp := false } ∧ g0.resv = none ∧ g0.ownRecord = false ∧
    (sCmd g0 { cmd0 .mx .srel 0 0 with disp := false }).cmds.find? (fun x => x.path == .mx && benchOf x.core == benchOf 0 && !x.done) =
      some { cmd0 .mx .srel 0 0 with disp := false } := ⟨live _ _ ⟨rfl, rfl⟩ rfl, rfl, by decide, by decide⟩
theorem test_szero : Live (sCmd (gBench []) (cmd0 .mx (.szero 1) 0 0)) (cmd0 .mx (.szero 1) 0 0) := live _ _ ⟨rfl, rfl⟩ rfl

/-- A fill of 512 words in a scratchpad of one sett, its last word the sett's last. -/
abbrev cFill : Cmd := cmd0 .cp (.fill 4 true 0 5 512) 0 3
abbrev sFill : State := { sPad with cmds := [cFill] }
theorem test_fill : (∀ i, i < 512 → ∃ x, Tbl.find? [(0, { Sett.absent with st := .res })] ((0 + 4 * i) / 2048) = some x ∧ (x.st = .res ∨ x.st = .dirty)) ∧
    sFill.group? 0 0 = some g0 ∧ sFill.cmds.find? (fun x => x.id == 7) = some cFill ∧ cFill.progress ≤ 512 := by
  refine ⟨fun i h => ⟨{ Sett.absent with st := .res }, ?_, .inl rfl⟩, rfl, rfl, by decide⟩
  have : (0 + 4 * i) / 2048 = 0 := by omega
  rw [this]
  rfl

/-- Rows of a near-memory page: one that admits them, one that does not. -/
abbrev cRow : Cmd := cmd0 .nm (.rowz 1024 1) 0 0
abbrev sRow (l : Word64) : State := { sLeaf l with cmds := [cRow] }
theorem test_rows_run : Live (sRow 0x6BF) cRow ∧ Alone (sRow 0x6BF) ∧ NearMaps (sRow 0x6BF) cRow true 1024 1024 ∧ NearMaps (sRow 0x6BF) cRow false 4096 4096 ∧
    Live (sRow 0x63F) cRow ∧ ((sRow 0x63F).coreSt 0).tlb.find? (fun t => t.ctx == ((sRow 0x63F).ctx 0).hw.getD 64 && t.base ≤ 1024 && 1024 < t.base + t.size) =
      some ⟨0, 0, 2 ^ 34, 0x63F⟩ ∧ (0x63F : Word64).getLsbD 7 = false :=
  ⟨⟨rfl, ⟨rfl, rfl⟩, ⟨rfl, rfl⟩⟩, ⟨rfl, rfl, rfl, good_stacks _ rfl rfl rfl rfl⟩,
   ⟨by decide, by decide, _, rfl, by decide, by decide, by decide, by decide, by decide, by decide⟩,
   ⟨by decide, by decide, _, rfl, by decide, by decide, by decide, by decide, by decide, by decide⟩, ⟨rfl, ⟨rfl, rfl⟩, ⟨rfl, rfl⟩⟩, by rfl, by decide⟩
theorem test_rows_done : Live (sCmd g0 (cmd0 .nm (.rowz 1024 1) 0 1)) (cmd0 .nm (.rowz 1024 1) 0 1) ∧
    Live (sCmd g0 (cmd0 .cl (.cgrp 4 0) 0 0)) (cmd0 .cl (.cgrp 4 0) 0 0) := ⟨live _ _ ⟨rfl, rfl⟩ rfl, live _ _ ⟨rfl, rfl⟩ rfl⟩

/-! ### Collectives (25) -/

/-- A machine whose granules 8 to 10 hold a descriptor of a group of this package's two ranks (from 1024 on) and a plan of one stream (at 1152), its
buffers at 4096 and 8192. -/
abbrev mColl : Mem :=
  (((((((State.reset.mem.wr 1024 8 (5 + 2 ^ 49)).wr 1032 8 4096).wr 1040 8 8192).wr 1048 8 (64 + 2 ^ 24 * 9)).wr 1152 8 (2 ^ 32 * 4 + 2 ^ 56)).wr 1160 8 8).wr 1168 8 (2 ^ 9))
abbrev sColl (g : Group) : State :=
  let s := ({ State.reset with memsys := { State.reset.memsys with mem := mColl } } : State).withFetchWord 64 0
  { (((s.l2Fill 8).l2Fill 9).l2Fill 0).setGroup 0 0 g with cur := ⟨0, 0, 0, none, 1, false⟩ }
abbrev bind0 : Binding := ⟨5, 0, [0, 0], 4096, 8192, 64, 9, 0, none⟩
abbrev bytesAt (a n : Nat) : List Byte := (List.range n).map fun i => mColl.byte (a + i)
theorem test_describes : DescribesGroup (bytesAt 1024 80) bind0 := by
  refine ⟨by decide, by decide, by decide, by decide, by decide, by decide, by decide, by decide, by decide, by decide, by decide, by decide⟩
abbrev gColl : Group := grp [] [(4, 1024)]
theorem reads_piece (va pa : Nat) (hp : pa = va) (hm : Maps (sColl gColl) gColl .cached true false (va : Nat) pa)
    (hk : (List.range 4).all (fun k => (((sColl gColl).l2? (4 * (pa / 128) + k)).map fun y => y.poison) == some 0) = true) :
    Maps (sColl gColl) gColl .cached true false (va : Nat) va ∧ HeldInL2 (sColl gColl) va := by
  subst hp
  refine ⟨hm, fun k h => ?_⟩
  have := List.all_eq_true.mp hk k (List.mem_range.mpr h)
  simpa [Option.map_eq_some_iff] using this
theorem test_reads : ReadsHere (sColl gColl) gColl 1024 (bytesAt 1024 80) ∧ ReadsHere (sColl gColl) gColl 1152 (bytesAt 1152 32) := by
  have h80 : (bytesAt 1024 80).length = 80 := by decide
  have h32 : (bytesAt 1152 32).length = 32 := by decide
  refine ⟨⟨rfl, rfl, by decide, by decide, fun k h => ?_⟩, ⟨rfl, rfl, by decide, by decide, fun k h => ?_⟩⟩
  · have hk : k < 3 := by omega
    interval_cases k
    · refine ⟨1024, (reads_piece 1024 _ rfl ?_ (by decide +kernel)).1, (reads_piece 1024 _ rfl ?_ (by decide +kernel)).2, by decide +kernel⟩ <;>
      exact ⟨by decide, by decide, _, rfl, by decide, by decide, by decide, by decide, by decide, by decide, by decide, by decide, by decide⟩
    · refine ⟨1056, (reads_piece 1056 _ rfl ?_ (by decide +kernel)).1, (reads_piece 1056 _ rfl ?_ (by decide +kernel)).2, by decide +kernel⟩ <;>
      exact ⟨by decide, by decide, _, rfl, by decide, by decide, by decide, by decide, by decide, by decide, by decide, by decide, by decide⟩
    · refine ⟨1088, (reads_piece 1088 _ rfl ?_ (by decide +kernel)).1, (reads_piece 1088 _ rfl ?_ (by decide +kernel)).2, by decide +kernel⟩ <;>
      exact ⟨by decide, by decide, _, rfl, by decide, by decide, by decide, by decide, by decide, by decide, by decide, by decide, by decide⟩
  · have hk : k = 0 := by omega
    subst hk
    refine ⟨1152, (reads_piece 1152 _ rfl ?_ (by decide +kernel)).1, (reads_piece 1152 _ rfl ?_ (by decide +kernel)).2, by decide +kernel⟩ <;>
    exact ⟨by decide, by decide, _, rfl, by decide, by decide, by decide, by decide, by decide, by decide, by decide, by decide, by decide⟩

theorem leafPa_low (a : Nat) (h : a < 2 ^ 34) : leafPa 0x63F (2 ^ 34) a = a := by
  have e : ptePa 0x63F = 0 := by decide
  simp only [leafPa, e, Nat.zero_div, Nat.zero_mul, Nat.zero_add, Nat.mod_eq_of_lt h]
theorem homeOf_low (a : Nat) (h : a < 2 ^ 34) : homeOf a = 0 := by
  unfold homeOf; norm_num at h ⊢; omega
theorem paOk_low (s : State) (a : Nat) (h : a < 2 ^ 34) (hs : s.fabric.self = 0) (he : s.fabric.en = false) (hf : s.ctl.fenced = 0) :
    s.paOk a = true := by
  have hl : lpaOf a < dataEnd := by unfold lpaOf dataEnd; norm_num at h ⊢; omega
  simp [State.paOk, homeOf_low a h, hs, he, hf, hl]
theorem test_buffers : BufferAdmitted (sColl gColl) gColl false 4096 64 ∧ BufferAdmitted (sColl gColl) gColl true 8192 64 := by
  have h (wr : Bool) (va : Nat) (hv : va + 64 ≤ 2 ^ 34) : BufferAdmitted (sColl gColl) gColl wr va 64 := by
    refine ⟨by norm_num at hv ⊢; omega, fun a h1 h2 => ?_⟩
    have ha : a < 2 ^ 34 := by omega
    refine ⟨(0x63F, 2 ^ 34), ?_, by decide, fun _ => by decide, by decide, by decide, by decide, ?_, ?_⟩
    · have hf : ((sColl gColl).coreSt 0).tlb.find? (fun t => t.ctx == (sColl gColl).hwOf 0 && t.base ≤ a && a < t.base + t.size) =
          some ⟨0, 0, 2 ^ 34, BitVec.ofNat 64 0x63F⟩ := by
        have ht : ((sColl gColl).coreSt 0).tlb = [⟨0, 0, 2 ^ 34, BitVec.ofNat 64 0x63F⟩] := rfl
        have hh : (sColl gColl).hwOf 0 = 0 := rfl
        simpa [ht, hh] using ha
      show State.leafOf _ 0 0 a = _
      simp only [State.leafOf, hf]
      rfl
    · rw [leafPa_low a ha]; exact paOk_low _ _ ha rfl rfl rfl
    · rw [leafPa_low a ha, homeOf_low a ha]; rfl
  exact ⟨h _ _ (by decide), h _ _ (by decide)⟩
theorem test_plan : PlanEntry (bytesAt 1152 32) 0 2 64 4 ⟨0, 4, [0, 1], [0, 2]⟩ := by
  refine ⟨by decide, by decide, by decide, by decide, by decide, by decide, by decide, ?_, ?_, ?_, by decide⟩
  · intro j h1 h2
    have : 2 ≤ j := h1
    interval_cases j <;> decide
  · intro j h
    have : j < 2 := h
    interval_cases j <;> decide
  · intro j h
    have : j + 1 < 2 := h
    have : j = 0 := by omega
    subst this
    decide
theorem test_cgrp : Ready (.cgrp q7 .pkg 8 4) (sColl gColl) gColl ∧ gColl.single = true ∧ gColl.rdSs 4 2 = 1024 ∧ WithinScope (sColl gColl) .pkg 0 ∧
    Tbl.find? gColl.binds 0 = none ∧ g0.rdSs 4 2 = 0 ∧ wordField (g0.rdS 8) 0 3 = 0 :=
  ⟨⟨by rfl, by decide, by decide, .inl rfl⟩, by decide, by decide, .inl rfl, rfl, by decide, by decide⟩

/-- A bound handle: fresh for `cstart`; with an instance complete, incomplete and broken. -/
abbrev gBound (seq : Nat) (broken : Option (Nat × Nat)) (since : Nat) : Group :=
  { grp [] [(4, 1152), (8, 0x100)] with binds := [(0, { bind0 with seq := seq, broken := broken })], block := .cwait 0 since }
abbrev inst0 (ended : Nat) : Inst := ⟨5, 0, [(0, 7, 1), (1, 7, 1)], [(0, ended), (1, ended)], [], none, []⟩
abbrev sInst (g : Group) (ended : Nat) : State := { at_ g with coll := ⟨[inst0 ended], []⟩, time := 10000000 }
theorem test_cstart : let g : Group := { gBound 0 none 0 with block := .none }
    Ready (.cstart q7 .f32 4 8) (sColl g) g ∧ Tbl.find? g.binds 0 = some { bind0 with seq := 0 } ∧ g.rdSs 4 2 = 1152 ∧ wordField (g.rdS 8) 8 5 = 1 ∧
    wordField (g.rdS 8) 3 5 = 0 ∧ wordField (g.rdS 8) 13 3 = 0 ∧ Room (at_ g) g .cl 2 noToks ∧ (4096 + 64 ≤ 2 ^ 57 ∧ 8192 + 64 ≤ 2 ^ 57) :=
  ⟨⟨by rfl, by decide, by decide, .inl rfl⟩, rfl, by decide, by decide, by decide, by decide, room _ _ _ (by decide) (by decide) (by decide) _, by decide⟩
theorem test_cstart_waits : (at_ (gBound 1 none 0)).inst? 5 0 = none ∧ (gBound 1 (some (0x42, 0)) 0).binds = [(0, { bind0 with seq := 1, broken := some (0x42, 0) })] ∧
    Ready (.cstart q7 .f32 4 8) (at_ (gBound 1 none 0)) (gBound 1 none 0) ∧ (gBound 0 none 0).rdSs 8 2 % 32 = 0 :=
  ⟨by rfl, rfl, ready_of _ _ (by decide) (by decide) rfl, by decide⟩
theorem test_cwait : Ready (.cwait q7 9) (sInst (gBound 1 none 0) 1) (gBound 1 none 0) ∧ (sInst (gBound 1 none 0) 1).instComplete { bind0 with seq := 1 } 0 = true ∧
    (sInst (gBound 1 none 0) 0).instComplete { bind0 with seq := 1 } 0 = false ∧ (sInst (gBound 1 none 0) 0).cmds = [] ∧ wordField ((gBound 1 none 0).rdS 9) 0 3 = 0 :=
  ⟨⟨by rfl, by decide, by decide, .inl rfl⟩, by decide, by decide, rfl, by decide⟩
/-- The timer of 9 ms at its boundary. -/
theorem test_timeout : let b : Binding := { bind0 with seq := 1 }
    (sInst (gBound 1 none 0) 0).group? 0 0 = some (gBound 1 none 0) ∧ 0 + 1000000 * b.tmo < (sInst (gBound 1 none 0) 0).time ∧
    (sInst (gBound 1 none 1000000) 0).time ≤ 1000000 + 1000000 * b.tmo := ⟨rfl, by decide, by decide⟩
theorem test_red : Undisturbed s0 g0 ∧ Ready (.red q7 .add .f32 .dom 4 8) s0 g0 ∧ Maps s0 g0 .cached false true (g0.rdSs 4 2) 0 ∧
    (∀ x ∈ (s0.coreSt 0).tlb, x.leaf.getLsbD 7 = false) ∧ Room s0 g0 .cl 0 noToks :=
  ⟨test_undisturbed, ready_of _ _ (by decide) (by decide) rfl,
   ⟨by decide, by decide, _, rfl, by decide, by decide, by decide, by decide, by decide, by decide, by decide, by decide, by decide⟩, by decide,
   room _ _ _ (by decide) (by decide) (by decide) _⟩

/-- An announcement that agrees, one that differs from that of a member here; a packet to fold onward; an abort. -/
theorem test_announcements : let s := sInst (gBound 1 none 0) 0
    ((s.instHere 5 0).abort = none ∧ (∀ r ∈ (s.instHere 5 0).ranks, r.1 ≠ 2) ∧ (∀ r ∈ (s.instHere 5 0).ranks, r.2.1 = 7) ∧
     (∃ r ∈ (s.instHere 5 0).ranks, r.2.1 ≠ 8 ∧ (s.member? 5 r.1).isSome = true) ∧ s.bindings 5 ≠ []) ∧
    ([(⟨5, 0, .f32, 0, 0, 1, [0, 1], [1, 2], 0, 0, []⟩ : RoutePacket)][0]?.bind fun p => p.ops[p.hop]?) = some 1 ∧
    (s.member? 5 0).map (fun m => m.2.2.seq) = some 1 := by decide
theorem test_cstart_done : let c := cmd0 .cl (.cstart 0 5 0 0 .f32 []) 0 0
    let s : State := { sInst (gBound 1 none 0) 1 with cmds := [c] }
    Live s c ∧ s.group? 0 0 = some (gBound 1 none 0) ∧ s.instComplete { bind0 with seq := 1 } 0 = true :=
  ⟨⟨by simp, ⟨rfl, rfl⟩, ⟨rfl, rfl⟩⟩, rfl, by decide⟩
/-- A record that waits at a node, at and before its timer's end. -/
abbrev sTimer (t : Nat) : State := { (sNode 32).setNode 0 0 ⟨1, [(0, 0, [])], []⟩ with time := t }
theorem test_node_timer : (∃ s1, (sTimer 7000).nodeOf 0 0 = .ok s1 (some (node0 32)) ∧ UsesOnly (sTimer 7000) s1) ∧ 0 + 1000 * (node0 32).tmr ≤ (sTimer 7000).time ∧
    (sTimer 6999).time < 0 + 1000 * (node0 32).tmr ∧ ((sTimer 7000).ctx 0).removing = none :=
  ⟨reads_value ((sTimer 7000).nodeOf 0 0) (sTimer 7000) (some (node0 32)) (by decide +kernel), by decide, by decide, rfl⟩

/-! ### Stops, debug, sleep, control space (14) -/

theorem test_stops : g0.ownRecord = false ∧ (s0.frag g0).st = .running ∧ s0.lanes g0 p15 ≠ [] ∧ s0.cur.entry < 32 := by decide

/-- A sleeping group at and before its deadline, woken by the fault queue or the mailbox. -/
theorem test_sleep : let h : Group := { g0 with block := .sleep 0x300001 (some 1000) }
    let s : State := at_ h
    let full : State := s.setCtx 0 { s.ctx 0 with regs := { CtxRegs.reset with head := 1 } }
    s.group? 0 0 = some h ∧ h.runs = true ∧ s.time < 1000 ∧ ({ s with time := 1000 } : State).time = 1000 ∧ (0x300001 : BitVec 32).getLsbD 20 = true ∧
    (full.ctx 0).regs.head ≠ (full.ctx 0).regs.tail ∧ ({ s with ctl := { s.ctl with inFull := true } } : State).ctl.inFull = true ∧ s.ctl.inFull = false :=
  ⟨rfl, by decide, by decide, rfl, by decide, by decide, rfl, by decide⟩

/-- A monitor group and its target in slot 1, running, halted and with a record to be served. -/
abbrev gMon (handle action : Word32) : Group := grp [] [(9, handle), (10, action), (11, 0xFF)]
abbrev gTarget (run : Run) (unserved : List Rec) : Group :=
  { g0 with ids := { g0.ids with grpid := 1, uid := 1 }, dbg := { g0.dbg with run := run }, stops := { g0.stops with unserved := unserved } }
abbrev sDbg (handle action : Word32) (x : Group) : State := (at_ (gMon handle action)).setGroup 0 1 x
abbrev rec0 (stop : Bool) : Rec := ⟨.word 0x11, false, 0, ⟨0, 1⟩, ⟨0, 1⟩, ⟨0, 2⟩, stop, false, 1, 0, 0, none, 0⟩
theorem reaches (handle action : Word32) (run : Run) (us : List Rec) : Reaches (sDbg handle action (gTarget run us)) (gMon handle action) 0 1 (gTarget run us) :=
  ⟨rfl, by decide, by decide, rfl, rfl, by show gkey 0 1 ≠ gkey 0 0; decide, by intro h; cases h⟩
theorem test_dbg : (gMon 1 0).shadow = none ∧ ((gMon 1 0).rdS 9).toNat = gkey 0 1 ∧ 2 ^ 15 ≤ ((gMon 0x8000 0).rdS 9).toNat ∧
    Ready (.dbg q7 8 9 10 11) (sDbg 1 0 (gTarget .halted [])) (gMon 1 0) ∧ Ready (.halt q7 8 9) (sDbg 1 0 (gTarget .running [])) (gMon 1 0) ∧
    Ready (.resume q7 8 9 10) (sDbg 1 1 (gTarget .faulted [rec0 false])) (gMon 1 1) ∧
    (wordField ((gMon 1 0x10).rdS 10) 8 3 = 0 ∧ wordField ((gMon 1 0x10).rdS 10) 0 8 < (gTarget .halted []).regs.nvr) ∧
    (wordField ((gMon 1 0x17F).rdS 10) 8 3 = 1 ∧ wordField ((gMon 1 0x17F).rdS 10) 0 8 = 127) ∧ wordField ((gMon 1 0x180).rdS 10) 0 8 = 128 :=
  ⟨rfl, by decide, by decide, ⟨by rfl, by decide, by decide, .inl rfl⟩, ⟨by rfl, by decide, by decide, .inl rfl⟩, ⟨by rfl, by decide, by decide, .inl rfl⟩,
   by decide, by decide, by decide⟩
theorem test_resume : let x := gTarget .faulted [rec0 false]
    x.dbg.run ≠ .running ∧ x.block = .none ∧ (∀ j, j < 32 → (x.ent j).st = .free ∨ (x.ent j).st = .running) ∧ x.stops.unserved = [rec0 false] ∧
    (rec0 false).entry < 32 ∧ (x.ent (rec0 false).entry).st = .running ∧ (x.ent (rec0 false).entry).pos = (rec0 false).faultPos ∧
    (rec0 true).stop = true ∧ ((gMon 1 1).rdS 10).toNat = 1 ∧ 2 < ((gMon 1 3).rdS 10).toNat := by decide

/-- Control-space addresses: the last of the space, the first beyond, one misaligned, one of the firmware range and one not (01 R11). -/
theorem test_csr : Ready (.csrr q7 8 4) s0 g0 ∧ (grp [] [(4, 0xFFFFFFF8), (5, 0xFF)]).rdSs 4 2 < 2 ^ 40 ∧ (grp [] [(4, 0), (5, 0x100)]).rdSs 4 2 = 2 ^ 40 ∧
    (grp [] [(4, 0x5004)]).rdSs 4 2 % 8 ≠ 0 ∧ firmwareRange 0xC5000 = true ∧ firmwareRange 0x5000 = false ∧ g0.ctr .gs < 255 ∧ g0.batches = [] :=
  ⟨ready_of _ _ (by decide) (by decide) rfl, by decide, by decide, by decide, by decide, by decide, by decide, rfl⟩

/-! ### Clauses, comparators, records, ends (03, 07, 14) -/

/-- A group at a header; the header of one word; one that waits for flag 0; a bad one. -/
abbrev gHead : Group := { g0 with ents := [(0, { g0.ent 0 with pos := ⟨0, 0⟩ })] }
theorem test_header : (at_ gHead).group? 0 0 = some gHead ∧ gHead.block = .none ∧ (at_ gHead).mayIssue 0 gHead 0 = true ∧ (gHead.ent 0).pos.slot = 0 ∧
    (gHead.ent 0).reconv = 0 ∧ (Header.ofWord 1).cause = none ∧ (∀ f, f < 12 → (Header.ofWord 1).wait.getLsbD f = false) ∧ (Header.ofWord 0).cause ≠ none := by
  refine ⟨rfl, rfl, by decide, rfl, rfl, by decide, by decide, by decide⟩
theorem test_header_fetch : ∃ s1, (at_ gHead).fetch 0 0 true 0 = .ok s1 1 ∧ UsesOnly (at_ gHead) s1 := by
  have h : (match (at_ gHead).fetch 0 0 true 0 with
    | .ok s1 w => same (at_ gHead) s1 && w == 1
    | _ => false) = true := by decide +kernel
  cases hf : (at_ gHead).fetch 0 0 true 0 with
  | ok s1 w =>
    simp only [hf, Bool.and_eq_true, beq_iff_eq] at h
    exact ⟨s1, by rw [h.2], of_same _ _ h.1⟩
  | _ => simp [hf] at h
/-- A comparator at the group's position (14 R266), the lower number first. -/
abbrev gComp : Group := { g0 with dbg := { g0.dbg with bp := [0, BitVec.ofNat 64 (2 ^ 58 + 1), BitVec.ofNat 64 (2 ^ 58 + 1), 0] } }
theorem test_comparator : (at_ gComp).group? 0 0 = some gComp ∧ (at_ gComp).mayIssue 0 gComp 0 = true ∧ gComp.ownRecord = false ∧
    ((gComp.dbg.bp.getD 1 0).getLsbD 58 = true ∧ ((gComp.dbg.bp.getD 1 0).extractLsb' 0 58).toNat = (gComp.ent 0).pos.slot + (gComp.ent 0).pos.caddr / 8 * 16) ∧
    (gComp.dbg.bp.getD 0 0).getLsbD 58 = false ∧ (0, (gComp.ent 0).pos) ∉ gComp.dbg.pass ∧ (gComp.ent 0).mask &&& gComp.dbg.lanes ≠ 0 := by
  refine ⟨rfl, by decide, by decide, by decide, by decide, by decide, by decide⟩
/-- A held entry to step, one that is not held. -/
abbrev gHeld : Group := { g0 with ents := [(0, { g0.ent 0 with st := .stopped, former := .running })], dbg := { g0.dbg with run := .halted } }
theorem test_step : (at_ gHeld).group? 0 0 = some gHeld ∧ (gHeld.ent gHeld.dbg.stepEnt).st = .stopped ∧ (gHeld.ent gHeld.dbg.stepEnt).former ≠ .free ∧
    (g0.ent g0.dbg.stepEnt).st ≠ .stopped ∧ g0.dbg.run = .running := ⟨rfl, by decide, by decide, by decide, rfl⟩
/-- A group whose one record waits to be written, with the fault queue off, on and full. -/
abbrev gRec (stop : Bool) : Group := { g0 with mon := false, stops := { g0.stops with unwritten := [rec0 stop], unserved := [rec0 stop] } }
abbrev sRec (stop en : Bool) (tail : Nat) : State :=
  let s := at_ (gRec stop)
  s.setCtx 0 { s.ctx 0 with regs := { CtxRegs.reset with fqEn := en, tail := tail } }
theorem test_records : (sRec true false 0).group? 0 0 = some (gRec true) ∧ (gRec true).stops.unwritten = rec0 true :: [] ∧
    (∀ p ∈ (sRec true false 0).groups, ∀ x ∈ p.2.stops.unwritten, (rec0 true).tick ≤ x.tick) ∧ ((sRec true false 0).ctx 0).removing = none ∧
    ((sRec false false 0).ctx 0).st = .resident ∧ (((sRec false true 16).ctx 0).regs.tail + 2 ^ 17 - ((sRec false true 16).ctx 0).regs.head) % 2 ^ 17 =
      2 ^ ((sRec false true 16).ctx 0).regs.fqLogn ∧ (((sRec false true 15).ctx 0).regs.tail + 2 ^ 17 - 0) % 2 ^ 17 ≠ 2 ^ 4 ∧ (gRec false).mon = false := by
  refine ⟨rfl, rfl, by decide, by decide, by decide, by decide, by decide, rfl⟩
theorem test_record_bytes : let bytes : List Byte := [0x11, 0, 255] ++ List.replicate 5 0 ++ [1] ++ List.replicate 15 0 ++ [1] ++ List.replicate 39 0
    bytes.length = 64 ∧ byteField bytes 0 0 16 = 0x11 ∧ byteField bytes 0 16 8 = 255 ∧ byteField bytes 1 0 64 = 1 ∧ byteField bytes 3 0 32 = 1 ∧
    ∃ s1, (sRec false true 0).vwrite 0 0 0 3 bytes = .ok s1 () ∧ true = true := by
  refine ⟨by decide, by decide, by decide, by decide, by decide, writes_with _ (fun _ => true) (by decide +kernel)⟩
/-- A group without lanes. -/
abbrev gGone : Group := { g0 with ents := [(0, { g0.ent 0 with mask := 0 })] }
theorem test_ends : (at_ gGone).group? 0 0 = some gGone ∧ gGone.allMask = 0 ∧ gGone.inflight = [] ∧ gGone.batches = [] ∧ gGone.toksets = [] ∧
    gGone.binds = [] ∧ g0.allMask ≠ 0 := ⟨rfl, by decide, rfl, rfl, rfl, rfl, by decide⟩

/-! ### Escapement, setts, control registers (11, 12, 01) -/

abbrev gAct (st : ActSt) (aged : Nat) : Group := { g0 with act := ⟨st, false, 0, aged, none, 0⟩ }
theorem only_unit (st : ActSt) (aged : Nat) : OnlyUnit (at_ (gAct st aged)) 0 0 (gAct st aged) :=
  ⟨by decide, rfl, [], [], rfl, by simp, by simp⟩
theorem test_units : OnlyUnit (at_ (gAct .parked 2)) 0 0 (gAct .parked 2) ∧ (at_ (gAct .parked 2)).forcing 0 (gAct .parked 2) = 0 ∧
    OnlyUnit (at_ { gAct .active 0 with lease := 4096 }) 0 0 { gAct .active 0 with lease := 4096 } ∧
    ((at_ (gAct .parked 0)).coreSt 0).escAge * 256 = 65536 ∧ ({ at_ (gAct .parked 0) with cycle := 131072 } : State).cycle - (gAct .parked 0).act.since = 2 * 65536 :=
  ⟨only_unit _ _, by decide, ⟨by decide, rfl, [], [], rfl, by simp, by simp⟩, by decide, by decide⟩

/-- A sett to fill whose map entry says zeros (1), one to spill, in a clean package alone. -/
abbrev sSett (entry : Nat) (st : SettSt) (grans : List Nat) : State :=
  let s := ({ State.reset with memsys := { State.reset.memsys with mem := State.reset.mem.wr 1024 8 entry } } : State).withFetchWord 64 0
  (grans.foldl State.l2Fill s).setTeam 0 0 ⟨0, 0, 0, 0, 1, 1024, [], [(0, { Sett.absent with st := st })], 0, [], 0, 1, 0⟩
abbrev sFillOne : State := sSett 1 .fill [8]
abbrev sFillTwo : State := sSett 2 .fill (List.range 16)
theorem test_sett_fill : (sFillOne.team? 0 0).isSome = true ∧ ∃ s1 b, sFillOne.vread 0 0 1024 1 8 = .ok s1 b ∧ UsesOnly sFillOne s1 ∧
    (b.length == 8 && valueIn (fun a => b.getD a 0) 0 8 % 4 == 1) = true :=
  ⟨by decide, reads_with (sFillOne.vread 0 0 1024 1 8) sFillOne (fun b => b.length == 8 && valueIn (fun a => b.getD a 0) 0 8 % 4 == 1) (by decide +kernel)⟩
theorem test_sett_fill_backed : ∃ s1 b, sFillTwo.vread 0 0 1024 1 8 = .ok s1 b ∧ UsesOnly sFillTwo s1 ∧ (valueIn (fun a => b.getD a 0) 0 8 == 2) = true ∧
    ∃ s2 d, s1.vread 0 0 0 65 2048 = .ok s2 d ∧ UsesOnly s1 s2 ∧ (d.length == 2048) = true :=
  reads_twice (sFillTwo.vread 0 0 1024 1 8) (fun s1 => s1.vread 0 0 0 65 2048) sFillTwo (fun b => valueIn (fun a => b.getD a 0) 0 8 == 2) (fun d => d.length == 2048)
    (by decide +kernel)
/-- A sett whose backing block is on a page that may not be read (12 R215), and one whose map entry is. -/
abbrev sFillBad : State :=
  let s := sSett (2 + 2 ^ 11 * 4) .fill [8]
  s.setCore 0 { s.coreSt 0 with tlb := [⟨0, 0, 4096, 0x63F⟩, ⟨0, 8192, 4096, 0x63B⟩] }
theorem test_sett_fill_fault : (match sFillBad.vread 0 0 1024 1 8 with
    | .ok s1 b => same sFillBad s1 && valueIn (fun a => b.getD a 0) 0 8 == 2 + 8192 && (match s1.vread 0 0 8192 65 2048 with
      | .bad s2 _ _ _ => same s1 s2
      | _ => false)
    | _ => false) = true ∧ (match sFillBad.vread 0 0 8192 1 8 with
    | .bad s1 _ _ _ => same sFillBad s1
    | _ => false) = true := by decide +kernel
theorem test_sett_spill : let s := sSett (2 ^ 11 * 4 + 1) .spill [8]
    CleanAlone s ∧ MonMaps s 0 0 1024 1024 ∧ valueIn s.byteAt 1024 8 / 2 ^ 11 % 2 ^ 46 * 2048 = 8192 ∧ MonMaps s 0 0 8192 8192 ∧
    MonMaps s 0 0 (8192 + 32 * 63) (8192 + 32 * 63) ∧ 8192 % 2048 = 0 ∧ ¬ (8192 ≤ 1024 ∧ 1024 < 8192 + 2048) := by
  refine ⟨⟨⟨rfl, rfl, rfl, good_stacks _ rfl rfl rfl rfl⟩, own_l2 _ (by decide +kernel), by decide⟩, ⟨_, rfl, by decide, by decide, by decide, by decide, by decide, by decide, by decide, by decide⟩, by decide,
    ⟨_, rfl, by decide, by decide, by decide, by decide, by decide, by decide, by decide, by decide⟩,
    ⟨_, rfl, by decide, by decide, by decide, by decide, by decide, by decide, by decide, by decide⟩, by decide, by decide⟩

/-- L1 sizes from 2 to 12 KiB steps and their clamps (12 R202); a change in progress; XLAT_INV of one page and of all. -/
theorem test_l1 : Min.min 12 (Max.max 2 (wordField (15 : Word32) 0 4)) = 12 ∧ Min.min 12 (Max.max 2 (wordField (0 : Word32) 0 4)) = 2 ∧
    (s0.coreSt 0).l1sz = 4 ∧ (s0.coreSt 0).resize = none ∧ Min.min 320 ((768 - 64 * 11) / 2) = 32 ∧ Min.min 320 ((768 - 64 * 12) / 2) = 0 ∧
    (sPad.team? 0 0).map (fun t => t.nsett) = some 1 ∧
    s0.framesUsed 0 ≤ Min.min 320 ((768 - 64 * 12) / 2) := by decide
theorem test_xlat : ((0 : BitVec 64).extractLsb' 45 3).toNat ≤ 4 ∧ (BitVec.ofNat 64 (7 * 2 ^ 45)).getLsbD 63 = false ∧
    ((BitVec.ofNat 64 (7 * 2 ^ 45)).extractLsb' 45 3).toNat = 7 ∧
    ((at_ gBusy).groups.any fun p => p.2.inflight.any fun o => o.born < 9 && o.awaits.isNone) = true ∧
    ((s0.setCore 0 { s0.coreSt 0 with inval := [(0, 9)] }).coreSt 0).inval = (0, 9) :: [] := by decide
theorem test_context_slot : List.find? (fun p : Nat × Ctx => p.2.hw == some 0) s0.ctxs = some (0, s0.ctx 0) ∧ (∀ p ∈ s0.ctxs, p.2.hw = some 0 → p.1 = 0) :=
  ⟨rfl, by decide⟩

/-! ### Scheduling and swapping (21, 14) -/

/-- A package in service with its queue table at 0, whose queue 0 has a valid descriptor: the ring of 16 entries at 0x1000, the write index of the
context at 192, `w` written, and an entry that names a kernel at 32. -/
abbrev mSched (w : Nat) : Mem :=
  ((((State.reset.mem.wr 40 8 (0x101_0120 + 2 ^ 32 * 16)).wr 192 8 w).wr 4096 8 (1 + 2 ^ 32 * 2)).wr 4104 8 32).wr 4112 8 0
abbrev desc0 : QDesc := { QDesc.none with valid := true, vmax := 16, smax := 8, slmax := 64, ring := 4096, logn := 4, widx := 192, monOk := true, budget := 1 }
abbrev sSched (w : Nat) (c : Ctx) : State :=
  let s := ({ State.reset with memsys := { State.reset.memsys with mem := mSched w } } : State).withFetchWord 64 0
  let s := (((s.l2Fill 0).l2Fill 1).l2Fill 32).setCtx 0 c
  { s with sched := { s.sched with qdtEn := true }, ctl := { s.ctl with step := 5 }, groups := [] }
abbrev cRes : Ctx := { Ctx.reset with desc := desc0, st := .resident, hw := some 0, widx := 1 }
theorem test_settled : Settled (sSched 1 cRes) 0 ∧ (sSched 1 cRes).sched.qdtEn = true ∧ (sSched 1 cRes).ctl.step = 5 ∧ (sSched 1 cRes).ctl.held = false ∧
    ((sSched 1 cRes).ctx 0).ridx ≠ ((sSched 1 cRes).ctx 0).widx := ⟨⟨rfl, rfl, ⟨rfl, rfl⟩⟩, by decide, by decide, by decide, by decide⟩
/-- The entry of a launch of two clusters and its kernel, within every allowance. -/
theorem test_entry : (∃ s1 b, (sSched 1 cRes).vread 0 0 4096 4 64 = .ok s1 b ∧ UsesOnly (sSched 1 cRes) s1 ∧
      (b.length == 64 && byteField b 0 0 8 == 1 && byteField b 0 32 32 == 2 && byteField b 1 5 52 * 32 == 32) = true ∧
      ∃ s2 kb, s1.vread 0 0 32 3 32 = .ok s2 kb ∧ UsesOnly s1 s2 ∧
        ((kernelOf kb).any fun k => k.lanes == 32 && k.vregs == 16 && k.setts == 0 && k.groups == 1) = true) ∧
    (sSched 1 cRes).schedCore 0 = 0 ∧ (0, false) ∈ ((sSched 1 cRes).partRec 0).rects 1 1 :=
  ⟨reads_twice ((sSched 1 cRes).vread 0 0 4096 4 64) (fun s1 => s1.vread 0 0 32 3 32) (sSched 1 cRes)
    (fun b => b.length == 64 && byteField b 0 0 8 == 1 && byteField b 0 32 32 == 2 && byteField b 1 5 52 * 32 == 32)
    (fun kb => (kernelOf kb).any fun k => k.lanes == 32 && k.vregs == 16 && k.setts == 0 && k.groups == 1) (by decide +kernel), by decide, by decide +kernel⟩
/-- Slices, residency and budget at their ends. -/
theorem test_slices : let s (t : Nat) : State := { sSched 1 { cRes with desc := { desc0 with slice := 1 }, waiting := 1000000 } with time := t }
    (s 250000).time = 0 + 250000 * 1 ∧ (s 249999).time < 250000 * ((s 0).ctx 0).desc.slice ∧ Settled (s 0) 0 ∧ ((s 0).ctx 0).desc.budget ≠ 0 ∧
    ((s 0).ctx 0).desc.budget * 1000000 ≤ ((s 0).ctx 0).waiting ∧ ((s 0).ctx 0).desc.snap = 0 ∧ ((s 0).ctx 0).desc.evt = 0 ∧ (s 0).sched.partEn = false ∧
    (cRes.waiting < cRes.desc.budget * 1000000) := by
  refine ⟨rfl, by decide, ⟨rfl, rfl, ⟨rfl, rfl⟩⟩, by decide, by decide, rfl, rfl, rfl, by decide⟩
/-- A contender: a READY context of a higher priority in a partition of one slot. -/
abbrev sContend : State :=
  let s := ({ sSched 1 { cRes with hw := some 0 } with sched := { (sSched 1 cRes).sched with partEn := true, parts := [(0, ⟨0xFF, 0, 1, true⟩)] } } : State)
  { s.setCtx 1 { Ctx.reset with desc := { desc0 with prio := 3 }, st := .ready } with time := 250000 }
theorem test_contender : (∃ x ∈ sContend.ctxsIn 0 .ready, (sContend.ctx 0).desc.prio + 1 ≤ sContend.effPrio x.1) ∧ sContend.freeHw (sContend.partRec 0) = [] ∧
    (∀ x ∈ sContend.ctxsIn 0 .resident, x.1 = 0) ∧ (sContend.ctx 0).residentAt + 250000 ≤ sContend.time ∧ sContend.ctxsIn 0 .ready ≠ [] := by decide
theorem test_mapping : let s : State := (sSched 1 cRes).setCtx 1 { Ctx.reset with desc := desc0, st := .ready }
    s.ctxsIn 0 .ready ≠ [] ∧ s.freeHw (s.partRec 1) ≠ [] ∧ s.ctl.held = false := by decide +kernel
/-- A write index at the ring's end and one beyond it. -/
theorem test_notify : (let s := sSched 16 { Ctx.reset with desc := desc0 }
      (s.ctx 0).st = .idle ∧ (s.ctx 0).removing = none ∧ (s.ctx 0).answer = none ∧ (s.readDesc 0).1.valid = false) ∧ 16 ≤ 0 + 2 ^ desc0.logn ∧ 0 + 2 ^ desc0.logn < 17 :=
  ⟨by decide, by decide, by decide⟩
theorem places_one (seed : Nat) (o : Occ) (n : GroupNeed) (q : Nat) (hq : quarterFor o n = some q) (hf : 0 < (freeSlots o q).length) (hp : n.paired = false) :
    (placeGroups seed o [n]).isSome = true := by
  have hi : Config.freeNat seed % (freeSlots o q).length < (freeSlots o q).length := Nat.mod_lt _ hf
  simp [placeGroups, hq, hp, List.getElem?_eq_getElem hi]
/-- A core with a free slot in a quarter takes a team of one group. -/
theorem takes_one (s : State) (own : Option Nat) (q core lanes nvr quarter : Nat) (o : Occ) (k : Nat) (hb : s.barred own core = false)
    (ho : s.occFor own core = (o, k)) (hc : (s.teamSlots core).length + k < 8) (hf : s.framesUsed core + 0 ≤ (s.coreSt core).nframe)
    (hq : quarterFor o ⟨lanes, nvr, false⟩ = some quarter) (hs : 0 < (freeSlots o quarter).length) :
    s.canTake own q core ⟨[⟨lanes, nvr, false⟩], 0, 0, []⟩ = true := by
  have hp := places_one s.free o ⟨lanes, nvr, false⟩ quarter hq hs rfl
  simp [State.canTake, State.coreTakes, State.benchFits, hb, ho, hc, hp]
  simpa using hf
/-- A grid to place, one that fits nowhere, a pending cluster. -/
abbrev grid0 (vregs : Nat) : Grid :=
  { gridid := 0, ridx := 0, chk := false, mon := false, after := false, clusters := 1, entryPos := 64, done := 0, args := List.replicate 12 0, lanes := 32,
    groups := 1, rows := 1, cols := 1, vregs := vregs, lease := 16, measured := false, setts := 0, placed := 0, live := 1, ended := false, arr := 0, gen := 0,
    node := none, before := [] }
abbrev sGrid (vregs : Nat) (p : Option Pending) : State := sSched 1 { cRes with grids := [grid0 vregs], pending := p }
theorem test_placement : nextGrids [grid0 32] = [0] ∧ (0, false) ∈ ((sGrid 32 none).partRec 0).rects 1 1 ∧ rectCores 1 1 false 0 = [0] ∧
    ({ sGrid 32 none with free := 1 } : State).canTake none 0 0 (grid0 32).need = true ∧ quarterFor ((sGrid 2048 none).occ 0) ⟨32, 2048, false⟩ = none :=
  ⟨by decide +kernel, by decide +kernel, by decide, takes_one { sGrid 32 none with free := 1 } none 0 0 32 32 0 [] 0 (by decide) (by decide) (by decide) (by decide) (by decide) (by decide),
   by decide⟩
abbrev sPend : State := sGrid 32 (some ⟨0, 0, false, [], 0, false⟩)
theorem test_reserve : let s := sPend
    Settled s 0 ∧ 0 ∈ rectCores 1 1 false 0 ∧ s.canTake (some 0) 0 0 (grid0 32).need = true ∧ s.pendings (some 0) = [] ∧ (∀ k ∈ rectCores 1 1 false 0, k = 0) ∧
    0 + 1000 * s.sched.age < ({ s with time := 1000001 } : State).time ∧ s.time ≤ 0 + 1000 * s.sched.age :=
  ⟨⟨rfl, rfl, ⟨rfl, rfl⟩⟩, by decide, takes_one sPend (some 0) 0 0 32 32 0 [] 0 (by decide) (by decide) (by decide) (by decide) (by decide) (by decide), by decide,
   by decide, by decide, by decide⟩
theorem test_launch : (grid0 32).lanes ≤ 32 ∧ (grid0 32).args.length = 12 := by decide
/-- PART records: the last slot, one beyond, two that overlap. -/
theorem test_part : (let v : BitVec 64 := BitVec.ofNat 64 (63 * 2 ^ 8 + 2 ^ 14 + 2 ^ 21); (v.extractLsb' 8 6).toNat + (v.extractLsb' 14 7).toNat = 64) ∧
    (let v : BitVec 64 := BitVec.ofNat 64 (63 * 2 ^ 8 + 2 * 2 ^ 14); 64 < (v.extractLsb' 8 6).toNat + (v.extractLsb' 14 7).toNat) ∧
    (∃ x ∈ sContend.sched.parts, x.1 ≠ 1 ∧ x.2.en = true ∧ x.2.slot0 < 0 + 1 ∧ 0 < x.2.slot0 + x.2.nslot) ∧ ¬ (∃ x ∈ State.reset.ctxs, x.2.st = .resident) := by decide

/-- A context whose save, removal and restore have been asked for. -/
abbrev sSave (save : Option Bool) (removing : Option Bool) (snapped : Bool) : State :=
  s0.setCtx 0 { s0.ctx 0 with save := save, removing := removing, snapped := snapped }
theorem test_save : ((sSave (some true) none true).ctx 0).st = .resident ∧ ((sSave (some true) none true).ctx 0).image = none ∧
    ((sSave (some true) none true).ctx 0).save = some true ∧ ((sSave (some true) none true).ctx 0).snapped = true ∧
    ((sSave (some true) none false).ctx 0).snapped = false ∧ ((sSave (some false) none false).ctx 0).desc.budget = 0 ∧
    (∀ p ∈ (sSave (some true) none true).groups, p.2.leader = none ∧ p.2.inflight = [] ∧ p.2.statuses = [] ∧ p.2.trace = [] ∧ p.2.shadow = none ∧
      p.2.stops.unwritten = []) ∧ (∀ p ∈ (sSave (some true) none true).teams, p.2.setts = []) ∧ ((sSave (some true) none true).ctx 0).posts = [] ∧
    (sSave (some true) none true).shadowUsed + ((sSave (some true) none true).imageOf 0).bytes ≤ 768 * 2 ^ 20 := by decide +kernel
theorem test_save_due : (s0.setCtx 0 { s0.ctx 0 with saveDue := true }).shadowRoom 0 = true ∧ ((s0.setCtx 0 { s0.ctx 0 with saveDue := true }).ctx 0).saveDue = true ∧
    (s0.ctx 0).save = none := by decide +kernel
theorem test_removal : ((sSave none (some false) false).ctx 0).removing = some false ∧ (sSave none (some false) false).groupsOf 0 = [(0, 0, g0)] ∧
    (sSave none (some false) false).cmdsOf 0 0 = [] ∧ g0.allMask ≠ 0 ∧ (sSave none (some true) false).groupsOf 0 ≠ [] ∧
    ({ sSave none (some true) false with groups := [] } : State).groupsOf 0 = [] ∧ ((sSave none (some true) false).ctx 0).desc.evt = 0 := by decide
abbrev sGone : State := { sSave none (some true) false with groups := [] }
theorem test_removed : (sGone.ctx 0).posts = [] ∧ ∃ s1, sGone.vwrite (sGone.schedCore 0) 0 0 9 (leBytes 8 2) = .ok s1 () ∧
    (fun s1 : State => decide (s1.ctxs = sGone.ctxs) && decide (s1.groups = [])) s1 = true :=
  ⟨by decide, writes_with (sGone.vwrite (sGone.schedCore 0) 0 0 9 (leBytes 8 2)) (fun s1 => decide (s1.ctxs = sGone.ctxs) && decide (s1.groups = [])) (by decide +kernel)⟩
/-- An image of one group and its team and cluster, to be placed again; a team to move. -/
abbrev cl0 : Cluster := ⟨0, 0, 0, 0, 1, 1, false, [], 0, []⟩
abbrev team0 : Team := ⟨0, 0, 0, 0, 0, 0, [], [], 0, [], 0, 1, 0⟩
abbrev image0 : Image := ⟨[⟨0, 0, { g0 with act := ⟨.parked, false, 5, 0, none, 0⟩ }⟩], [(0, team0)], [(0, cl0)], []⟩
abbrev sImage : State := sSched 1 { cRes with image := some image0 }
theorem adopt_cmds (s : State) (core ts : Nat) (x : SavedGroup) (sh : Option Group) (p : Nat × Option Nat) : (s.adopt core ts x sh p).cmds = s.cmds := by
  simp only [State.adopt]
  split <;> rfl
/-- A core that can take a team of one group adopts it. -/
theorem adopts_one (s : State) (q core : Nat) (im : Image) (t : Team) (x : SavedGroup) (n : GroupNeed) (hn : im.need t = ⟨[n], 0, 0, []⟩)
    (hl : im.leaders t = [x]) (hc : s.canTake none q core ⟨[n], 0, 0, []⟩ = true)
    (hf : 0 < ((List.range 8).filter fun k => (s.team? core k).isNone).length) : ∃ r, s.adoptTeam q im t core = some r ∧ r.1.cmds = s.cmds := by
  have hp : (placeGroups s.free (s.occFor none core).1 [n]).isSome = true := by
    have h := hc
    simp only [State.canTake, State.coreTakes, Bool.and_eq_true] at h
    exact h.2.2
  obtain ⟨pl, hpl⟩ := Option.isSome_iff_exists.mp hp
  have hi := Nat.mod_lt (Config.freeNat (s.free + 2)) hf
  simp only [State.adoptTeam, hn, hc, hl, hpl, State.choose, List.length_singleton, Nat.mul_one, Bool.not_true, Bool.false_eq_true, if_false,
    List.getElem?_eq_getElem hi, Option.bind_eq_bind, Option.bind_some]
  refine ⟨_, rfl, ?_⟩
  cases pl with
  | nil => rfl
  | cons p ps => simp only [List.zip_cons_cons, List.zip_nil_left, List.foldl_cons, List.foldl_nil, adopt_cmds]; rfl
theorem feasible0 : sImage.feasible 0 (sImage.partRec 0) image0 = true := by
  have hr : (0, false) ∈ (sImage.partRec 0).rects 1 1 := by decide +kernel
  let s1 : State := { sImage.emptied with clusters := Tbl.put sImage.emptied.clusters sImage.emptied.nextId { cl0 with origin := 0, trans := false }
                                          nextId := sImage.emptied.nextId + 1 }
  obtain ⟨r, hr1, hr2⟩ := adopts_one s1 0 0 image0 team0 ⟨0, 0, { g0 with act := ⟨.parked, false, 5, 0, none, 0⟩ }⟩ ⟨32, 256, false⟩ (by decide) (by decide)
    (takes_one s1 none 0 0 32 256 0 [] 0 (by decide) (by decide) (by decide) (by decide) (by decide) (by decide)) (by decide)
  have ha : sImage.emptied.adoptAt 0 image0 cl0 (0, false) = some (r.1, r.2) := by
    have ht : image0.teamsOf cl0 = [team0] := by decide
    have hk : (rectCores cl0.rows cl0.cols false 0).getD team0.teamid 0 = 0 := by decide
    simp only [State.adoptAt, ht, List.foldlM_cons, List.foldlM_nil, hk]
    rw [show State.adoptTeam _ 0 image0 team0 0 = some r from hr1]
    rfl
  have hx : (r.1.moveCmds image0.cmds ([] ++ r.2)).tablesHold = true := by
    have : (r.1.moveCmds image0.cmds ([] ++ r.2)).cmds = [] := by
      simp only [State.moveCmds, hr2]
      rfl
    rw [State.tablesHold, List.all_eq_true]
    intro b _
    rw [State.benchCmds, this]
    rfl
  simp only [State.feasible, Bool.and_eq_true]
  refine ⟨⟨by decide, by decide⟩, ?_⟩
  show sImage.emptied.placeable 0 _ image0 [] [(0, cl0)] = true
  simp only [State.placeable, List.any_eq_true]
  exact ⟨(0, false), hr, by rw [ha]; exact hx⟩
theorem test_restore : (sImage.ctx 0).image = some image0 ∧ (sImage.ctx 0).restorePart = none ∧ (sImage.ctx 0).resumes = [] ∧ (sImage.ctx 0).answer = none ∧
    sImage.pendings none = [] ∧ sImage.tablesHold = true ∧
    (0, false) ∈ (sImage.partRec 0).rects 1 1 ∧ sImage.canTake none 0 0 ⟨[⟨32, 256, false⟩], 0, 0, []⟩ = true ∧ sImage.feasible 0 (sImage.partRec 0) image0 = true :=
  ⟨by decide, by decide, by decide, by decide, by decide, by decide +kernel, by decide +kernel,
   takes_one sImage none 0 0 32 256 0 [] 0 (by decide) (by decide) (by decide) (by decide) (by decide) (by decide), feasible0⟩
abbrev sTeam : State := { s0.setTeam 0 0 team0 with clusters := [(0, cl0)] }
theorem test_migration : Settled sTeam 0 ∧ sTeam.team? 0 0 = some team0 ∧ sTeam.group? 0 0 = some g0 ∧ (sTeam.partRec 0).has 1 = true ∧
    List.find? (fun c : Nat × Cluster => c.2.queue == 0 && c.2.grid == 0 && c.2.cluid == 0) sTeam.clusters = some (0, cl0) ∧
    sTeam.framesUsed 1 ≤ (sTeam.coreSt 1).nframe ∧ sTeam.pendings none = [] ∧ sTeam.tablesHold = true ∧ sTeam.canTake none 0 1 ⟨[⟨32, 256, false⟩], 0, 0, []⟩ = true :=
  ⟨⟨rfl, rfl, ⟨rfl, rfl⟩⟩, rfl, rfl, by decide, by decide, by decide, by decide, by decide +kernel,
   takes_one sTeam none 0 1 32 256 0 [] 0 (by decide) (by decide) (by decide) (by decide) (by decide) (by decide)⟩

/-! ### Dies, stacks, shapes (18) -/

theorem test_dies : (s0.die 3).cethr ≤ 0x40 ∧ (s0.die 3).tlow.toInt = -10 ∧ (s0.die 3).thigh.toInt = 105 ∧ (s0.die 3).force = 0 ∧
    (BitVec.ofInt 8 (-10)).toInt ≤ (s0.die 3).tlow.toInt ∧ ({ s0.die 3 with hotAt := some 0 } : Die).lastHot = some 0 ∧ 99999999 < 0 + 100000000 ∧
    ({ s0.die 3 with cethr := 1, ceTimes := [0] } : Die).lastHot = some 1000000 := by decide
/-- What a die, a stack and the winding see at reset (18 R338, R345, 23 R411). -/
theorem test_figures : ((s0.die 3).ceTimes.filter fun t => s0.time < t + 1000000).length = 0 ∧ (s0.die 3).jlow.toInt = 0 ∧ (s0.die 3).jhigh.toInt = 0 ∧
    (s0.die 3).lastHot = none ∧ ((s0.stack 0).temp.toInt - (Tbl.getD (s0.stack 0).trained 0 0).toInt).natAbs = 0 ∧
    ((s0.stack 0).ceTimes.filter fun e => decide (e.1 = 0 ∧ s0.time < e.2 + 1000000)).length = 0 ∧
    (∀ d, d < 4 → (0 : Int) ≤ (s0.die d).jlow.toInt) ∧ (∃ d, d < 4 ∧ (0 : Int) = (s0.die d).jlow.toInt) :=
  ⟨by decide, by decide, by decide, by decide, by decide, by decide, by decide, 0, by decide, by decide⟩
/-- A die with line 5 in the other mode, and with a word of it beyond what either mode corrects (18 R337). -/
theorem test_lines : [5].Nodup ∧ (∀ l ∈ [5], l < dieLines) ∧ ({ s0.die 3 with mode := true, odd := [5] } : Die).modeOf 5 = false ∧
    (∃ p ∈ ([(40, 3)] : Tbl Nat), p.1 / 8 = 5 ∧ (if ({ s0.die 3 with mode := true } : Die).modeOf 5 then 2 else 1) < p.2) := by
  refine ⟨by decide, ?_, by decide, by decide⟩
  intro l h
  rw [List.mem_singleton.mp h, dieLines]
  omega
theorem test_retrain : (s0.stack 11).en = true ∧ (s0.stack 11).ethr ≤ 0x100 ∧ (s0.stack 11).active = false ∧ (s0.stack 11).queue = [] ∧
    8 ≤ ((8 : BitVec 8).toInt - (0 : BitVec 8).toInt).natAbs ∧
    1 ≤ (([(31, 0)] : List (Nat × Nat)).filter fun e => decide (e.1 = 31 ∧ 999999 < e.2 + 1000000)).length ∧
    ((s0.setStack 11 { s0.stack 11 with queue := [31], requeue := [(5, 0)], closedAt := some 0 }).stack 11).queue = 31 :: [] ∧
    (∀ x, some 0 = some x → x + 100000 ≤ 100000) ∧ (∃ x, some 0 = some x ∧ 99999 < x + 100000) ∧
    (∃ x, (5, x) ∈ ([(5, 0)] : List (Nat × Nat)) ∧ x + 1000000 ≤ 1000000) := by
  refine ⟨by decide, by decide, by decide, by decide, by decide, by decide, by decide, ?_, ⟨0, rfl, by decide⟩, ⟨0, by decide, by decide⟩⟩
  rintro x ⟨⟩
  decide
/-- Shape records: the last units, one beyond (18 R333, R334). -/
theorem test_shapes : (let v : BitVec 64 := BitVec.ofNat 64 (61439 + 2 ^ 16 + 2 ^ 32); (v.extractLsb' 0 16).toNat + (v.extractLsb' 16 16).toNat = 61440) ∧
    s0.memsys.shapeBusy = false ∧ (({ s0 with memsys := { s0.memsys with shapeBusy := true, shapeRanges := [(0xC00000, 0xC00000)] } } : State).memsys.l2.all
      fun x => decide (lpaOf (x.1 * 32) < 0xC00000)) = true := by decide
/-- A valid descriptor of an idle queue, with the ring's end and one beyond written as its write index. -/
abbrev sDesc (w : Nat) : State :=
  let m := (((State.reset.mem.wr 192 8 w).wr 4096 8 (1 + 2 ^ 32)).wr 4112 8 (4 + 8192)).wr 4120 8 192
  let s := ({ State.reset with memsys := { State.reset.memsys with mem := m } } : State).withFetchWord 64 0
  let s := (s.l2Fill 1).setCtx 0 { s.ctx 0 with st := .idle }
  { s with sched := { s.sched with qdtEn := true, qdtBase := 4096 }, ctl := { s.ctl with step := 5 } }
theorem test_notify_valid : ((sDesc 16).readDesc 0).1.valid = true ∧ ((sDesc 16).readDesc 0).2 = 0 ∧ ((sDesc 16).readDesc 0).1.logn = 4 ∧
    ((sDesc 16).readDesc 0).1.evt = 0 ∧ ((sDesc 16).ctx 0).st = .idle ∧ ((sDesc 16).ctx 0).removing = none := by decide +kernel
theorem test_notify_index (w : Nat) (hw : w = 16 ∨ w = 17) :
    let d := (sDesc w).readDesc 0
    let s1 := (sDesc w).setCtx 0 { (sDesc w).ctx 0 with desc := d.1, ridx := d.2, widx := d.2, overflow := false }
    ∃ s2 b, s1.vread (s1.schedCore 0) 0 192 2 8 = .ok s2 b ∧ UsesOnly s1 s2 ∧ (b.length == 8 && valueIn (fun a => b.getD a 0) 0 8 == w) = true := by
  intro d s1
  rcases hw with rfl | rfl
  · exact reads_with _ _ (fun b : List Byte => b.length == 8 && valueIn (fun a => b.getD a 0) 0 8 == 16) (by decide +kernel)
  · exact reads_with _ _ (fun b : List Byte => b.length == 8 && valueIn (fun a => b.getD a 0) 0 8 == 17) (by decide +kernel)

/-! ### The host port and management (23) -/

/-- A package in service with a window of 64 bytes at 4096 under key 9 that may be written and not read. -/
abbrev sHost : State := { s0 with ctl := { s0.ctl with step := 5, windows := [(3, ⟨4096, 64, 9, false, true, 0⟩)] } }
theorem no_partition (part : Nat) : ¬ OtherPartition sHost 0 part := fun h => absurd h.1 (by decide)
theorem test_windows : Windowed sHost 0 9 4096 64 true ∧ ¬ Windowed sHost 0 9 4096 65 true ∧ ¬ Windowed sHost 0 9 4096 1 false ∧ CleanAlone sHost ∧
    ∀ p ∈ sHost.ctl.packets, p.qp ≠ 0 := by
  refine ⟨⟨_, List.mem_singleton.mpr rfl, by decide, by decide, by decide, by decide, no_partition _⟩, ?_, ?_,
    ⟨⟨rfl, rfl, rfl, good_stacks _ rfl rfl rfl rfl⟩, own_l2 _ (by decide +kernel), by decide⟩, by decide⟩
  · rintro ⟨p, hp, h⟩
    rw [List.mem_singleton.mp hp] at h
    exact absurd h.2.2.1 (by decide)
  · rintro ⟨p, hp, h⟩
    rw [List.mem_singleton.mp hp] at h
    exact absurd h.2.2.2.1 (by decide)
/-- A write whose channel is in its retraining window waits, and one of its queue pair behind it. -/
abbrev packet0 : RdmaPacket := ⟨0, true, 9, 4096, [1], 0⟩
abbrev sLate : State :=
  let c := (sHost.memsys.place 4096).chan
  { sHost.setStack (c / 32) { sHost.stack (c / 32) with active := true, chan := c % 32 } with ctl := { sHost.ctl with packets := [packet0, packet0] } }
theorem test_packet_waits : (sLate.ctl.packets.filter fun x => x.qp == 0) = packet0 :: [packet0] ∧ (match sLate.performPacket packet0 with
    | .wait _ => true
    | _ => false) = true := by decide +kernel
/-- Commands as words: an OP, an argument, an address. -/
abbrev cmdWords (op arg a : Nat) : MgmtWords := [BitVec.ofNat 64 (op + 2 ^ 32 * arg), BitVec.ofNat 64 a, 0, 0, 0, 0, 0, 0]
theorem pair_free : PairFree sHost 0 := by
  refine ⟨fun p hp a ha => ?_, fun a ha => ?_⟩
  · have h : ∀ p ∈ sHost.ctxs, p.2.answer = none := by decide
    rw [h p hp] at ha
    cases ha
  · have h : sHost.ctl.attesting = [] := rfl
    rw [h] at ha
    cases ha
theorem ctx_free : CtxFree sHost 0 := by
  refine ⟨by decide, fun a ha => ?_⟩
  have h : sHost.ctl.attesting = [] := rfl
  rw [h] at ha
  cases ha
theorem taken (op arg a : Nat) (h : cmdField (cmdWords op arg a) 0 8 = op) (hz : cmdField (cmdWords op arg a) 8 8 = 0) : Taken sHost 0 op (cmdWords op arg a) :=
  ⟨h, hz, pair_free, .inl rfl⟩
theorem test_commands : Taken sHost 0 1 (cmdWords 1 0 0x5000) ∧ Taken sHost 0 10 (cmdWords 10 255 0) ∧ Taken sHost 0 3 (cmdWords 3 0 4096) ∧
    cmdField (cmdWords 10 255 0) 32 32 = 255 ∧ cmdField (cmdWords 4 16384 0) 32 32 = 16384 ∧ (0x5000 < 2 ^ 40 ∧ 0x5000 % 8 = 0) ∧ firmwareRange 0xC5000 = true ∧
    (sHost.ctx 0).answer = none ∧ (sHost.ctx 0).st ≠ .saved ∧ s0.ctl.step ≠ 5 ∧ cmdField [BitVec.ofNat 64 0x102, 0] 8 8 ≠ 0 ∧ cmdField [BitVec.ofNat 64 11, 0] 0 8 = 11 :=
  ⟨taken _ _ _ (by decide) (by decide), taken _ _ _ (by decide) (by decide), taken _ _ _ (by decide) (by decide), by decide, by decide, by decide, by decide,
   by decide, by decide, by decide, by decide, by decide⟩
/-- Partitions on and no queue pair known to be a member: the hypothesis of status 2 rests on the configuration, that of its negation does not. -/
theorem test_partition : ¬ OtherPartition sHost 0 3 ∧ sHost.queuePart 0 = (sHost.ctx 0).desc.part := ⟨no_partition 3, by decide⟩
theorem test_saved : let s : State := { sHost with ctxs := [(0, { sHost.ctx 0 with st := .saved, image := some image0 })] }
    (s.ctx 0).st = .saved ∧ (s.ctx 0).image ≠ none ∧ (s.ctx 0).removing = none ∧ (s.ctx 0).answer = none := by decide
theorem test_mailbox : sHost.ctl.inFull = false ∧ sHost.ctl.send = false ∧ ({ sHost with ctl := { sHost.ctl with send := true, inFull := true } } : State).ctl.send = true := by decide
theorem test_winset : 720 * 2 ^ 30 - 64 + 64 ≤ 720 * 2 ^ 30 ∧ cmdField (cmdWords 9 1023 0) 32 32 = 1023 ∧ cmdField (cmdWords 9 1024 0) 32 32 = 1024 := by decide

/-- A container with the one segment that the statement describes, at 4096, for an idle context with a valid descriptor at 64. -/
abbrev mLoad : Mem :=
  ((((((((State.reset.mem.wr 64 8 (1 + 2 ^ 32)).wr 80 8 (4 + 8192)).wr 4096 8 (0x31435856 + 2 ^ 32))).wr 4128 8 (3 + 2 ^ 8 * 7 + 2 ^ 16 * 3)).wr 4168 8 96).wr 4176 8 0))
abbrev sLoad : State :=
  { State.reset with memsys := { State.reset.memsys with mem := mLoad }, sched := { State.reset.sched with qdtBase := 64 }
                     ctl := { State.reset.ctl with step := 5, windows := [(0, ⟨0, 4096, 0, true, true, 0⟩)] } }
theorem test_load : let val (off n : Nat) : Nat := valueIn (fun i => sLoad.byteAt (4096 + i)) off n
    (sLoad.ctx 0).st = .idle ∧ (sLoad.ctx 0).removing = none ∧ (sLoad.readDesc 0).1.valid = true ∧ sLoad.hasWork 0 = false ∧ val 0 4 = 0x31435856 ∧ val 4 2 = 1 ∧
    val 24 8 = 0 ∧ val 32 1 = 3 ∧ val 33 1 = 7 ∧ val 34 1 = 3 ∧ val 35 5 = 0 ∧ val 40 8 = 0 ∧ val 48 8 = 0 ∧ val 56 8 % 2 ^ val 34 1 = 0 ∧ val 64 8 = 0 ∧
    val 72 8 + val 80 4 ≤ 96 ∧ val 84 12 = 0 := by decide +kernel
theorem test_load_clean : CleanAlone sLoad ∧ 4096 + 96 ≤ 720 * 2 ^ 30 :=
  ⟨⟨⟨rfl, rfl, rfl, good_stacks _ rfl rfl rfl rfl⟩, own_l2 _ (by decide), by decide⟩, by decide⟩
theorem test_attest : Tbl.find? sLoad.ctl.windows 0 = some ⟨0, 4096, 0, true, true, 0⟩ ∧ Tbl.find? sLoad.ctl.windows 1 = none := by decide
/-- The record fits the window of 4096 bytes where the LMS signature, whose length the spec does not give, is no longer than 3840. -/
theorem test_attest_fits (body : List Byte) (hb : body.length = 152) (h : (Config.identityLms body).length ≤ 3840) :
    (body ++ (Config.identityEcdsa body ++ List.replicate 96 0).take 96 ++ List.replicate 8 0 ++ Config.identityLms body).length ≤ 4096 := by
  simp only [List.length_append, List.length_take, List.length_replicate, hb]
  omega
/-- The wrapped key of RFC 3394 4.6 under its key: what a KEYSET unwraps where the transport key is that one. -/
abbrev kek : List Byte := (List.range 32).map fun i => BitVec.ofNat 8 i
abbrev wrapped0 : List Byte := (leBytes 40 0x28C9F404C4B810F4CBCCB35CFB87F8263F5786E2D80ED326CBC7F0E71A99F43BFB988B9B7A02DD21).reverse
theorem test_unwrap : keyUnwrap kek wrapped0 = some (leBytes 32 0x00112233445566778899AABBCCDDEEFF000102030405060708090A0B0C0D0E0F).reverse := by
  decide +kernel
/-- The digest of "abc" (FIPS 180-4). -/
theorem test_sha384 : sha384 [0x61, 0x62, 0x63] =
    (leBytes 48 0xCB00753F45A35E8BB5A03D699AC65007272C32AB0EDED1631A8B605A43FF5BED8086072BA1E7CC2358BAECA134C825A7).reverse := by decide +kernel
theorem test_unwrap_none : (Tbl.find? sLoad.ctl.tenants 0) = none := by decide

/-! ### The controller (23) -/

/-- The winding's steps at their temperatures, the regulator at its lowest step, the module's limit. -/
theorem test_winding : let s (k : Nat) : State := { s0 with ctl := { s0.ctl with step := k } }
    s0.ctl.step = 1 ∧ s0.ctl.rewait = false ∧ Tbl.getD (s 2).ctl.retries 3 0 < 2 ∧ (s 2).ctl.passed.getLsbD 3 = false ∧ (s 2).ctl.fenced.getLsbD 3 = false ∧
    -25 ≤ (BitVec.ofInt 8 (-25)).toInt ∧ ¬ -25 ≤ (BitVec.ofInt 8 (-26)).toInt ∧ -5 ≤ (BitVec.ofInt 8 (-5)).toInt ∧ ¬ -5 < (BitVec.ofInt 8 (-5)).toInt ∧
    (s 5).ctl.step = 5 ∧ ((s 5).die 3).freq = 48 ∧ ((s 5).die 3).recent = 0 ∧ ({ s0 with ctl := { s0.ctl with held := true } } : State).ctl.held = true := by
  decide

/-! ### The fabric (24) -/

/-- A domain of this package 0 of cell 0 and package 1 of cell 1; a granule shared with package 1; a request to its home. -/
abbrev sFab (dir : Tbl DirEnt) (reqs : List Req) : State :=
  { s0 with memsys := { s0.memsys with l2 := [] }
            fabric := { s0.fabric with en := true, dom := [(0, ⟨true, 0, 0, false⟩), (1, ⟨true, 1, 0, false⟩)], dir := dir, reqs := reqs
                                       masks := [(1, (0, 0)), (0, (3, 3))] } }
theorem test_home : AsksHome (sFab [] []) 1 0 ∧ FirewallOpen (sFab [] []) 1 0 true true ∧ ¬ FirewallOpen (sFab [] []) 1 (2 ^ 21) true false ∧
    ¬ InRelease (sFab [] []) 1 0 ∧ Tbl.getD (sFab [] []).fabric.rate 1 0 = 0 ∧ Unheld (sFab [] []) 0 ∧ ¬ AsksHome (sFab [] []) 2 0 ∧
    AsksHome (sFab [] []) 1 (dirBase - 128) ∧ ¬ AsksHome (sFab [] []) 1 dirBase :=
  ⟨⟨by decide, by decide, by decide⟩, .inr ⟨fun _ => by decide, fun _ => by decide⟩,
   fun h => h.elim (fun e => absurd e (by decide)) fun h => absurd (h.1 rfl) (by decide), fun h => absurd h.1 (by decide), by decide,
   ⟨by decide, by decide, by decide, by decide, by decide, ⟨by decide, by decide, by decide⟩⟩, fun h => absurd h.live.1 (by decide), ⟨by decide, by decide, by decide⟩,
   fun h => absurd h.data (by decide)⟩
/-- An open write of a party here to the word that package 1 reads (13 R235), and its absence. -/
abbrev sMet : State := { sFab [] [] with track := { (sFab [] []).track with acc := [⟨7, 0, 0, .write, false, 5⟩] } }
theorem test_home_conflict : (⟨7, 0, 0, .write, false, 5⟩ : Track) ∈ sMet.track.acc ∧ (0 : Nat) = sMet.granuleNo 0 * 32 + 0 % 32 ∧
    sMet.track.openAt 7 (sMet.scopeOf 1) 5 (Tbl.getD sMet.track.farStart 1 0) = true ∧ (sFab [] []).track.acc = [] ∧ (sFab [] []).track.cmds = [] ∧
    GoodStacks (sFab [] []) ∧ OwnL2 (sFab [] []) ∧ (sFab [] []).inWindow 0 = false :=
  ⟨by decide, by decide, by decide, rfl, rfl, good_stacks _ rfl rfl rfl rfl, own_l2 _ (by decide), by decide⟩
abbrev dirEnt0 (st : DirSt) (owner : Nat) : DirEnt := ⟨st, 0, owner, 0, 2, 0⟩
theorem test_shared : (sFab [(0, dirEnt0 .s 0)] []).dirEnt 0 = some (dirEnt0 .s 0) ∧ 0 ∉ (sFab [] []).fabric.sweep ∧
    HeldBy (sFab [(0, dirEnt0 .s 0)] []) (dirEnt0 .s 0) 1 ∧ (sFab [(0, dirEnt0 .e 1)] []).dirEnt 0 = some (dirEnt0 .e 1) ∧
    (sFab [(0, dirEnt0 .m 1)] []).dirEnt 0 = some (dirEnt0 .m 1) ∧ Tbl.find? (sFab [] []).fabric.supplied 0 = none :=
  ⟨by decide, by decide, ⟨⟨true, 1, 0, false⟩, by decide, rfl, by decide⟩, by decide, by decide, by decide⟩
/-- Two more packages of cell 1, one that asks and one that owns. -/
theorem test_owner : (dirEnt0 .e 1).owner ≠ 2 ∧ (dirEnt0 .e 1).owner ≠ (sFab [] []).fabric.self ∧ (sFab [] []).granuleNo 5 = 5 := by decide
theorem test_released : InRelease { sFab [] [] with fabric := { (sFab [] []).fabric with extents := [(0, ⟨2, 1, false⟩)] } } 1 0 := ⟨by decide, by decide⟩
theorem test_rate : let s : State := { sFab [] [] with fabric := { (sFab [] []).fabric with rate := [(1, 5)], bucket := [(1, 65409)] } }
    Tbl.getD s.fabric.rate 1 0 ≠ 0 ∧ 65536 < Tbl.getD s.fabric.bucket 1 0 + 128 ∧ Tbl.getD s.fabric.bucket 1 0 ≠ 0 := by decide
theorem test_replay : let r : Replay := ⟨1, 7, 3, 0⟩
    let s (t : Nat) : State := { sFab [] [] with time := t, fabric := { (sFab [] []).fabric with replay := [r] } }
    ((s 0).fabric.replay.find? fun r => r.pkg == 1 && r.seq == 7) = some r ∧ ((s 0).fabric.replay.find? fun r => r.pkg == 1 && r.seq == 8) = none ∧
    (s 199999).time < r.at_ + 200000 ∧ r.at_ + 200000 ≤ (s 200000).time := by decide
/-- A request of this package, before, at and after half of its timer and all of it (24 R428). -/
abbrev req0 (kind : Nat) (resp : Option (Nat × List Byte)) : Req := ⟨4, kind, 0, 2 ^ 51, 128, 0, some 0, none, 0, 1000, true, false, resp⟩
theorem is_request (kind : Nat) (resp : Option (Nat × List Byte)) : IsRequest (sFab [] [req0 kind resp]) (req0 kind resp) :=
  ⟨List.mem_singleton.mpr rfl, fun _ h _ => List.mem_singleton.mp h⟩
theorem test_request : IsRequest (sFab [] [req0 0 none]) (req0 0 none) ∧ IsRequest (sFab [] [req0 2 (some (0xFF, []))]) (req0 2 (some (0xFF, []))) ∧
    (req0 0 none).sent = true ∧ (req0 0 none).at_ + Nat.min ((req0 0 none).timer / 2) 100000 = 500 ∧ (req0 0 none).at_ + (req0 0 none).timer = 1000 ∧
    homeOf (2 ^ 51) ≠ (sFab [] []).fabric.self ∧ (List.replicate 133 (0 : Byte)).length = 133 ∧
    (sFab [] []).memsys.lines.length < 16 :=
  ⟨is_request _ _, is_request _ _, rfl, by decide, by decide, by decide, List.length_replicate, by decide⟩
/-- Holder states of a remote granule. -/
abbrev sCopy (h : Holder) : State := { sFab [] [] with memsys := { s0.memsys with l2 := (List.range 4).map fun k => (2 ^ 46 + k, ⟨0, false, 0, h, 0, 0⟩) } }
theorem test_copies : homeOf (2 ^ 51) ≠ 0 ∧ (sCopy .m).holderOf (2 ^ 44) = some .m ∧ (sCopy .e).holderOf (2 ^ 44) = some .e ∧ (sCopy .c).holderOf (2 ^ 44) = some .c ∧
    (sFab [] []).holderOf (2 ^ 44) = none := by decide
theorem test_backs : let b : Back := ⟨3, 2 ^ 51, true, []⟩
    let f := { (sFab [] []).fabric with backs := [b], dirqGo := true, dirqAddr := 0 }
    b ∈ f.backs ∧ (∀ x ∈ f.backs, x.id = b.id → x = b) ∧ f.dirqGo = true ∧ (sFab [] []).fabric.dirqGo = false := by decide
/-- Firewall changes: the last block and one beyond; one in progress. -/
theorem test_firewall : (let v : BitVec 64 := BitVec.ofNat 64 (2 ^ 62 + 368639); v.getLsbD 62 = true ∧ (v.extractLsb' 0 19).toNat ≤ 368639) ∧
    (let v : BitVec 64 := BitVec.ofNat 64 (2 ^ 62 + 368640); ¬ (v.extractLsb' 0 19).toNat ≤ 368639) ∧
    (let s : State := { sFab [(0, dirEnt0 .s 0)] [] with fabric := { (sFab [(0, dirEnt0 .s 0)] []).fabric with fwBusy := true, fwChanging := 0, masks := [(0, (1, 1))] } }
     s.fabric.fwBusy = true ∧ s.fabric.dir = [(0, dirEnt0 .s 0)] ∧ (s.fwMasks s.fabric.fwChanging).1.getLsbD (s.cellOf 1) = false) := by decide
/-- Extents in each state; a cell that has been silent for TDEAD; a sweep of one granule whose owner is dead. -/
theorem test_extents : let s (st : Nat) : State := { sFab [] [] with fabric := { (sFab [] []).fabric with extents := [(696, ⟨st, 1, false⟩)] } }
    ((s 0).extent 696).st = 0 ∧ ((s 1).extent 696).st = 1 ∧ ((s 2).extent 696).st = 2 ∧ (s 1).fabric.deadMask.getLsbD 1 = false := by decide
theorem test_death : let s : State := { sFab [] [] with time := 1000000 }
    s.fabric.en = true ∧ 1 ≠ s.ownCell ∧ s.fabric.deadMask.getLsbD 1 = false ∧ Tbl.getD s.fabric.heard 1 0 + 1000 * s.fabric.tdead ≤ s.time ∧
    ¬ Tbl.getD s.fabric.heard 1 0 + 1000 * s.fabric.tdead ≤ 999999 ∧ (∃ p ∈ s.fabric.dom, p.2.valid = true ∧ p.2.cell ≠ s.ownCell) ∧
    (∀ p ∈ s.fabric.dom, p.2.valid = true → p.2.cell ≠ s.ownCell → Tbl.getD s.fabric.heard p.2.cell 0 + 1000 * s.fabric.tdead ≤ s.time) := by decide
theorem test_nothing_written : NothingWritten (sFab [] []) := by
  intro i h
  cases h
/-- A shape change whose units hold a copy of another package; one with a dirty copy here whose channel is in its window (18 R334, R346). -/
theorem test_shape_waits : (sFab [(0, dirEnt0 .s 0)] []).heldElsewhere 0 0xC00000 ≠ [] ∧
    (let c := (s0.memsys.place 0).chan
     ((s0.setL2 [(0, ⟨0, true, 0, .home, 0, 0⟩)]).setStack (c / 32) { s0.stack (c / 32) with active := true, chan := c % 32 }).rangeWaits 0 0xC00000 = true) ∧
    s0.heldElsewhere 0 0xC00000 = [] ∧ s0.rangeWaits 0 0xC00000 = false := by decide +kernel
theorem test_sweep : let s : State := { sFab [(0, dirEnt0 .m 1)] [] with fabric := { (sFab [(0, dirEnt0 .m 1)] []).fabric with
      recActive := true, sweep := [0], deadMask := BitVec.ofNat 64 (2 ^ 1) } }
    s.fabric.recActive = true ∧ s.fabric.sweep = [0] ∧ s.dirEnt 0 = some (dirEnt0 .m 1) ∧ s.cellOf 1 = 1 := by decide

/-! ### Checks, faults and steps (03, 14) -/

/-- Words that fail each check (03 R52): privilege in a user group, a reserved field, a register beyond the group's, a word that is not its clause's
last; and reads of registers with an error (18 R340). -/
theorem test_checks : checkWord (.csrw q7 4 8) false 256 1 1 = some 0x03 ∧ checkWord (.dbg q7 8 9 10 11) false 256 1 1 = some 0x03 ∧
    checkWord (.add p15 .s32 true 200 (.vec 2) (.vec 3)) false 32 1 1 = some 0x01 ∧ checkWord (.bra p15 1) false 256 1 2 = some 0x01 ∧
    checkWord (.uadd q7 .b32 true 4 5 6) false 256 1 1 = some 0x01 ∧ checkWord (.uadd q7 .s32 true 4 5 6) false 256 1 1 = none ∧
    ¬ (Instr.swr q7 8 4 6 none).needsMon = true := by decide
abbrev gBad : Group := { g0 with regs := { g0.regs with badV := [3 * 256 + 2], badS := [9] } }
theorem test_errors : (at_ gBad).group? 0 0 = some gBad ∧ (Instr.add p15 .s32 true 1 (.vec 2) (.vec 3)).reservedOk = true ∧
    (∃ o ∈ (Instr.add p15 .s32 true 1 (.vec 2) (.vec 3)).operands, o.reads = true ∧ o.cls = .vec ∧ ∃ k, k < o.width ∧ 3 * 256 + o.num + k ∈ gBad.regs.badV) ∧
    (∃ o ∈ (Instr.add p15 .s32 true 1 (.vec 2) (.sca 9)).operands, o.reads = true ∧ o.cls = .sca ∧ ∃ k, k < o.width ∧ o.num + k ∈ gBad.regs.badS) ∧
    3 ∈ (at_ gBad).lanes gBad p15 := by decide
theorem test_faults : (at_ g0).group? 0 0 = some g0 ∧ g0.leader = none ∧ (∀ r ∈ g0.stops.unwritten ++ g0.stops.unserved, r.resumable = true) ∧
    (∃ r ∈ (gRec false).stops.unwritten ++ (gRec false).stops.unserved, r.resumable = false) ∧ (gRec false).dbg.stepping = none := by decide

/-- The machine after a launch fetches its header and its word and may issue it (log entry 13). -/
abbrev sStep (w : Nat) : State := (State.reset.withFetchWord 64 w).l2Fill 0
theorem test_issuing : Issuing (sStep 0x3AF0000000000000) 0 0 0 g0 where
  turn := rfl
  here := rfl
  active := .inl rfl
  entered := .inr rfl
  runs := ⟨rfl, rfl, rfl, rfl⟩
  entry := ⟨rfl, by decide⟩
  sound := by intro o h; cases h
  lone := ⟨rfl, rfl, rfl⟩
  unwatched := by
    intro b h
    fin_cases h <;> rfl
  free := ⟨rfl, rfl, rfl, rfl⟩
theorem test_decodes : decode (BitVec.ofNat 64 0x3AF0000000000000) = .ok (.exit p15) ∧ (Header.ofWord (BitVec.ofNat 64 1)).region = false := by decide
theorem test_fetches : FetchesAt (sStep 0x3AF0000000000000) 0 g0 0 1 ∧ FetchesAt (sStep 0x3AF0000000000000) 0 g0 8 0x3AF0000000000000 := by
  refine ⟨⟨rfl, rfl, by decide, _, 0, rfl, by decide, by decide, by decide, by decide, by decide, by decide, .inl rfl, by decide, by decide, ?_, by decide +kernel⟩,
    ⟨rfl, rfl, by decide, _, 8, rfl, by decide, by decide, by decide, by decide, by decide, by decide, .inl rfl, by decide, by decide, ?_, by decide +kernel⟩⟩ <;>
  · intro k hk
    interval_cases k <;> exact ⟨_, rfl, rfl⟩
/-- A status that waits, and the turn that writes it (03 R42). -/
theorem test_status_turn : let g : Group := { g0 with statuses := [⟨none, 8, 3⟩] }
    let s : State := { at_ g with turn := .status 0 0 }
    s.turn = .status 0 0 ∧ s.group? 0 0 = some g ∧ g.statuses = ⟨none, 8, 3⟩ :: [] ∧ s.group? 0 1 = none := ⟨rfl, rfl, rfl, rfl⟩
/-- A branch from byte 8 to two words before it has no target (03 R50). -/
theorem test_target : (targetFault (.bra p15 0xFFFFFFFE) 8).isSome = true ∧ targetFault (.bra p15 0xFFFFFFFF) 8 = none ∧
    checkWord (.bra p15 0xFFFFFFFE) false 256 1 1 = none := by decide
theorem test_events : (State.reset.turn = .event .packageReset) ∧ Instr.isEvent .packageReset = true ∧ Instr.isEvent (.nop p15) = false ∧
    Instr.isEvent (.unassignedOpcode 5) = false := by decide

/-! ### One step each, with values of the spec's rules -/

/-- The word `w` as the first after a launch, from a group with registers. -/
def runs (i : Instr) (g : Group) (p : Group → Bool) : Bool :=
  match exec i (at_ g) with
  | .next t => (t.group? 0 0).any p
  | _ => false

theorem test_add_saturates : runs (.add p15 .s32 true 1 (.vec 2) (.vec 3)) (grp [(2, 0x7FFFFFFF), (3, 1)] []) (fun g => g.rdV 0 1 == 0x7FFFFFFF) = true := by decide
theorem test_add_wraps : runs (.add p15 .s32 false 1 (.vec 2) (.vec 3)) (grp [(2, 0x7FFFFFFF), (3, 1)] []) (fun g => g.rdV 0 1 == 0x80000000) = true := by decide
theorem test_mulh_signed : runs (.mulh p15 .s32 1 (.vec 2) (.vec 3)) (grp [(2, 0xFFFFFFFF), (3, 1)] []) (fun g => g.rdV 0 1 == 0xFFFFFFFF) = true := by decide
theorem test_sar_width : runs (.sar p15 .b32 1 (.vec 2) (.vec 3)) (grp [(2, 0x80000000), (3, 40)] []) (fun g => g.rdV 0 1 == 0xFFFFFFFF) = true := by decide
theorem test_rot_pair : runs (.rot p15 .b64 4 (.vec 6) (.vec 8)) (grp [(6, 0x80000001), (8, 65)] []) (fun g => g.rdV 0 4 == 2 && g.rdV 0 5 == 1) = true := by decide
theorem test_subb_borrow : runs (.subb p15 1 (.vec 2) (.vec 3) 4) (grp [(3, 1)] []) (fun g => g.rdV 0 1 == 0xFFFFFFFF && g.rdP 0 4) = true := by decide
theorem test_uli_pair : runs (.ulih q7 4 7) g0 (fun g => g.rdS 4 == 0 && g.rdS 5 == 7) = true := by decide
/-- Lane 0 divides one by zero (DZ), the others zero by zero (NV). -/
theorem test_fdiv_zero : runs (.fdiv p15 .f32 .rn false 1 (.vec 2) (.vec 3)) (grp [(2, 0x3F800000)] []) (fun g => g.rdV 0 1 == 0x7F800000 && g.fpstat == 3) = true := by decide
theorem test_swap_own : runs (.pswap p15 .b32 1 (.vec 1) (.vec 2)) (grp [(1, 5), (256 + 1, 6), (2, 7), (256 + 2, 8)] [])
    (fun g => g.rdV 0 1 == 8 && g.rdV 1 1 == 5) = true := by decide

end Sys2Proof.Tests
end

section
/-! SUPPORT. Changes of several groups of the state, and the frames of a uniform word: its guard is false, it changes its group alone, it
faults, it waits. -/

namespace Sys2Proof.Machine

/-! ### Several changes of groups -/

theorem Tbl.put_comm {β : Type} (t : Tbl β) {a b : Nat} (v w : β) (h : a ≠ b) : Tbl.put (Tbl.put t a v) b w = Tbl.put (Tbl.put t b w) a v := by
  induction t with
  | nil => grind [Tbl.put]
  | cons p t ih =>
    obtain ⟨k, x⟩ := p
    grind [Tbl.put]

theorem gkey_ne (core : Nat) {k l : Nat} (h : k ≠ l) : gkey core k ≠ gkey core l := by unfold gkey; omega

theorem State.setGroup_setGroup (s : State) (c k : Nat) (g h : Group) : (s.setGroup c k g).setGroup c k h = s.setGroup c k h := by
  simp [State.setGroup, Tbl.put_put]

theorem State.setGroup_comm (s : State) {c k c' k' : Nat} (g h : Group) (hne : gkey c k ≠ gkey c' k') :
    (s.setGroup c k g).setGroup c' k' h = (s.setGroup c' k' h).setGroup c k g := by
  simp [State.setGroup, Tbl.put_comm _ _ _ hne]

theorem State.group?_setGroup_ne (s : State) {c k c' k' : Nat} (g : Group) (hne : gkey c' k' ≠ gkey c k) :
    (s.setGroup c k g).group? c' k' = s.group? c' k' := by
  simp [State.group?, Tbl.find?_put_ne _ _ hne]

theorem State.updGroup_setGroup (s : State) (c k : Nat) (g : Group) (f : Group → Group) :
    (s.setGroup c k g).updGroup c k f = s.setGroup c k (f g) := by
  rw [State.updGroup_some _ (State.group?_setGroup_self s c k g), State.setGroup_setGroup]

/-! ### Entries -/

theorem Group.ent_setEnt (g : Group) (k j : Nat) {e : Entry} (h : e.st ≠ .free) : (g.setEnt k e).ent j = if j = k then e else g.ent j := by
  unfold Group.ent
  split
  · rename_i hj
    simp [hj, h]
  · rename_i hj
    rw [Group.setEnt_ents, Tbl.getD_setD_ne _ _ _ hj]

/-! ### Uniform words -/

section
variable {i : Instr} {gd : Guard} {s : State} {g : Group} {body : Group → Entry → Res}

/-- A uniform word with a false guard does nothing. -/
theorem Ready.uniform_off (h : Ready i s g) (ht : ∀ a, targetFault i a = none) (hx : exec i s = uniform i gd s body)
    (hg : g.guardUni gd = false) : Completes i s g :=
  ⟨hx.trans (h.issue_same (ht _) (by simp [hg])), fun a => by simp⟩

/-- A uniform word with a true guard that changes its group alone. -/
theorem Ready.uniform_group {g1 : Group} (h : Ready i s g) (ht : ∀ a, targetFault i a = none) (hx : exec i s = uniform i gd s body)
    (hg : g.guardUni gd = true) (hb : body g (s.frag g) = .group s g1) (he : (g1.ent s.cur.entry).pos = (s.frag g).pos) :
    Completes i s g1 :=
  ⟨hx.trans (h.issue_done (ht _) (by simp only [hg, if_true]; exact hb) he), fun a => by simp⟩

/-- A uniform word with a true guard that leaves the state alone. -/
theorem Ready.uniform_same (h : Ready i s g) (ht : ∀ a, targetFault i a = none) (hx : exec i s = uniform i gd s body)
    (hg : g.guardUni gd = true) (hb : body g (s.frag g) = .done s) : Completes i s g :=
  ⟨hx.trans (h.issue_same (ht _) (by simp only [hg, if_true]; exact hb)), fun a => by simp⟩

/-- A uniform word with a true guard that faults. -/
theorem Ready.uniform_fault {f : FaultInfo} (h : Ready i s g) (ht : ∀ a, targetFault i a = none) (hx : exec i s = uniform i gd s body)
    (hg : g.guardUni gd = true) (hb : body g (s.frag g) = .fault f) : Faults i s g f :=
  hx.trans (h.issue_fault (ht _) (by simp only [hg, if_true]; exact hb))

/-- A uniform word with a true guard that cannot issue yet. -/
theorem Ready.uniform_stall {k o : Nat} (h : Ready i s g) (ht : ∀ a, targetFault i a = none) (hx : exec i s = uniform i gd s body)
    (hg : g.guardUni gd = true) (hb : body g (s.frag g) = .stall s k o) : Holds i s g := by
  have hb' : (if g.guardUni gd then body g (g.ent s.cur.entry) else .done s) = .stall s k o := by simp only [hg, if_true]; exact hb
  refine ⟨k, o, hx.trans ?_⟩
  simp only [uniform, h.issue (ht _), hb', State.updGroup_here s h.here]

/-- A uniform word with a true guard whose state then holds its group as `g1`, at the same position. -/
theorem Ready.uniform_done {s1 : State} {g1 : Group} (h : Ready i s g) (ht : ∀ a, targetFault i a = none)
    (hx : exec i s = uniform i gd s body) (hg : g.guardUni gd = true) (hb : body g (s.frag g) = .done s1)
    (h1 : s1.group? s.cur.core s.cur.slot = some g1) (he : (g1.ent s.cur.entry).pos = (s.frag g).pos) :
    exec i s = .next (s1.setGroup s.cur.core s.cur.slot (g1.advanced s.cur)) := by
  have hb' : (if g.guardUni gd then body g (g.ent s.cur.entry) else .done s) = .done s1 := by simp only [hg, if_true]; exact hb
  have he' : (g.ent s.cur.entry).pos = (g1.ent s.cur.entry).pos := he.symm
  rw [hx]
  simp only [uniform, h.issue (ht _), hb', State.updGroup_some _ h1, Group.advanced, he']

end

end Sys2Proof.Machine
end

section
/-! Identifiers, FMT, FPSTAT and the lease: `usrd`, `uswr`, `ufmt`, `ulease` (02 R27 to R32, 06 R109 to R112). -/

namespace Sys2Proof.Machine

/-- The zero fields and listed selectors of a word that is ready (03 R52). -/
theorem Ready.zero_ok {i : Instr} {s : State} {g : Group} (h : Ready i s g) : i.zeroOk = true := by
  have hl := h.legal
  unfold checkWord at hl
  split at hl
  · cases hl
  · split at hl
    · cases hl
    · rename_i hr
      simp only [Bool.not_eq_eq_eq_not, Bool.not_true, Bool.not_eq_false, Instr.reservedOk, Bool.and_eq_true] at hr
      exact hr.1

/-! ### The values of `usrd` (02 R32) -/

theorem Group.laneSel_eq (g : Group) (sel : BitVec 32) (l : Nat) (h : sel.toNat < 3) :
    (g.laneSel sel.toNat l).getD 0 = BitVec.ofNat 32 (laneIdent g sel l) := by
  obtain ⟨n, hn⟩ : ∃ n, n = sel.toNat := ⟨_, rfl⟩
  obtain rfl : sel = BitVec.ofNat 32 n := by simp [hn]
  rw [← hn] at h ⊢
  interval_cases n <;> simp [Group.laneSel, laneIdent]

/-- A number put together from its bits. -/
theorem foldl_bits (p : Nat → Bool) (n : Nat) :
    (List.range n).foldl (fun x f => if p f then x + 2 ^ f else x) 0 < 2 ^ n ∧
      ∀ f, f < n → ((List.range n).foldl (fun x f => if p f then x + 2 ^ f else x) 0).testBit f = p f := by
  induction n with
  | zero => simp
  | succ n ih =>
    obtain ⟨hlt, hbit⟩ := ih
    rw [List.range_succ, List.foldl_append]
    generalize (List.range n).foldl (fun x f => if p f then x + 2 ^ f else x) 0 = x at hlt hbit
    simp only [List.foldl_cons, List.foldl_nil]
    have htop : x.testBit n = false := Nat.testBit_lt_two_pow hlt
    split
    · rename_i hp
      refine ⟨by rw [Nat.pow_succ]; omega, fun f hf => ?_⟩
      rw [Nat.add_comm]
      rcases Nat.lt_succ_iff_lt_or_eq.1 hf with hf | rfl
      · rw [Nat.testBit_two_pow_add_gt hf, hbit f hf]
      · rw [Nat.testBit_two_pow_add_eq, htop, hp]; rfl
    · rename_i hp
      refine ⟨by rw [Nat.pow_succ]; omega, fun f hf => ?_⟩
      rcases Nat.lt_succ_iff_lt_or_eq.1 hf with hf | rfl
      · exact hbit f hf
      · rw [htop, Bool.eq_false_iff.2 hp]

/-- FLAGS: bit f is flag f (02 R32). -/
theorem State.flagBits_spec (s : State) (g : Group) :
    s.flagBits g < 2 ^ 12 ∧ ∀ f, f < 12 → ((s.flagBits g).testBit f = true ↔ s.flagSet s.cur.core s.cur.slot g f = true) := by
  obtain ⟨hlt, hbit⟩ := foldl_bits (fun f => s.flagSet s.cur.core s.cur.slot g f) 12
  exact ⟨hlt, fun f hf => by rw [← hbit f hf]; rfl⟩

theorem State.cellId_eq (s : State) : s.cellId = s.ownCell + 2 ^ 6 * s.fabric.self := by
  rw [State.cellId, State.ownCell, State.cellOf, State.domEnt, Nat.mul_comm]

theorem State.leaseWord_eq (s : State) (g : Group) (h : g.leader = none) :
    s.leaseWord g = g.lease % 2 ^ 14 + 2 ^ 31 * g.measured.toNat := by
  simp only [State.leaseWord, h]
  cases g.measured <;> rfl

/-- Every uniform selector that passes the checks has its listed value and width. -/
theorem State.uniSel_identifies (s : State) (g : Group) (sel : BitVec 32) (h3 : 3 ≤ sel.toNat) (h16 : sel.toNat ≤ 0x10) :
    ∃ x, s.uniSel g (s.frag g) sel.toNat = some (x, identWidth sel) ∧ Identifies s g sel x := by
  obtain ⟨n, hn⟩ : ∃ n, n = sel.toNat := ⟨_, rfl⟩
  obtain rfl : sel = BitVec.ofNat 32 n := by simp [hn]
  rw [← hn] at h3 h16 ⊢
  obtain ⟨hlt, hbit⟩ := s.flagBits_spec g
  simp only [Nat.reducePow] at hlt
  have hlease := s.leaseWord_eq g
  interval_cases n <;>
    exact ⟨_, rfl, by simp +contextual [Identifies, State.partOf, State.cellId_eq, hlease, hlt, hbit]⟩

/-- The selectors whose values a shadow takes from its leader (06 R109). -/
theorem timed_sel_iff (sel : BitVec 32) : sel.toNat = 0x0A ∨ sel.toNat = 0x10 ↔ sel = 0x0A ∨ sel = 0x10 := by
  simp [← BitVec.toNat_inj]

theorem Group.noteRead_same (g : Group) (sel : BitVec 32) (x : Nat) (h : g.shadow = none ∨ sel ≠ 0x0A ∧ sel ≠ 0x10) :
    g.noteRead sel.toNat x = g := by
  refine if_neg fun ⟨hs, ht⟩ => ?_
  rcases h with h | h
  · simp [h] at hs
  · exact not_or.2 h ((timed_sel_iff sel).1 ht)

theorem Group.noteRead_queue (g : Group) (sel : BitVec 32) (x : Nat) (hs : g.shadow ≠ none) (ht : sel = 0x0A ∨ sel = 0x10) :
    g.noteRead sel.toNat x = { g with readQueue := g.readQueue ++ [x] } :=
  if_pos ⟨Option.isSome_iff_ne_none.2 hs, (timed_sel_iff sel).2 ht⟩

theorem Group.ent_noteRead (g : Group) (sel x k : Nat) : (g.noteRead sel x).ent k = g.ent k := by
  unfold Group.noteRead
  split <;> rfl

/-! ### `usrd` (06 R109) -/

section
variable {s : State} {g : Group} {gd : Guard} {d : Reg} {sel : BitVec 32}

/-- A lane selector writes every lane of the fragment. -/
theorem usrd_lane (h : Ready (.usrd gd d sel) s g) (hsel : sel.toNat < 3) :
    ∃ g1, Completes (.usrd gd d sel) s g1 ∧
      VecWritten g g1 (if g.guardUni gd then s.lanesHere g else []) d.toNat 1 (laneIdent g sel) := by
  have hw (ls : List Nat) := Group.foldl_wrVs (laneIdent g sel) d.toNat 1 (by have := d.isLt; omega) ls g
  cases hg : g.guardUni gd with
  | false => exact ⟨g, h.uniform_off (fun _ => rfl) rfl hg, hw []⟩
  | true =>
    refine ⟨_, h.uniform_group (fun _ => rfl) rfl hg ?_ (by rw [(hw _).ent]; rfl), hw (s.lanesHere g)⟩
    simp only [hsel, if_true, Group.laneSel_eq g sel _ hsel]
    rfl

/-- A uniform selector in a group that is no shadow, or one that a shadow reads for itself. -/
theorem usrd_uniform (h : Ready (.usrd gd d sel) s g) (h3 : 3 ≤ sel.toNat)
    (hown : g.leader = none ∨ (sel ≠ 0x0A ∧ sel ≠ 0x10)) (hg : g.guardUni gd = true) {x : Nat}
    (hx : s.uniSel g (s.frag g) sel.toNat = some (x, identWidth sel)) :
    Completes (.usrd gd d sel) s ((g.noteRead sel.toNat x).wrSs d.toNat (identWidth sel) x) := by
  refine h.uniform_group (fun _ => rfl) rfl hg ?_ ?_
  · simp only [if_neg (Nat.not_lt.2 h3), hx]
    cases hlead : g.leader with
    | none => rfl
    | some l =>
      have ht : sel ≠ 0x0A ∧ sel ≠ 0x10 := by simpa [hlead] using hown
      have ht' : ¬ (sel.toNat = 0x0A ∨ sel.toNat = 0x10) := fun e => not_or.2 ht ((timed_sel_iff sel).1 e)
      simp only [if_neg ht', g.noteRead_same sel x (.inr ht)]
  · rw [(Group.wrSs_written _ _ _ _).ent, Group.ent_noteRead]
    rfl

/-- A shadow takes TIME and FLAGS from its leader's queue (14 R270). -/
theorem usrd_shadow (h : Ready (.usrd gd d sel) s g) (ht : sel = 0x0A ∨ sel = 0x10) (hg : g.guardUni gd = true) {l : Nat} {lead : Group}
    {x : Nat} {rest : List Nat} (hlead : g.leader = some l) (hl : s.group? s.cur.core l = some lead) (hne : l ≠ s.cur.slot)
    (hq : lead.readQueue = x :: rest) :
    exec (.usrd gd d sel) s = .next ((s.setGroup s.cur.core l { lead with readQueue := rest }).setCurGroup
      ((g.wrSs d.toNat (identWidth sel) x).advanced s.cur)) := by
  have h3 : 3 ≤ sel.toNat := by rcases ht with rfl | rfl <;> decide
  have h16 : sel.toNat ≤ 0x10 := by rcases ht with rfl | rfl <;> decide
  obtain ⟨y, hy, -⟩ := s.uniSel_identifies g sel h3 h16
  have hk : gkey s.cur.core l ≠ gkey s.cur.core s.cur.slot := gkey_ne _ hne
  have hthere : (s.setCurGroup (g.wrSs d.toNat (identWidth sel) x)).group? s.cur.core l = some lead := by
    rw [State.setCurGroup, State.group?_setGroup_ne _ _ hk, hl]
  have hdone := h.uniform_done (fun _ => rfl) rfl hg (g1 := g.wrSs d.toNat (identWidth sel) x)
    (s1 := (s.setCurGroup (g.wrSs d.toNat (identWidth sel) x)).setGroup s.cur.core l { lead with readQueue := rest }) ?_ ?_ ?_
  · rw [hdone, State.setCurGroup, State.setGroup_comm _ _ _ hk.symm, State.setGroup_setGroup]
    rfl
  · simp only [if_neg (Nat.not_lt.2 h3), hy, hlead, if_pos ((timed_sel_iff sel).2 ht), hl, Option.map_some, hq,
      State.updGroup_some _ hthere]
  · rw [State.group?_setGroup_ne _ _ hk.symm, State.group?_setCurGroup]
  · rw [(Group.wrSs_written _ _ _ _).ent]
    rfl

end

/-! ### `uswr`, `ufmt`, `ulease` (06 R110 to R112) -/

section
variable {s : State} {g : Group} {gd : Guard}

/-- The selector of a ready `uswr` is FPSTAT's (log entry 15). -/
theorem uswr_sel {a : Reg} {sel : BitVec 32} (h : Ready (.uswr gd a sel) s g) : sel = 0x0C := by
  simpa [Instr.zeroOk] using h.zero_ok

theorem uswr_completes {a : Reg} {sel : BitVec 32} (h : Ready (.uswr gd a sel) s g) :
    Completes (.uswr gd a sel) s
      (if g.guardUni gd then { g with fpstat := g.fpstat &&& ~~~((g.rdS a.toNat).setWidth 5) } else g) := by
  cases hg : g.guardUni gd with
  | false => exact h.uniform_off (fun _ => rfl) rfl hg
  | true =>
    refine h.uniform_group (fun _ => rfl) rfl hg ?_ rfl
    have hw : (g.rdS a.toNat).extractLsb' 0 5 = (g.rdS a.toNat).setWidth 5 := by
      rw [← BitVec.setWidth_eq_extractLsb' (by decide)]
    simp only [uswr_sel h, if_true, hw]

/-- A field of a value below 2^64, read as bits. -/
theorem bitsOf_eq {x : Nat} (hx : x < 2 ^ 64) (lo n : Nat) : bitsOf x lo n = ((BitVec.ofNat 64 x).extractLsb' lo n).toNat := by
  rw [BitVec.extractLsb'_toNat, BitVec.toNat_ofNat, Nat.mod_eq_of_lt hx, Nat.shiftRight_eq_div_pow, bitsOf]

/-- The codes of the fields A, B and C (02 R28). -/
theorem fmtFields_iff : (∀ y : BitVec 4, (y.toNat ≤ 5 ∨ y.toNat = 7) ↔ y ∈ ([0, 1, 2, 3, 4, 5, 7] : List (BitVec 4))) ∧
    (∀ y : BitVec 4, y.toNat ≤ 7 ↔ y ∈ ([0, 1, 2, 3, 4, 5, 6, 7] : List (BitVec 4))) ∧
    ∀ y : BitVec 4, (y.toNat ≤ 1 ∨ y.toNat = 8) ↔ y ∈ ([0, 1, 8] : List (BitVec 4)) := by decide

theorem fmtOk_iff {x : Nat} (hx : x < 2 ^ 64) : fmtOk x = true ↔ FmtValid (BitVec.ofNat 64 x) := by
  obtain ⟨ha, hb, hc⟩ := fmtFields_iff
  have hzero (n : Nat) (y : BitVec n) : y = 0 ↔ y.toNat = 0 := by simp [← BitVec.toNat_inj]
  have hbit : bitOf x 15 = (BitVec.ofNat 64 x).getLsbD 15 := by
    rw [BitVec.getLsbD_ofNat, Nat.testBit_eq_decide_div_mod_eq]
    rfl
  simp only [fmtOk, FmtValid, bitsOf_eq hx, hbit, ← ha, ← hb, ← hc, Bool.and_eq_true, Bool.or_eq_true, decide_eq_true_eq, beq_iff_eq,
    Bool.not_eq_true', hzero, and_assoc]

theorem ufmt_writes {a : Reg} (h : Ready (.ufmt gd a) s g) (hg : g.guardUni gd = true) (hv : FmtValid (BitVec.ofNat 64 (g.rdSs a.toNat 2)))
    (hst : (s.frag g).st ≠ .free) :
    ∃ g1, Completes (.ufmt gd a) s g1 ∧ EntriesSet g g1 fun j =>
      if j = s.cur.entry then { s.frag g with fmt := BitVec.ofNat 64 (g.rdSs a.toNat 2) } else g.ent j := by
  have he := fun j => g.ent_setEnt s.cur.entry j (e := { s.frag g with fmt := BitVec.ofNat 64 (g.rdSs a.toNat 2) }) hst
  refine ⟨_, h.uniform_group (fun _ => rfl) rfl hg ?_ ?_, rfl, he⟩
  · simp only [(fmtOk_iff (g.rdSs_lt a.toNat 2)).2 hv, if_true]
  · rw [he, if_pos rfl]

theorem ufmt_faults {a : Reg} (h : Ready (.ufmt gd a) s g) (hg : g.guardUni gd = true)
    (hv : ¬ FmtValid (BitVec.ofNat 64 (g.rdSs a.toNat 2))) : Faults (.ufmt gd a) s g (.word 0x02) := by
  refine h.uniform_fault (fun _ => rfl) rfl hg ?_
  rw [← fmtOk_iff (g.rdSs_lt a.toNat 2)] at hv
  simp only [if_neg hv]

theorem ulease_completes {imm : BitVec 32} (h : Ready (.ulease gd imm) s g) :
    Completes (.ulease gd imm) s
      (if g.guardUni gd ∧ g.leader = none then
        { g with lease := if imm.getLsbD 31 ∧ (imm.setWidth 14).toNat = 0 then 1 else (imm.setWidth 14).toNat, measured := imm.getLsbD 31 }
       else g) := by
  have hn : bitsOf imm.toNat 0 14 = (imm.setWidth 14).toNat := by simp [bitsOf]
  cases hg : g.guardUni gd with
  | false => simpa using h.uniform_off (fun _ => rfl) rfl hg
  | true =>
    cases hl : g.leader with
    | some l => simpa using h.uniform_same (fun _ => rfl) rfl hg (by simp only [hl, Option.isSome_some, if_true])
    | none =>
      simp only [and_self, if_true]
      refine h.uniform_group (fun _ => rfl) rfl hg ?_ rfl
      simp only [hl, hn, Option.isSome_none, Bool.false_eq_true, if_false]

end

/-- Settles O21: each word is a uniform word whose body, by the selector or the operand, writes one part of its group, or faults. -/
theorem uniformSystemWords : Obligations.UniformSystemWords := by
  unfold Obligations.UniformSystemWords
  refine ⟨fun s g gd d sel h => ⟨fun hsel => usrd_lane h hsel, fun h3 hown => ?_, ?_⟩, fun s g gd =>
    ⟨fun a sel h => uswr_completes h, fun a h => ⟨fun hg => h.uniform_off (fun _ => rfl) rfl hg, fun hg hv hst => ufmt_writes h hg hv hst,
      fun hg hv => ufmt_faults h hg hv⟩, fun imm h => ulease_completes h⟩⟩
  · have h16 : sel.toNat ≤ 0x10 := by simpa [Instr.zeroOk] using h.zero_ok
    obtain ⟨x, hx, hid⟩ := s.uniSel_identifies g sel h3 h16
    cases hg : g.guardUni gd with
    | false =>
      exact ⟨x, g, g, hid, h.uniform_off (fun _ => rfl) rfl hg, .none .., fun _ => rfl, fun _ _ _ e => by simp at e⟩
    | true =>
      refine ⟨x, g.noteRead sel.toNat x, _, hid, usrd_uniform h h3 hown hg hx, Group.wrSs_written .., fun e => ?_, fun hs ht _ _ => ?_⟩
      · exact g.noteRead_same sel x (by simpa using e)
      · exact g.noteRead_queue sel x hs ht
  · intro l lead x rest ht hg hlead hl hne hq
    exact ⟨_, Group.wrSs_written .., usrd_shadow h ht hg hlead hl hne hq⟩

end Sys2Proof.Machine
end

section
/-! Operations in flight and their completion, `fence`, `commit`, `wait` and the completion of batches (02 R25, R26; 12 R225 to R227;
13 R230). -/

namespace Sys2Proof.Machine

/-! ### Lists parted at the first element of a path -/

section
variable {α : Type} {path : Path} {f : α → Path} {pre post : List α} {o : α}

theorem filter_path_split (hpre : ∀ x ∈ pre, f x ≠ path) (ho : f o = path) :
    (pre ++ o :: post).filter (fun x => f x == path) = o :: post.filter fun x => f x == path := by
  have hnil : pre.filter (fun x => f x == path) = [] := by simpa using hpre
  simp [hnil, ho]

theorem length_filter_path_split (hpre : ∀ x ∈ pre, f x ≠ path) (ho : f o = path) :
    ((pre ++ o :: post).filter fun x => f x == path).length = ((pre ++ post).filter fun x => f x == path).length + 1 := by
  have hnil : pre.filter (fun x => f x == path) = [] := by simpa using hpre
  rw [filter_path_split hpre ho, List.filter_append, hnil, List.nil_append, List.length_cons]

theorem find?_path_split (hpre : ∀ x ∈ pre, f x ≠ path) (ho : f o = path) :
    (pre ++ o :: post).find? (fun x => f x == path) = some o := by
  rw [← List.head?_filter, filter_path_split hpre ho, List.head?_cons]

end

/-! ### Carrying operations on (12 R212) -/

/-- A group's operations that have nothing left to perform are not carried on. -/
theorem State.drain_idle {s : State} {core slot : Nat} {g : Group} (hs : s.group? core slot = some g)
    (hidle : ∀ x ∈ g.inflight, x.todo = [] ∨ x.fault ≠ none) (n : Nat) : ∀ k, s.drain core slot k n = s := by
  induction n with
  | zero => intro k; rfl
  | succ n ih =>
    intro k
    rw [State.drain, hs]
    cases hk : g.inflight[k]? with
    | none => simp only [hk]
    | some o =>
      have ho : (o.todo.isEmpty || o.fault.isSome) = true := by
        simpa [Option.isSome_iff_ne_none] using hidle o (List.mem_of_getElem? hk)
      simp only [hk, ho, if_true, ih]

theorem State.drainGroup_idle {s : State} {core slot : Nat} {g : Group} (hs : s.group? core slot = some g)
    (hidle : ∀ x ∈ g.inflight, x.todo = [] ∨ x.fault ≠ none) : s.drainGroup core slot = s := by
  rw [State.drainGroup, hs]
  exact State.drain_idle hs hidle _ _

/-! ### The oldest operation of a path (02 R25, R26) -/

section
variable {g : Group} {path : Path} {pre post : List PendOp} {o : PendOp}

/-- The oldest operation of a path completes next where its fault has been found, or none of the path has one. -/
theorem Group.oldest_split (hin : g.inflight = pre ++ o :: post) (hpre : ∀ x ∈ pre, x.path ≠ path) (ho : o.path = path)
    (hf : o.fault ≠ none ∨ ∀ x ∈ g.inflight, x.path = path → x.fault = none) : g.oldest path = some (pre.length, o) := by
  have hops : g.inflight.zipIdx.filter (fun p => p.1.path == path) =
      (o, pre.length) :: (post.zipIdx (pre.length + 1)).filter fun p => p.1.path == path := by
    rw [hin, List.zipIdx_append, List.zipIdx_cons, Nat.zero_add]
    exact filter_path_split (f := fun p : PendOp × Nat => p.1.path) (fun p hp => hpre p.1 (List.fst_mem_of_mem_zipIdx hp)) ho
  rw [Group.oldest, hops]
  cases hof : o.fault with
  | some f => simp [hof]
  | none =>
    have hall : ∀ x ∈ g.inflight, x.path = path → x.fault = none := by simpa [hof] using hf
    have hnone : ((post.zipIdx (pre.length + 1)).filter fun p => p.1.path == path).find? (fun p => p.1.fault.isSome) = none := by
      rw [List.find?_eq_none]
      intro p hp
      obtain ⟨hmem, hpath⟩ := List.mem_filter.1 hp
      have hpost : p.1 ∈ g.inflight := by
        rw [hin]
        exact List.mem_append_right _ (List.mem_cons_of_mem _ (List.fst_mem_of_mem_zipIdx hmem))
      simp [hall p.1 hpost (by simpa using hpath)]
    simp [hof, hnone]

/-- The path's counter falls by one as its oldest operation leaves (02 R26). -/
theorem Group.ctr_gone (hin : g.inflight = pre ++ o :: post) (hpre : ∀ x ∈ pre, x.path ≠ path) (ho : o.path = path) :
    Group.ctr { g with inflight := pre ++ post } path + 1 = g.ctr path := by
  simp only [Group.ctr, hin, length_filter_path_split hpre ho]
  omega

/-- A register write that waited changes the registers alone. -/
theorem Group.applyWrite_regs (g : Group) (w : RegWrite) : g.applyWrite w = { g with regs := (g.applyWrite w).regs } := by
  cases w <;> rfl

theorem Group.foldl_applyWrite_regs (ws : List RegWrite) : ∀ g : Group,
    ws.foldl Group.applyWrite g = { g with regs := (ws.foldl Group.applyWrite g).regs } := by
  induction ws with
  | nil => intro g; rfl
  | cons w ws ih =>
    intro g
    rw [List.foldl_cons, ih, Group.applyWrite_regs]

theorem Group.queueWrites_alone (h : g.shadow = none) : g.queueWrites o = g := by
  simp [Group.queueWrites, h]

end

/-! ### `MEMORY_OP_COMPLETION` -/

section
variable {s : State} {core slot : Nat} {path : Path} {g : Group} {pre post : List PendOp} {o : PendOp}

/-- An operation whose accesses are performed writes its registers and leaves its path. -/
theorem State.completeOp_performed (hs : s.group? core slot = some g) (hold : g.oldest path = some (pre.length, o))
    (hin : g.inflight = pre ++ o :: post) (hsh : g.shadow = none) (htodo : o.todo = []) (haw : o.awaits = none)
    (hlead : o.fromLeader = false) (hf : o.fault = none) :
    s.completeOp core slot path = some (s.setGroup core slot (o.writes.foldl Group.applyWrite { g with inflight := pre ++ post })) := by
  have hgone : g.inflight.eraseIdx pre.length = pre ++ post := by rw [hin, List.eraseIdx_append_of_length_le le_rfl]; simp
  have hq : (o.writes.foldl Group.applyWrite { g with inflight := pre ++ post }).shadow = none := by
    rw [Group.foldl_applyWrite_regs]; exact hsh
  simp [State.completeOp, hs, hold, hgone, hf, hlead, htodo, haw, Group.queueWrites_alone hq]

/-- Where nothing is left to carry on, the step is the completion alone. -/
theorem memoryOpCompletion_idle (hs : s.group? core slot = some g) (hidle : ∀ x ∈ g.inflight, x.todo = [] ∨ x.fault ≠ none) :
    exec (.memoryOpCompletion core slot path) s = .next ((s.completeOp core slot path).getD s) := by
  have hexec : exec (.memoryOpCompletion core slot path) s = execMemoryOpCompletion core slot path s := rfl
  rw [hexec, execMemoryOpCompletion, State.drainGroup_idle hs hidle, event]

/-- The record of a fault found after issue (14 R253, R256). -/
def lateRecord (s : State) (g : Group) (o : PendOp) (f : FaultInfo) : Rec :=
  { info := f, resumable := false, regcnt := g.regcnt, faultPos := o.pos, restart := g.region, after := o.after, stop := false, late := true,
    mask := o.mask, entry := o.entry, progress := 0, cmd := none, tick := s.tick }

/-- An operation whose fault has been found leaves its path, and its group stops with a record. -/
theorem State.completeOp_faulted (hs : s.group? core slot = some g) (hold : g.oldest path = some (pre.length, o))
    (hin : g.inflight = pre ++ o :: post) (hsh : g.shadow = none) {f : FaultInfo} (hf : o.fault = some f) (hrec : g.ownRecord = false) :
    s.completeOp core slot path =
      some (s.setGroup core slot (Group.stopWith { g with inflight := pre ++ post } .faulted (lateRecord s g o f))) := by
  have hgone : g.inflight.eraseIdx pre.length = pre ++ post := by rw [hin, List.eraseIdx_append_of_length_le le_rfl]; simp
  have hq := fun o' => Group.queueWrites_alone (g := { g with inflight := pre ++ post }) (o := o') hsh
  have hown : Group.ownRecord { g with inflight := pre ++ post } = false := hrec
  simp only [State.completeOp, hs, hold, hgone, hf, hq, State.lateFault, State.updGroup_setGroup, hown, Bool.false_eq_true, if_false]
  rfl

end

/-! ### Batches (12 R226, R227) -/

theorem Group.ctr_closeBatch (g : Group) (p q : Path) : (g.closeBatch p).ctr q = g.ctr q := by
  have hpath : ∀ b : Batch, (if b.path = p then { b with closed := true } else b).path = b.path := by
    intro b; split <;> rfl
  simp only [Group.ctr, Group.closeBatch, List.filter_map, List.length_map, Function.comp_def, hpath]

section
variable {s : State} {core slot : Nat} {p : Path} {h : Group} {pre post : List Batch} {b : Batch}

theorem exec_batchComplete (s : State) (core slot : Nat) (p : Path) :
    exec (.batchComplete core slot p) s = execBatchComplete core slot p s := rfl

/-- The condition of `BATCH_COMPLETE`: no command of the batch that is not complete is left. -/
theorem batch_done_iff (s : State) (b : Batch) :
    (b.cmds.all fun c => s.cmds.all fun x => x.id != c || x.done) = true ↔ ∀ x ∈ s.cmds, x.id ∈ b.cmds → x.done = true := by
  simp only [List.all_eq_true, Bool.or_eq_true, bne_iff_ne]
  constructor
  · intro hall x hx hid
    exact (hall x.id hid x hx).resolve_left (by simp)
  · intro hall c hc x hx
    by_cases e : x.id = c
    · exact .inr (hall x hx (e ▸ hc))
    · exact .inl e

theorem batchComplete_removes (hs : s.group? core slot = some h) (hb : h.batches = pre ++ b :: post) (hpre : ∀ x ∈ pre, x.path ≠ p)
    (hp : b.path = p) (hc : b.closed = true) (hd : ∀ x ∈ s.cmds, x.id ∈ b.cmds → x.done = true) :
    exec (.batchComplete core slot p) s =
      .next { s.setGroup core slot { h with batches := pre ++ post } with cmds := s.cmds.filter fun x => !b.cmds.contains x.id } := by
  have herase : h.batches.erase b = pre ++ post := by
    rw [hb, List.erase_append_right _ (fun hm => hpre b hm hp), List.erase_cons_head]
  have hfind : h.batches.find? (fun b => b.path == p) = some b := by rw [hb]; exact find?_path_split hpre hp
  have hall := (batch_done_iff s b).2 hd
  simp only [exec_batchComplete, execBatchComplete, event, hs, hfind, Option.bind_eq_bind, Option.bind_some, hc, hall, herase,
    Bool.and_self, if_true, Option.getD_some]

theorem batchComplete_waits (hs : s.group? core slot = some h) (hb : h.batches = pre ++ b :: post) (hpre : ∀ x ∈ pre, x.path ≠ p)
    (hp : b.path = p) (hw : b.closed = false ∨ ∃ x ∈ s.cmds, x.id ∈ b.cmds ∧ x.done = false) :
    exec (.batchComplete core slot p) s = .next s := by
  have hfind : h.batches.find? (fun b => b.path == p) = some b := by rw [hb]; exact find?_path_split hpre hp
  have hcond : ¬ (b.closed && b.cmds.all fun c => s.cmds.all fun x => x.id != c || x.done) = true := by
    rw [Bool.and_eq_true, batch_done_iff]
    rintro ⟨hc, hd⟩
    rcases hw with hw | ⟨x, hx, hid, hw⟩
    · simp [hw] at hc
    · simp [hd x hx hid] at hw
  simp only [exec_batchComplete, execBatchComplete, event, hs, hfind, Option.bind_eq_bind, Option.bind_some, if_neg hcond, Option.getD_none]

end

/-! ### `fence`, `commit`, `wait` -/

section
variable {s : State} {g : Group} {gd : Guard} {p : Path}

/-- `fence` with nothing in flight is a boundary of its scope (13 R230). -/
theorem fence_passes {sc : Scope} {o : Order} (h : Ready (.fence gd sc o) s g) (hg : g.guardUni gd = true) (hin : g.inflight = []) :
    exec (.fence gd sc o) s = .next ((s.boundary g.ids.uid (scopeLevel sc)).setCurGroup (g.advanced s.cur)) :=
  h.uniform_done (fun _ => rfl) rfl hg (by simp only [hin, List.isEmpty_nil, if_true]) h.here rfl

theorem fence_holds {sc : Scope} {o : Order} (h : Ready (.fence gd sc o) s g) (hg : g.guardUni gd = true) (hin : g.inflight ≠ []) :
    Holds (.fence gd sc o) s g :=
  h.uniform_stall (k := 10) (o := 0) (fun _ => rfl) rfl hg (by simp only [List.isEmpty_iff, if_neg hin])

theorem commit_completes (h : Ready (.commit gd p) s g) :
    Completes (.commit gd p) s (if g.guardUni gd then g.closeBatch p else g) := by
  cases hg : g.guardUni gd with
  | false => exact h.uniform_off (fun _ => rfl) rfl hg
  | true => exact h.uniform_group (fun _ => rfl) rfl hg rfl rfl

/-- `wait` whose counter has fallen far enough closes the batch, ends the region at once and goes on. -/
theorem wait_passes {a : Reg} (h : Ready (.wait gd p a) s g) (hg : g.guardUni gd = true) (hle : g.ctr p ≤ (g.rdS a.toNat).toNat) :
    exec (.wait gd p a) s =
      .next (((s.setCurGroup (g.closeBatch p)).passWait (g.closeBatch p) p).setGroup s.cur.core s.cur.slot
        ((g.closeBatch p).advanced s.cur)) :=
  h.uniform_done (fun _ => rfl) rfl hg (by simp only [Group.ctr_closeBatch, if_pos hle])
    (State.group?_setCurGroup s (g.closeBatch p)) rfl

theorem wait_blocks {a : Reg} (h : Ready (.wait gd p a) s g) (hg : g.guardUni gd = true) (hlt : (g.rdS a.toNat).toNat < g.ctr p) :
    Completes (.wait gd p a) s { g.closeBatch p with block := .wait p (g.rdS a.toNat).toNat } :=
  h.uniform_group (fun _ => rfl) rfl hg (by simp only [Group.ctr_closeBatch, if_neg (Nat.not_le.2 hlt)]) rfl

/-- Passing a `wait` touches the tracking alone. -/
theorem State.group?_passWait (s : State) (g : Group) (p : Path) (c k : Nat) : (s.passWait g p).group? c k = s.group? c k := rfl

theorem State.bound_passWait (s : State) (g : Group) (p : Path) : ⟨g.ids.uid, 5, s.track.now⟩ ∈ (s.passWait g p).track.bounds :=
  List.mem_append_right _ (List.mem_singleton_self _)

end

/-- Settles O28: the first operation of a path is the oldest, so its completion removes it; the words are uniform words over the group's
operations and batches. -/
theorem operationsFencesAndWaits : Obligations.OperationsFencesAndWaits := by
  unfold Obligations.OperationsFencesAndWaits
  refine ⟨?_, fun s g gd => ⟨fun sc o h => ⟨h.uniform_off (fun _ => rfl) rfl, fence_holds h, fence_passes h⟩,
    fun p h => commit_completes h, fun p a h => ⟨h.uniform_off (fun _ => rfl) rfl, fun hg hle => ?_, wait_blocks h⟩,
    fun core slot p h pre post b hs hb hpre hp => ⟨batchComplete_removes hs hb hpre hp, batchComplete_waits hs hb hpre hp⟩⟩⟩
  · intro s core slot path g pre post o hs hin hpre ho hsh hidle haw hlead
    refine ⟨fun hf hall => ⟨?_, ?_⟩, fun f hf hrec => ?_⟩
    · have htodo : o.todo = [] := (hidle o (by simp [hin])).resolve_right (by simp [hf])
      rw [memoryOpCompletion_idle hs hidle,
        State.completeOp_performed hs (Group.oldest_split hin hpre ho (.inr hall)) hin hsh htodo haw hlead hf, Option.getD_some]
    · rw [Group.foldl_applyWrite_regs]
      exact Group.ctr_gone hin hpre ho
    · refine ⟨Group.stopWith { g with inflight := pre ++ post } .faulted (lateRecord s g o f), lateRecord s g o f, ?_,
        rfl, rfl, rfl, rfl, rfl, rfl, rfl, rfl, rfl⟩
      rw [memoryOpCompletion_idle hs hidle,
        State.completeOp_faulted hs (Group.oldest_split hin hpre ho (.inl (by simp [hf]))) hin hsh hf hrec, Option.getD_some]
  · refine ⟨_, wait_passes h hg hle, State.group?_setGroup_self _ _ _ _, ⟨fun c k hk => ?_, rfl⟩, State.bound_passWait _ _ p⟩
    rw [State.group?_setGroup_ne _ _ hk, State.group?_passWait, State.setCurGroup, State.group?_setGroup_ne _ _ hk]

end Sys2Proof.Machine
end

section
/-! The layouts of an instruction word and of its modifiers: a part is read back from the word that holds it, and masks act on each part alone
(03 R45 to R49, 05 R77 to R83). -/

namespace Sys2Proof

/-! ### Words and layouts -/

theorem getLsbD_eq_getLsbD_extractLsb' {n : Nat} (x : BitVec n) (k : Nat) : x.getLsbD k = (x.extractLsb' k 1).getLsbD 0 := by simp

theorem ofBool_getLsbD {n : Nat} (x : BitVec n) (k : Nat) : BitVec.ofBool (x.getLsbD k) = x.extractLsb' k 1 := by
  ext i hi
  simp [show i = 0 by omega]

theorem Raw.ofWord_toWord (r : Raw) : Raw.ofWord r.toWord = r := by
  simp only [Raw.ofWord, getLsbD_eq_getLsbD_extractLsb' r.toWord]
  simp (disch := decide) only [Raw.toWord, BitVec.extractLsb'_append_eq_of_le, BitVec.extractLsb'_append_eq_of_add_le]
  simp

theorem Raw.toWord_ofWord (w : Word64) : (Raw.ofWord w).toWord = w := by
  simp (disch := decide) only [Raw.ofWord, Raw.toWord, ofBool_getLsbD, BitVec.extractLsb'_append_extractLsb'_eq_extractLsb']
  simp

/-- The arithmetic layout of sixteen bits. -/
def AM.ofBits (m : BitVec 16) : AM := ⟨m.extractLsb' 11 5, m.extractLsb' 6 5, m.extractLsb' 3 3, m.getLsbD 2, m.extractLsb' 0 2⟩

/-- The synchronisation layout of sixteen bits. -/
def SM.ofBits (m : BitVec 16) : SM :=
  ⟨m.extractLsb' 11 5, m.extractLsb' 8 3, m.extractLsb' 5 3, m.extractLsb' 2 3, m.getLsbD 1, m.getLsbD 0⟩

/-- The engine layout of sixteen bits. -/
def EM.ofBits (m : BitVec 16) : EM :=
  ⟨m.extractLsb' 11 5, m.extractLsb' 8 3, m.extractLsb' 5 3, m.getLsbD 4, m.getLsbD 3, m.extractLsb' 0 3⟩

/-- The memory layout of eight bits. -/
def MM.ofBits (c : BitVec 8) : MM := ⟨c.extractLsb' 5 3, c.getLsbD 4, c.extractLsb' 2 2, c.extractLsb' 0 2⟩

theorem Raw.am_eq (r : Raw) : r.am = AM.ofBits r.m := rfl
theorem Raw.sm_eq (r : Raw) : r.sm = SM.ofBits r.m := rfl
theorem Raw.em_eq (r : Raw) : r.em = EM.ofBits r.m := rfl
theorem Raw.mm_eq (r : Raw) : r.mm = MM.ofBits r.c := rfl

@[simp] theorem AM.ofBits_bits (x : AM) : AM.ofBits x.bits = x := by
  simp only [AM.ofBits, getLsbD_eq_getLsbD_extractLsb' x.bits]
  simp (disch := decide) only [AM.bits, BitVec.extractLsb'_append_eq_of_le, BitVec.extractLsb'_append_eq_of_add_le]
  simp

@[simp] theorem SM.ofBits_bits (x : SM) : SM.ofBits x.bits = x := by
  simp only [SM.ofBits, getLsbD_eq_getLsbD_extractLsb' x.bits]
  simp (disch := decide) only [SM.bits, BitVec.extractLsb'_append_eq_of_le, BitVec.extractLsb'_append_eq_of_add_le]
  simp

@[simp] theorem EM.ofBits_bits (x : EM) : EM.ofBits x.bits = x := by
  simp only [EM.ofBits, getLsbD_eq_getLsbD_extractLsb' x.bits]
  simp (disch := decide) only [EM.bits, BitVec.extractLsb'_append_eq_of_le, BitVec.extractLsb'_append_eq_of_add_le]
  simp

@[simp] theorem MM.ofBits_bits (x : MM) : MM.ofBits x.bits = x := by
  simp only [MM.ofBits, getLsbD_eq_getLsbD_extractLsb' x.bits]
  simp (disch := decide) only [MM.bits, BitVec.extractLsb'_append_eq_of_le, BitVec.extractLsb'_append_eq_of_add_le]
  simp

@[simp] theorem AM.bits_ofBits (m : BitVec 16) : (AM.ofBits m).bits = m := by
  simp (disch := decide) only [AM.ofBits, AM.bits, ofBool_getLsbD, BitVec.extractLsb'_append_extractLsb'_eq_extractLsb']
  simp

@[simp] theorem SM.bits_ofBits (m : BitVec 16) : (SM.ofBits m).bits = m := by
  simp (disch := decide) only [SM.ofBits, SM.bits, ofBool_getLsbD, BitVec.extractLsb'_append_extractLsb'_eq_extractLsb']
  simp

@[simp] theorem EM.bits_ofBits (m : BitVec 16) : (EM.ofBits m).bits = m := by
  simp (disch := decide) only [EM.ofBits, EM.bits, ofBool_getLsbD, BitVec.extractLsb'_append_extractLsb'_eq_extractLsb']
  simp

@[simp] theorem MM.bits_ofBits (c : BitVec 8) : (MM.ofBits c).bits = c := by
  simp (disch := decide) only [MM.ofBits, MM.bits, ofBool_getLsbD, BitVec.extractLsb'_append_extractLsb'_eq_extractLsb']
  simp

theorem AM.bits_and (x y : AM) :
    x.bits &&& y.bits = AM.bits ⟨x.ty &&& y.ty, x.aux &&& y.aux, x.rnd &&& y.rnd, x.sat && y.sat, x.lo &&& y.lo⟩ := by
  rw [AM.bits, AM.bits]
  iterate 4 rw [BitVec.and_append]
  rw [BitVec.ofBool_and_ofBool]
  rfl

theorem SM.bits_and (x y : SM) : x.bits &&& y.bits =
    SM.bits ⟨x.ty &&& y.ty, x.op &&& y.op, x.scope &&& y.scope, x.order &&& y.order, x.post && y.post, x.ap && y.ap⟩ := by
  rw [SM.bits, SM.bits]
  iterate 5 rw [BitVec.and_append]
  rw [BitVec.ofBool_and_ofBool, BitVec.ofBool_and_ofBool]
  rfl

theorem EM.bits_and (x y : EM) : x.bits &&& y.bits =
    EM.bits ⟨x.ty &&& y.ty, x.op &&& y.op, x.scope &&& y.scope, x.chk && y.chk, x.tok && y.tok, x.lo &&& y.lo⟩ := by
  rw [EM.bits, EM.bits]
  iterate 5 rw [BitVec.and_append]
  rw [BitVec.ofBool_and_ofBool, BitVec.ofBool_and_ofBool]
  rfl

theorem MM.bits_and (x y : MM) :
    x.bits &&& y.bits = MM.bits ⟨x.size &&& y.size, x.scale && y.scale, x.ap &&& y.ap, x.pol &&& y.pol⟩ := by
  rw [MM.bits, MM.bits]
  iterate 3 rw [BitVec.and_append]
  rw [BitVec.ofBool_and_ofBool]
  rfl

end Sys2Proof
end

section
/-! Check 5 of 03 R52 on the unused fields of a word: it passes exactly if clearing them changes nothing. -/

namespace Sys2Proof

/-! ### The fields that an opcode uses (03 R52, check 5) -/

section
variable (uses : List Fld)

/-- A field if it is used, else zero. -/
def keepIf {n : Nat} (f : Fld) (x : BitVec n) : BitVec n := if uses.contains f then x else 0#n

def AM.keep (x : AM) : AM := ⟨keepIf uses .ty x.ty, keepIf uses .aux x.aux, keepIf uses .rnd x.rnd, uses.contains .sat && x.sat, 0#2⟩

def SM.keep (x : SM) : SM := ⟨0#5, keepIf uses .sop x.op, keepIf uses .sscope x.scope, keepIf uses .sorder x.order, false, false⟩

def EM.keep (x : EM) : EM :=
  ⟨keepIf uses .ety x.ty, keepIf uses .eop x.op, keepIf uses .escope x.scope, uses.contains .echk && x.chk, uses.contains .etok && x.tok, 0#3⟩

def MM.keep (x : MM) : MM := ⟨keepIf uses .size x.size, uses.contains .size && x.scale, keepIf uses .ap x.ap, keepIf uses .ap x.pol⟩

/-- Bits [15:0] with the unused modifiers cleared, in the layout of the used ones. -/
def keepM (m : BitVec 16) : BitVec 16 :=
  if uses.contains .sync || uses.contains .off || uses.contains .immF then m
  else if uses.contains .sop || uses.contains .sscope || uses.contains .sorder then ((SM.ofBits m).keep uses).bits
  else if uses.contains .ety || uses.contains .eop || uses.contains .escope || uses.contains .echk || uses.contains .etok then
    ((EM.ofBits m).keep uses).bits
  else ((AM.ofBits m).keep uses).bits

/-- Bits [23:16] with the unused parts cleared; with TOK clear the token register is unused (05 R83). -/
def keepC (tok : Bool) (c : BitVec 8) : BitVec 8 :=
  if uses.contains .c then (if uses.contains .etok && !tok then 0 else c)
  else if uses.contains .immF then c
  else if uses.contains .size || uses.contains .ap then ((MM.ofBits c).keep uses).bits
  else 0

/-- The fields of a word with the unused ones cleared. -/
def Raw.keep (r : Raw) : Raw :=
  { r with ua := if uses.contains .ua then r.ua else false
           ub := if uses.contains .ub then r.ub else false
           uc := if uses.contains .uc then r.uc else false
           d := keepIf uses .d r.d
           a := keepIf uses .a r.a
           b := if uses.contains .b || uses.contains .immF then r.b else 0
           c := keepC uses r.em.tok r.c
           m := keepM uses r.m }

end

/-- The masks of the used fields leave the same bits as clearing the unused ones does. -/
abbrev MasksAgree (uses : List Fld) : Prop :=
  uses.foldl (fun m f => m ||| f.mMask) 0 = keepM uses (BitVec.allOnes 16) ∧
    ∀ tok, (uses.filter fun f => !(f == .c && uses.contains .etok && !tok)).foldl (fun m f => m ||| f.cMask) 0 =
      keepC uses tok (BitVec.allOnes 8)

/-- They do in each row of the map, by the two digits of its opcode. -/
theorem opcodeUses_masks_digits : ∀ hi < 16, ∀ lo < 16, ∀ uses ∈ opcodeUses (16 * hi + lo), MasksAgree uses := by decide

theorem opcodeUses_masks (op : Nat) (h : op < 256) (uses : List Fld) (hu : uses ∈ opcodeUses op) : MasksAgree uses :=
  opcodeUses_masks_digits (op / 16) (by omega) (op % 16) (by omega) uses (by rwa [Nat.div_add_mod])

section
variable (uses : List Fld)

theorem and_keepIf {n : Nat} (f : Fld) (x : BitVec n) : x &&& keepIf uses f (BitVec.allOnes n) = keepIf uses f x := by
  unfold keepIf
  split <;> simp

theorem AM.and_keep (m : BitVec 16) :
    m &&& ((AM.ofBits (BitVec.allOnes 16)).keep uses).bits = ((AM.ofBits m).keep uses).bits := by
  have hones : AM.ofBits (BitVec.allOnes 16) = ⟨BitVec.allOnes 5, BitVec.allOnes 5, BitVec.allOnes 3, true, BitVec.allOnes 2⟩ := by decide
  conv_lhs => rw [← AM.bits_ofBits m, AM.bits_and, hones]
  simp only [AM.keep, and_keepIf, BitVec.and_zero, Bool.true_and, Bool.and_comm]

theorem SM.and_keep (m : BitVec 16) :
    m &&& ((SM.ofBits (BitVec.allOnes 16)).keep uses).bits = ((SM.ofBits m).keep uses).bits := by
  have hones : SM.ofBits (BitVec.allOnes 16) =
    ⟨BitVec.allOnes 5, BitVec.allOnes 3, BitVec.allOnes 3, BitVec.allOnes 3, true, true⟩ := by decide
  conv_lhs => rw [← SM.bits_ofBits m, SM.bits_and, hones]
  simp only [SM.keep, and_keepIf, BitVec.and_zero, Bool.and_false]

theorem EM.and_keep (m : BitVec 16) :
    m &&& ((EM.ofBits (BitVec.allOnes 16)).keep uses).bits = ((EM.ofBits m).keep uses).bits := by
  have hones : EM.ofBits (BitVec.allOnes 16) =
    ⟨BitVec.allOnes 5, BitVec.allOnes 3, BitVec.allOnes 3, true, true, BitVec.allOnes 3⟩ := by decide
  conv_lhs => rw [← EM.bits_ofBits m, EM.bits_and, hones]
  simp only [EM.keep, and_keepIf, BitVec.and_zero, Bool.true_and, Bool.and_comm]

theorem MM.and_keep (c : BitVec 8) :
    c &&& ((MM.ofBits (BitVec.allOnes 8)).keep uses).bits = ((MM.ofBits c).keep uses).bits := by
  have hones : MM.ofBits (BitVec.allOnes 8) = ⟨BitVec.allOnes 3, true, BitVec.allOnes 2, BitVec.allOnes 2⟩ := by decide
  conv_lhs => rw [← MM.bits_ofBits c, MM.bits_and, hones]
  simp only [MM.keep, and_keepIf, Bool.true_and, Bool.and_comm]

theorem and_keepM (m : BitVec 16) : m &&& keepM uses (BitVec.allOnes 16) = keepM uses m := by
  unfold keepM
  split
  · exact BitVec.and_allOnes
  · split
    · exact SM.and_keep uses m
    · split
      · exact EM.and_keep uses m
      · exact AM.and_keep uses m

theorem and_keepC (tok : Bool) (c : BitVec 8) : c &&& keepC uses tok (BitVec.allOnes 8) = keepC uses tok c := by
  unfold keepC
  split
  · split
    · exact BitVec.and_zero
    · exact BitVec.and_allOnes
  · split
    · exact BitVec.and_allOnes
    · split
      · exact MM.and_keep uses c
      · exact BitVec.and_zero

end

theorem and_not_eq_zero_iff {n : Nat} (x m : BitVec n) : x &&& ~~~m = 0 ↔ x &&& m = x := by
  simp only [BitVec.eq_of_getLsbD_eq_iff, BitVec.getLsbD_and, BitVec.getLsbD_not, BitVec.ofNat_eq_ofNat, BitVec.getLsbD_zero]
  refine forall_congr' fun i => forall_congr' fun hi => ?_
  cases x.getLsbD i <;> simp [hi]

/-- Check 5 of R52 on the unused fields: clearing them changes nothing. -/
theorem Raw.unusedZero_iff {r : Raw} {uses : List Fld} (hu : opcodeUses r.op.toNat = some uses) :
    r.unusedZero uses = true ↔ r.keep uses = r := by
  have hb (p : Bool) (x : BitVec 8) : (p || x == 0) = true ↔ (if p then x else 0) = x := by
    cases p
    · simpa using eq_comm
    · simp
  have hf (f : Fld) (x : BitVec 8) : (uses.contains f || x == 0) = true ↔ keepIf uses f x = x := hb _ x
  have hs (p x : Bool) : (p || !x) = true ↔ (if p then x else false) = x := by cases p <;> simp
  obtain ⟨hm, hc⟩ := opcodeUses_masks r.op.toNat r.op.isLt uses hu
  cases r
  simp only [unusedZero, keep, Raw.mk.injEq, true_and, Bool.and_eq_true, hf, hb, hs, beq_iff_eq, and_not_eq_zero_iff, hm, hc,
    and_keepM, and_keepC]
  constructor
  · rintro ⟨⟨⟨⟨⟨⟨⟨hd, ha⟩, hb⟩, hua⟩, hub⟩, huc⟩, hc⟩, hm⟩
    exact ⟨hua, hub, huc, hd, ha, hb, hc, hm⟩
  · rintro ⟨hua, hub, huc, hd, ha, hb, hc, hm⟩
    exact ⟨⟨⟨⟨⟨⟨⟨hd, ha⟩, hb⟩, hua⟩, hub⟩, huc⟩, hc⟩, hm⟩

end Sys2Proof
end

section
/-! Decoding and encoding (03 R45 to R52, 05 R74 to R83): each row of the map against the word of its instruction, both ways. -/

namespace Sys2Proof

/-! ### The codes of 05 R77 to R83 -/

theorem IntTy.ofCode_eq_some {x : BitVec 5} {t : IntTy} : IntTy.ofCode x = some t ↔ t.code = x := by cases t <;> revert x <;> decide
theorem ByteTy.ofCode_eq_some {x : BitVec 5} {t : ByteTy} : ByteTy.ofCode x = some t ↔ t.code = x := by cases t <;> revert x <;> decide
theorem ElemTy.ofCode_eq_some {x : BitVec 5} {t : ElemTy} : ElemTy.ofCode x = some t ↔ t.code = x := by cases t <;> revert x <;> decide
theorem FTy.ofCode_eq_some {x : BitVec 5} {t : FTy} : FTy.ofCode x = some t ↔ t.code = x := by cases t <;> revert x <;> decide
theorem RedTy.ofCode_eq_some {x : BitVec 5} {t : RedTy} : RedTy.ofCode x = some t ↔ t.code = x := by cases t <;> revert x <;> decide
theorem Rnd.ofCode_eq_some {x : BitVec 3} {t : Rnd} : Rnd.ofCode x = some t ↔ t.code = x := by cases t <;> revert x <;> decide
theorem Cc.ofCode_eq_some {x : BitVec 5} {t : Cc} : Cc.ofCode x = some t ↔ t.code = x := by cases t <;> revert x <;> decide
theorem ShflMode.ofCode_eq_some {x : BitVec 5} {t : ShflMode} : ShflMode.ofCode x = some t ↔ t.code = x := by
  cases t <;> revert x <;> decide
theorem VoteMode.ofCode_eq_some {x : BitVec 5} {t : VoteMode} : VoteMode.ofCode x = some t ↔ t.code = x := by
  cases t <;> revert x <;> decide
theorem RedOp.ofCode_eq_some {x : BitVec 5} {t : RedOp} : RedOp.ofCode x = some t ↔ t.code5 = x := by cases t <;> revert x <;> decide
theorem RedOp.ofCode3_eq_some {x : BitVec 3} {t : RedOp} : RedOp.ofCode3 x = some t ↔ t.code = x := by cases t <;> revert x <;> decide
theorem AtomOp.ofCode_eq_some {x : BitVec 3} {t : AtomOp} : AtomOp.ofCode x = some t ↔ t.code = x := by cases t <;> revert x <;> decide
theorem MemSize.ofCode_eq_some {x : BitVec 3} {t : MemSize} : MemSize.ofCode x = some t ↔ t.code = x := by cases t <;> revert x <;> decide
theorem Aperture.ofCode_eq_some {x : BitVec 2} {t : Aperture} : Aperture.ofCode x = some t ↔ t.code = x := by
  cases t <;> revert x <;> decide
theorem Scope.ofCode_eq_some {x : BitVec 3} {t : Scope} : Scope.ofCode x = some t ↔ t.code = x := by cases t <;> revert x <;> decide
theorem Order.ofCode_eq_some {x : BitVec 3} {t : Order} : Order.ofCode x = some t ↔ t.code = x := by cases t <;> revert x <;> decide
theorem Path.ofCode_eq_some {x : BitVec 3} {t : Path} : Path.ofCode x = some t ↔ t.code = x := by cases t <;> revert x <;> decide
theorem BarLevel.ofCode_eq_some {x : BitVec 3} {t : BarLevel} : BarLevel.ofCode x = some t ↔ t.code = x := by
  cases t <;> revert x <;> decide
theorem PimOp.ofCode_eq_some {x : BitVec 3} {t : PimOp} : PimOp.ofCode x = some t ↔ t.code = x := by cases t <;> revert x <;> decide
@[simp] theorem Policy.ofCode_code (t : Policy) : Policy.ofCode t.code = t := by cases t <;> decide
theorem Policy.code_ofCode (x : BitVec 2) : (Policy.ofCode x).code = x := by revert x; decide

theorem src_isSca (u : Bool) (n : BitVec 8) : (src u n).isSca = u := by cases u <;> rfl
theorem src_num (u : Bool) (n : BitVec 8) : (src u n).num = n := by cases u <;> rfl
@[simp] theorem src_isSca_num (a : Src) : src a.isSca a.num = a := by cases a <;> rfl

@[simp] theorem bytes_append_extract (x : BitVec 32) : x.extractLsb' 24 8 ++ x.extractLsb' 16 8 ++ x.extractLsb' 0 16 = x := by
  simp (disch := decide) only [BitVec.extractLsb'_append_extractLsb'_eq_extractLsb']
  simp

/-- The I format holds the immediate of a word in its last three fields. -/
theorem mkImm_imm (op : BitVec 8) (g : Guard) (d a : BitVec 8) (r : Raw) :
    mkImm op g d a r.imm = mk op g false false false d a r.b r.c r.m := by
  simp (disch := decide) only [mkImm, mk, Raw.imm, BitVec.extractLsb'_append_eq_of_le, BitVec.extractLsb'_append_eq_of_add_le]
  simp

/-- The B format holds its offset where the I format holds its immediate. -/
theorem mkB_imm (op : BitVec 8) (g : Guard) (kind : Nat) (d a : BitVec 8) (r : Raw) :
    mkB op g kind d a r.imm = mk op g false false (kind == 1) d a r.b r.c r.m :=
  congrArg (fun x : Raw => { x with uc := kind == 1 }) (mkImm_imm op g d a r)

theorem mk_zero (op : BitVec 8) (g : Guard) (ua ub uc : Bool) (d a b c : BitVec 8) :
    mk op g ua ub uc d a b c 0 = mk op g ua ub uc d a b c (AM.bits ⟨0#5, 0#5, 0#3, false, 0#2⟩) := rfl

theorem extract_append_bytes (x y : BitVec 8) : (x ++ y : BitVec 16).extractLsb' 8 8 = x ∧ (x ++ y : BitVec 16).extractLsb' 0 8 = y :=
  ⟨BitVec.extractLsb'_append_eq_left, BitVec.extractLsb'_append_eq_right⟩

theorem extract_append_aux_rnd (x : BitVec 5) (y : BitVec 3) :
    (x ++ y : BitVec 8).extractLsb' 3 5 = x ∧ (x ++ y : BitVec 8).extractLsb' 0 3 = y :=
  ⟨BitVec.extractLsb'_append_eq_left, BitVec.extractLsb'_append_eq_right⟩

theorem Raw.kind_eq_zero (r : Raw) : r.kind = 0 ↔ r.ua = false ∧ r.ub = false ∧ r.uc = false := by
  cases h1 : r.ua <;> cases h2 : r.ub <;> cases h3 : r.uc <;> simp [Raw.kind, h1, h2, h3]
theorem Raw.kind_eq_one (r : Raw) : r.kind = 1 ↔ r.ua = false ∧ r.ub = false ∧ r.uc = true := by
  cases h1 : r.ua <;> cases h2 : r.ub <;> cases h3 : r.uc <;> simp [Raw.kind, h1, h2, h3]

/-- Words are equal if their opcodes, their third operands, their modifiers and their other fields are; most are the same by their definition. -/
theorem Raw.eq_of_fields {r r' : Raw} (op : r.op.toNat = r'.op.toNat) (c : r.c = r'.c) (m : r.m = r'.m)
    (rest : { r with op := 0, c := 0, m := 0 } = { r' with op := 0, c := 0, m := 0 }) : r = r' := by
  cases r
  cases r'
  simp only [Raw.mk.injEq] at rest ⊢
  obtain ⟨-, gr, gn, ua, ub, uc, d, a, b, -, -⟩ := rest
  exact ⟨BitVec.eq_of_toNat_eq op, gr, gn, ua, ub, uc, d, a, b, c, m⟩

/-! ### From the instruction of a word to its fields

A row of the map reads some fields; the codes that it reads are those of what it read (`ofCode_eq_some`), so that encoding writes those fields
again and zeros beside them. One row after another, field by field. -/

theorem encodeRaw_of_buildInstr0 {i : Instr} {r : Raw} {uses : List Fld} (hu : opcodeUses r.op.toNat = some uses) :
    buildInstr0 r = some i → encodeRaw i = some (r.keep uses) := by
  obtain ⟨op, gr, gn, ua, ub, uc, d, a, b, c, m⟩ := r
  unfold buildInstr0
  split
  all_goals
    rename_i hop
  case h_53 => intro h; cases h
  all_goals
    rw [hop] at hu
    cases hu
    simp only [Option.bind_eq_some_iff, IntTy.ofCode_eq_some, Cc.ofCode_eq_some, Option.some.injEq, forall_exists_index, and_imp,
      ite_eq_iff, reduceCtorEq, and_false, or_false, or_imp, Raw.kind_eq_zero, Raw.kind_eq_one]
    and_intros
  all_goals
    intros
    subst_vars
    show some _ = some _
    simp only [Option.some.injEq, src_isSca, src_num, mkImm_imm, mkB_imm, mk_zero, extract_append_bytes, extract_append_aux_rnd, *]
  case h_44 | h_45 => -- `addc`, `subb`, whose type is zero
    rename_i h
    exact Raw.eq_of_fields hop.symm rfl (congrArg (fun t => AM.bits ⟨t, 0#5, 0#3, false, 0#2⟩) h.symm) rfl
  case h_52 => -- `lop3`
    rename_i h
    exact Raw.eq_of_fields hop.symm rfl (congrArg (fun t => AM.bits ⟨t, _, _, false, 0#2⟩) h.symm) rfl
  all_goals exact Raw.eq_of_fields hop.symm rfl rfl rfl

theorem rnd_of_excl {x : BitVec 3} (h : x = 0 ∨ x = 1) : (if (x == 1) = true then 1 else 0) = x := by
  rcases h with rfl | rfl <;> rfl

theorem encodeRaw_of_buildInstr1 {i : Instr} {r : Raw} {uses : List Fld} (hu : opcodeUses r.op.toNat = some uses) :
    buildInstr1 r = some i → encodeRaw i = some (r.keep uses) := by
  obtain ⟨op, gr, gn, ua, ub, uc, d, a, b, c, m⟩ := r
  unfold buildInstr1
  split
  all_goals
    rename_i hop
  case h_53 => intro h; cases h
  all_goals
    rw [hop] at hu
    cases hu
    simp only [Option.bind_eq_some_iff, IntTy.ofCode_eq_some, ByteTy.ofCode_eq_some, FTy.ofCode_eq_some, Rnd.ofCode_eq_some,
      RedTy.ofCode_eq_some, RedOp.ofCode_eq_some, ShflMode.ofCode_eq_some, VoteMode.ofCode_eq_some, Cc.ofCode_eq_some, Option.some.injEq,
      forall_exists_index, and_imp, ite_eq_iff, reduceCtorEq, and_false, or_false, @eq_comm _ _ (FTy.code .f32)]
    intros
    subst_vars
    show some _ = some _
    simp only [Option.some.injEq, src_isSca, src_num, mkImm_imm, mk_zero, *]
  case h_14 => -- `prmt`
    rename_i h
    exact Raw.eq_of_fields hop.symm rfl (congrArg (fun t => AM.bits ⟨t, 0#5, 0#3, false, 0#2⟩) h.symm) rfl
  case h_49 => -- `lscan`
    rename_i h
    exact Raw.eq_of_fields hop.symm rfl (congrArg (fun t => AM.bits ⟨_, _, t, false, 0#2⟩) (rnd_of_excl h)) rfl
  all_goals exact Raw.eq_of_fields hop.symm rfl rfl rfl

theorem Raw.isSome_tokReg (r : Raw) : r.tokReg.isSome = r.em.tok := by
  unfold Raw.tokReg
  cases r.em.tok <;> rfl

theorem Raw.getD_tokReg (r : Raw) : r.tokReg.getD 0 = if !r.em.tok then 0 else r.c := by
  unfold Raw.tokReg
  cases r.em.tok <;> rfl

theorem ms_beq_ms (b : Bool) : ((if b then Aperture.ms else .cached) == .ms) = b := by cases b <;> rfl

theorem encodeRaw_of_buildInstr2 {i : Instr} {r : Raw} {uses : List Fld} (hu : opcodeUses r.op.toNat = some uses) (hz : i.zeroOk = true) :
    buildInstr2 r = some i → encodeRaw i = some (r.keep uses) := by
  obtain ⟨op, gr, gn, ua, ub, uc, d, a, b, c, m⟩ := r
  unfold buildInstr2
  split
  all_goals
    rename_i hop
  case h_52 => intro h; cases h
  all_goals
    rw [hop] at hu
    cases hu
    simp only [Option.bind_eq_some_iff, FTy.ofCode_eq_some, RedTy.ofCode_eq_some, ElemTy.ofCode_eq_some, RedOp.ofCode3_eq_some,
      AtomOp.ofCode_eq_some, MemSize.ofCode_eq_some, Aperture.ofCode_eq_some, Scope.ofCode_eq_some, Order.ofCode_eq_some,
      Path.ofCode_eq_some, BarLevel.ofCode_eq_some, PimOp.ofCode_eq_some, Option.some.injEq, forall_exists_index, and_imp, ite_eq_iff,
      reduceCtorEq, and_false, or_false, false_or, or_imp, @eq_comm _ _ (FTy.code .f32), @eq_comm _ _ (FTy.code .f64),
      @eq_comm _ _ (FTy.code .bf16)]
    intros
    and_intros
  all_goals
    intros
    subst_vars
    show some _ = some _
    simp only [Option.some.injEq, src_isSca, src_num, mkImm_imm, mk_zero, Policy.code_ofCode, Raw.isSome_tokReg, Raw.getD_tokReg,
      ms_beq_ms, *]
  case h_3 | h_4 => -- `ldu`, `stu`
    obtain ⟨rfl, rfl⟩ : ua = false ∧ ub = false := by simpa [Instr.zeroOk, Raw.maddr] using hz
    exact Raw.eq_of_fields hop.symm rfl rfl rfl
  case h_7 => -- `prf`
    rename_i h
    have hsc : (MM.ofBits c).scale = false := by simpa [Instr.zeroOk, Raw.maddr, Raw.mm_eq] using hz
    have hap : (MM.ofBits c).ap = 0#2 := h
    have hc : MM.bits ⟨0#3, (MM.ofBits c).scale, 0#2, (MM.ofBits c).pol⟩ = MM.bits ⟨0#3, false, (MM.ofBits c).ap, (MM.ofBits c).pol⟩ := by
      rw [hsc, hap]
    exact Raw.eq_of_fields hop.symm hc rfl rfl
  case h_8 | h_9 => -- `atom`, `atomu`
    exact Raw.eq_of_fields hop.symm rfl (SM.bits_ofBits m) rfl
  case h_10 => -- `atoms`
    rename_i h
    have hap : false = (SM.ofBits m).ap := (Bool.eq_false_iff.2 h).symm
    exact Raw.eq_of_fields hop.symm rfl ((congrArg (fun p => SM.bits ⟨_, _, _, _, _, p⟩) hap).trans (SM.bits_ofBits m)) rfl
  case h_14 | h_15 | h_16 => -- `cln`, `inv`, `clninv`
    have hsc : (MM.ofBits c).scale = false := by simpa [Instr.zeroOk, Raw.maddr, Raw.mm_eq] using hz
    exact Raw.eq_of_fields hop.symm (congrArg (fun p => MM.bits ⟨0#3, p, 0#2, 0#2⟩) hsc) rfl rfl
  case h_31.refl.refine_1 | h_31.refl.refine_2 => -- `fill`
    rename_i h
    exact Raw.eq_of_fields hop.symm rfl (congrArg (fun t => EM.bits ⟨t, 0#3, 0#3, false, _, 0#3⟩) h.symm) rfl
  all_goals exact Raw.eq_of_fields hop.symm rfl rfl rfl

theorem encodeRaw_of_buildInstr {i : Instr} {r : Raw} {uses : List Fld} (hu : opcodeUses r.op.toNat = some uses) (hz : i.zeroOk = true)
    (h : buildInstr r = some i) : encodeRaw i = some (r.keep uses) := by
  unfold buildInstr at h
  split at h
  · exact encodeRaw_of_buildInstr0 hu h
  · split at h
    · exact encodeRaw_of_buildInstr1 hu h
    · exact encodeRaw_of_buildInstr2 hu hz h

/-! ### From the fields of an instruction to their row -/

@[simp] theorem IntTy.ofCode_code (t : IntTy) : IntTy.ofCode t.code = some t := ofCode_eq_some.2 rfl
@[simp] theorem ByteTy.ofCode_code (t : ByteTy) : ByteTy.ofCode t.code = some t := ofCode_eq_some.2 rfl
@[simp] theorem FTy.ofCode_code (t : FTy) : FTy.ofCode t.code = some t := ofCode_eq_some.2 rfl
@[simp] theorem RedTy.ofCode_code (t : RedTy) : RedTy.ofCode t.code = some t := ofCode_eq_some.2 rfl
@[simp] theorem Rnd.ofCode_code (t : Rnd) : Rnd.ofCode t.code = some t := ofCode_eq_some.2 rfl
@[simp] theorem Cc.ofCode_code (t : Cc) : Cc.ofCode t.code = some t := ofCode_eq_some.2 rfl
@[simp] theorem ElemTy.ofCode_code (t : ElemTy) : ElemTy.ofCode t.code = some t := ofCode_eq_some.2 rfl
@[simp] theorem ShflMode.ofCode_code (t : ShflMode) : ShflMode.ofCode t.code = some t := ofCode_eq_some.2 rfl
@[simp] theorem VoteMode.ofCode_code (t : VoteMode) : VoteMode.ofCode t.code = some t := ofCode_eq_some.2 rfl
@[simp] theorem RedOp.ofCode_code (t : RedOp) : RedOp.ofCode t.code5 = some t := ofCode_eq_some.2 rfl
@[simp] theorem RedOp.ofCode3_code (t : RedOp) : RedOp.ofCode3 t.code = some t := ofCode3_eq_some.2 rfl
@[simp] theorem AtomOp.ofCode_code (t : AtomOp) : AtomOp.ofCode t.code = some t := ofCode_eq_some.2 rfl
@[simp] theorem MemSize.ofCode_code (t : MemSize) : MemSize.ofCode t.code = some t := ofCode_eq_some.2 rfl
@[simp] theorem Aperture.ofCode_code (t : Aperture) : Aperture.ofCode t.code = some t := ofCode_eq_some.2 rfl
@[simp] theorem Scope.ofCode_code (t : Scope) : Scope.ofCode t.code = some t := ofCode_eq_some.2 rfl
@[simp] theorem Order.ofCode_code (t : Order) : Order.ofCode t.code = some t := ofCode_eq_some.2 rfl
@[simp] theorem Path.ofCode_code (t : Path) : Path.ofCode t.code = some t := ofCode_eq_some.2 rfl
@[simp] theorem BarLevel.ofCode_code (t : BarLevel) : BarLevel.ofCode t.code = some t := ofCode_eq_some.2 rfl
@[simp] theorem PimOp.ofCode_code (t : PimOp) : PimOp.ofCode t.code = some t := ofCode_eq_some.2 rfl

theorem opcodeUses_of_encodeRaw {i : Instr} {r : Raw} (h : encodeRaw i = some r) : ∃ uses, opcodeUses r.op.toNat = some uses := by
  cases i
  all_goals cases h
  all_goals exact ⟨_, rfl⟩

@[simp] theorem AM.ofBits_zero_ty : (AM.ofBits 0#16).ty = 0#5 := by decide

@[simp] theorem halves_append_extract (x : BitVec 16) : x.extractLsb' 8 8 ++ x.extractLsb' 0 8 = x :=
  BitVec.extractLsb'_append_extractLsb'

@[simp] theorem aux_append_rnd (x : BitVec 8) : x.extractLsb' 3 5 ++ x.extractLsb' 0 3 = x := BitVec.extractLsb'_append_extractLsb'

/-- The token register of a command, read back from its word. -/
@[simp] theorem Raw.tokReg_getD (op : BitVec 8) (gr : BitVec 4) (gn ua ub uc : Bool) (d a b : BitVec 8) (ty : BitVec 5) (x y : BitVec 3)
    (chk : Bool) (lo : BitVec 3) (tok : TokReg) :
    Raw.tokReg ⟨op, gr, gn, ua, ub, uc, d, a, b, tok.getD 0#8, EM.bits ⟨ty, x, y, chk, tok.isSome, lo⟩⟩ = tok := by
  rw [Raw.tokReg, Raw.em_eq, EM.ofBits_bits]
  cases tok <;> rfl

/-- The row of the map that a word's opcode names reads the instruction back from its word. -/
theorem buildInstr_of_encodeRaw {i : Instr} {r : Raw} (h : encodeRaw i = some r) : buildInstr r = some i := by
  cases i
  all_goals cases h
  case nop | exit | yield | ufmt | ballot | rdenter | rdexit | srel | bload | cbt | tokset | cwait | resume | csrr | csrw | dfree | dbg | halt |
      regroup | emit => rfl
  case brq whenFalse _ _ =>
    cases whenFalse
    all_goals
      show some _ = _
      simp [mkB, Raw.guard, Raw.imm]
  case loop vector _ _ =>
    cases vector
    all_goals
      show some _ = _
      simp [mkB, Raw.guard, Raw.imm]
  case addc | subb | prmt | frcp | frsq | fex2 | flg2 | frred | fsin | fcos | lop3 | prf =>
    show (if _ = _ then some _ else _) = _
    simp [mk, mkM, Raw.guard, Raw.am_eq, Raw.mm_eq, Raw.maddr]
  case srsv wide _ _ =>
    show (if _ = _ then some _ else _) = _
    cases wide <;> simp [mk, Raw.guard, Raw.em_eq, FTy.code]
  case fill wide _ _ _ _ =>
    show (if _ = _ then some _ else _) = _
    cases wide <;> simp [mk, Raw.guard, Raw.em_eq]
  case pim =>
    show (if _ = _ then _ else _) = _
    simp [mk, Raw.guard, Raw.em_eq]
  case lscan excl _ _ =>
    show Option.bind _ _ = _
    cases excl <;> simp [mk, Raw.guard, Raw.am_eq]
  case atom ap _ _ _ _ | atomu ap _ _ _ _ =>
    show Option.bind _ _ = _
    cases ap <;> simp [mk, Raw.guard, Raw.sm_eq]
  case uli | ulih | usrd | uswr | ulease | li | trap | brk | sleep | bra | regang | call | bdiv | calli | ret | jmpi | cln | inv | clninv |
      mma | szero | srd | swr | sst | cpy | rowcp | rowz =>
    show some _ = _
    simp [mk, mkB, mkImm, mkM, Raw.guard, Raw.imm, Raw.mm_eq, Raw.em_eq, Raw.maddr]
  all_goals
    show Option.bind _ _ = _
    simp [mk, mkM, Raw.guard, Raw.am_eq, Raw.sm_eq, Raw.em_eq, Raw.mm_eq, Raw.maddr]

/-! ### Decoding and encoding (05 R74) -/

theorem Instr.wf_iff {i : Instr} : i.wf = true ↔ i.reservedOk = true ∧ i.legalOk = true := Bool.and_eq_true_iff

theorem Instr.zeroOk_of_reservedOk {i : Instr} (h : i.reservedOk = true) : i.zeroOk = true := (Bool.and_eq_true_iff.1 h).1

theorem decodeRaw_of_encodeRaw {i : Instr} {r : Raw} (h : encodeRaw i = some r) (hw : i.wf = true) : decodeRaw r = .ok i := by
  obtain ⟨hres, hlegal⟩ := Instr.wf_iff.1 hw
  obtain ⟨uses, hu⟩ := opcodeUses_of_encodeRaw h
  have hb := buildInstr_of_encodeRaw h
  have hkeep : r.keep uses = r := by
    have := encodeRaw_of_buildInstr hu (Instr.zeroOk_of_reservedOk hres) hb
    rw [h] at this
    exact (Option.some.inj this).symm
  simp [decodeRaw, hu, (Raw.unusedZero_iff hu).2 hkeep, hb, hres, hlegal]

theorem encodeRaw_of_decodeRaw {i : Instr} {r : Raw} (h : decodeRaw r = .ok i) : encodeRaw i = some r ∧ i.wf = true := by
  unfold decodeRaw at h
  split at h
  · cases h
  · rename_i uses hu
    split at h
    · rename_i hunused
      split at h
      · split at h <;> cases h
      · rename_i j hb
        split at h
        · cases h
        · rename_i hres
          split at h
          · rename_i hlegal
            cases h
            have hres : i.reservedOk = true := by simpa using hres
            refine ⟨?_, Instr.wf_iff.2 ⟨hres, hlegal⟩⟩
            rw [encodeRaw_of_buildInstr hu (Instr.zeroOk_of_reservedOk hres) hb, (Raw.unusedZero_iff hu).1 hunused]
          · cases h
    · cases h

/-- Settles O57: a word is its fields, and the fields of an instruction's word are those that its row of the map reads, the others being zero. -/
theorem decodeAndEncodeAgree : Obligations.DecodeAndEncodeAgree := by
  refine ⟨fun i w he hw => ?_, fun i w hd => ?_⟩
  · obtain ⟨r, hr, rfl⟩ := Option.map_eq_some_iff.1 he
    rw [decode, Raw.ofWord_toWord]
    exact decodeRaw_of_encodeRaw hr hw
  · obtain ⟨hr, hw⟩ := encodeRaw_of_decodeRaw hd
    rw [encode, hr, Option.map_some, Raw.toWord_ofWord]
    exact ⟨rfl, hw⟩

end Sys2Proof
end

section
/-! The spec's worked encodings, evaluated. -/

namespace Sys2Proof

/-- Settles O53: the decoder and the encoder, run on each word of the list. -/
theorem workedEncodings : Obligations.WorkedEncodings := by
  refine ⟨?refusedSat, ?refusedZero, ?listed⟩
  case refusedSat => decide
  case refusedZero => decide
  case listed => decide

end Sys2Proof
end

section
/-! A step: every instruction answers, what a fetch from the L2 reads, and what the turn's plan comes to (03 R43, R52, R53; 12 R206, R208). -/

namespace Sys2Proof.Machine

/-! ### Every instruction answers -/

theorem exec_next (i : Instr) (s : State) : ∃ t, exec i s = .next t := by
  cases i <;> exact ⟨_, rfl⟩

theorem issueWord_of_exec {s t : State} {i : Instr} (h : exec i (s.enterRegion i) = .next t) : issueWord s i = .next (t.afterWord s i) := by
  simp [issueWord, h]

theorem step_of_act {s t : State} (h : act s = .next t) : step s = .next t.around := by simp [step, h]

/-! ### Fetches -/

theorem bitOf_toNat {n : Nat} (x : BitVec n) (i : Nat) : bitOf x.toNat i = x.getLsbD i := by
  rw [BitVec.getLsbD, Nat.testBit_eq_decide_div_mod_eq]
  rfl

theorem valueIn_div (n d : Nat) : ∀ (m : Nat → Byte) (a k : Nat), (∀ j, j < n → m (a + j) = BitVec.ofNat 8 (d / 256 ^ (k + j))) →
    valueIn m a n = d / 256 ^ k % 256 ^ n := by
  induction n with
  | zero => intros; simp [valueIn, Nat.mod_one]
  | succ n ih =>
    intro m a k h
    have hrest := ih m (a + 1) (k + 1) fun j hj => by
      rw [show a + 1 + j = a + (j + 1) by omega, show k + 1 + j = k + (j + 1) by omega]
      exact h (j + 1) (by omega)
    have hfirst : (m a).toNat = d / 256 ^ k % 256 := by simpa using congrArg BitVec.toNat (h 0 (by omega))
    rw [valueIn, hrest, hfirst, pow_succ' 256 n, Nat.mod_mul, Nat.div_div_eq_div_mul, ← pow_succ]

/-- A granule that the L2 holds without poison holds each of its sectors so. -/
theorem HeldInL2.sector {s : State} {pa : Nat} (h : HeldInL2 s pa) : ∃ y, s.l2? (pa / 32) = some y ∧ y.poison = 0 := by
  have := h (pa / 32 % 4) (by omega)
  rwa [show 4 * (pa / 128) + pa / 32 % 4 = pa / 32 by omega] at this

theorem HeldInL2.whole {s : State} {pa : Nat} (h : HeldInL2 s pa) : ((secsOf (pa / 128)).all fun k => (s.l2? k).isSome) = true := by
  have hk (k : Nat) (hk : k < 4) : (s.l2? (4 * (pa / 128) + k)).isSome = true := by
    obtain ⟨y, hy, -⟩ := h k hk
    simp [hy]
  simpa [secsOf] using ⟨hk 0 (by omega), hk 1 (by omega), hk 2 (by omega), hk 3 (by omega)⟩

theorem HeldInL2.peek {s : State} {pa : Nat} (h : HeldInL2 s pa) (ha : pa % 8 = 0) : s.peek pa 8 = valueIn s.byteAt pa 8 := by
  obtain ⟨y, hy, -⟩ := h.sector
  rw [valueIn_div 8 y.data s.byteAt pa (pa % 32) fun j hj => ?_, State.peek, hy]
  · rfl
  · rw [State.byteAt, show (pa + j) / 32 = pa / 32 by omega, hy, show (pa + j) % 32 = pa % 32 + j by omega]

/-- A cached read of a granule that this package, alone, holds in its L2. -/
theorem HeldInL2.cachedRead {s : State} {pa : Nat} (h : HeldInL2 s pa) (ha : pa % 8 = 0) (hen : s.fabric.en = false)
    (hl : homeOf pa = s.fabric.self) (q : Option Nat) :
    s.cachedRead q pa 8 = .ok (s.useLine (pa / 256)) (valueIn s.byteAt pa 8) := by
  have hacq : s.acquire q pa .read = .ok s () := by
    have hw : (Want.read == Want.write) = false := rfl
    simp [State.acquire, State.remote, hl, State.acquireLocal, h.whole, hen, State.l2Fill, hw]
  obtain ⟨y, hy, hp⟩ := h.sector
  rw [State.cachedRead, hacq]
  simp [Try.bind, State.l2Poison, hy, hp, h.peek ha]

/-- What a fetch reads where the core has the translation and the L2 the word. -/
theorem FetchesAt.fetch {s : State} {core : Nat} {g : Group} {va w : Nat} (h : FetchesAt s core g va w) :
    ∃ line, s.fetch core g.ids.queue g.mon va = .ok (s.useLine line) w := by
  obtain ⟨hen, hfen, hva, t, pa, ht, -, rfl, hself, hlt, hdata, halign, huser, hex, hcached, hheld, rfl⟩ := h
  set pa := (t.leaf.extractLsb' 12 48).toNat * 4096 / t.size * t.size + va % t.size with hpa
  have hhome : homeOf pa = s.fabric.self := by rw [homeOf, hself, Nat.mod_eq_of_lt hlt]
  have hleafPa : leafPa t.leaf.toNat t.size va = pa := by
    simp [leafPa, ptePa, bitsOf, hpa, BitVec.extractLsb'_toNat, Nat.shiftRight_eq_div_pow]
  have hallows : leafAllows t.leaf.toNat g.mon ⟨false, false, true, some .cached⟩ = true := by
    simpa [leafAllows, bitOf_toNat, hex] using And.intro huser hcached
  have hok : s.paOk pa = true := by simp [State.paOk, hhome, hen, hdata, hfen]
  have htr : s.translate core g.ids.queue g.mon ⟨false, false, true, some .cached⟩ va = .ok s (pa, t.leaf.toNat) := by
    simp only [State.translate, State.leafOf, State.hwOf, ht, Try.bind, hleafPa, hok, hallows]
    rfl
  refine ⟨pa / 256, ?_⟩
  rw [State.fetch, if_neg (by simpa [vaEnd] using hva), htr]
  simp [Try.bind, hheld.cachedRead halign hen hhome, Try.lane]

/-! ### The plan of a turn of issue -/

theorem Issuing.mayIssue {s : State} {core slot k : Nat} {g : Group} (h : Issuing s core slot k g) : s.mayIssue core g k = true := by
  obtain ⟨-, -, hact, hagain, ⟨hrun, hstep, hunw, huns⟩, ⟨hst, -⟩, hsound, ⟨-, hlead, -⟩, -, ⟨hsave, hrem, hheld, hdie⟩⟩ := h
  have hfaults : (g.inflight.any fun o => o.fault.isSome) = false := by simpa using hsound
  have hwaits : (g.again && !g.inflight.isEmpty) = false := by
    rcases hagain with ha | ha <;> simp [ha]
  have hactive : (g.act.st == .active || g.act.st == .forced) = true := by simpa using hact
  simp [State.mayIssue, State.ctxMoves, hlead, hrun, hstep, hunw, huns, hst, hfaults, hwaits, hactive, hsave, hrem, hheld, hdie]

theorem Group.comparator_unwatched {g : Group} (h : ∀ b ∈ g.dbg.bp, b.getLsbD 58 = false) (k : Nat) : g.comparator k = none := by
  have hoff (i : Nat) : (g.dbg.bp.getD i 0).getLsbD 58 = false := by
    rw [List.getD_eq_getElem?_getD]
    cases hi : g.dbg.bp[i]? with
    | none => rfl
    | some b => exact h b (List.mem_of_getElem? hi)
  simp only [Group.comparator, bitOf_toNat, hoff, Bool.false_and]
  split
  · rfl
  · simp

theorem UsesOnly.group? {s t : State} (h : UsesOnly s t) (core slot : Nat) : t.group? core slot = s.group? core slot := by
  rw [UsesOnly] at h
  have e := congrArg State.groups h
  exact congrArg (Tbl.find? · (gkey core slot)) e

/-- The state with the issue of a word begun, before and after its clause's header is read. -/
abbrev State.atWord (s : State) (core slot k : Nat) : State := { s with cur := ⟨core, slot, k, none, 15, false⟩ }
abbrev State.issuing (s : State) (core slot k : Nat) (p : Pos) (h : Header) : State :=
  { s with cur := { core := core, slot := slot, entry := k, flag := h.flagOf p.slot, len := h.len, region := h.region } }

theorem fetchWord_of_fetchesAt {s : State} {core slot k : Nat} {g : Group} {hw w : Nat} (hhead : FetchesAt s core g (g.ent k).pos.caddr hw)
    (hword : FetchesAt s core g ((g.ent k).pos.caddr + 8 * (g.ent k).pos.slot) w) :
    ∃ s0, UsesOnly s s0 ∧
      let s1 := s0.issuing core slot k (g.ent k).pos (Header.ofWord (BitVec.ofNat 64 hw))
      (∀ i, decode (BitVec.ofNat 64 w) = .ok i → (s.atWord core slot k).fetchWord core slot k g = .word s1 i) ∧
      ∀ op, decode (BitVec.ofNat 64 w) = .error (.unassigned op) → (s.atWord core slot k).fetchWord core slot k g = .unassigned s1 op := by
  obtain ⟨l1, hf1⟩ := FetchesAt.fetch (s := s.atWord core slot k) hhead
  obtain ⟨l2, hf2⟩ := FetchesAt.fetch (s := (s.useLine l1).issuing core slot k (g.ent k).pos (Header.ofWord (BitVec.ofNat 64 hw))) hword
  refine ⟨(s.useLine l1).useLine l2, rfl, fun i hd => ?_, fun op hd => ?_⟩ <;>
  · simp only [State.fetchWord, hf1]
    erw [hf2]
    simp only [hd]
    rfl

theorem Issuing.plan_word {s s1 : State} {core slot k : Nat} {g : Group} {i : Instr} (h : Issuing s core slot k g)
    (hf : (s.atWord core slot k).fetchWord core slot k g = .word s1 i) : s.plan core slot k = .word s1 i := by
  have hmay := h.mayIssue
  have hcmp := Group.comparator_unwatched h.unwatched k
  obtain ⟨-, hg, -, -, ⟨-, hstep, -, -⟩, ⟨-, hslot⟩, -, ⟨hblock, hlead, hshadow⟩, -, -⟩ := h
  simp [State.plan, hg, hmay, State.passBlock, hblock, hstep, hcmp, hslot, State.shadowGate, hlead, hf, State.leaderGate, hshadow]

theorem Issuing.plan_unassigned {s s1 : State} {core slot k : Nat} {g : Group} {op : BitVec 8} (h : Issuing s core slot k g)
    (hf : (s.atWord core slot k).fetchWord core slot k g = .unassigned s1 op) :
    s.plan core slot k = .run s1 (.unassignedOpcode op) := by
  have hmay := h.mayIssue
  have hcmp := Group.comparator_unwatched h.unwatched k
  obtain ⟨-, hg, -, -, ⟨-, hstep, -, -⟩, ⟨-, hslot⟩, -, ⟨hblock, hlead, -⟩, -, -⟩ := h
  simp [State.plan, hg, hmay, State.passBlock, hblock, hstep, hcmp, hslot, State.shadowGate, hlead, hf]

/-- No region is open at a word that is not the first of a REGION clause. -/
theorem enterRegion_unopened {s : State} {g : Group} (i : Instr) (hg : s.group? s.cur.core s.cur.slot = some g)
    (h : s.cur.region = false ∨ (g.ent s.cur.entry).pos.slot ≠ 1) :
    s.enterRegion i = s.setGroup s.cur.core s.cur.slot { g with again := false } := by
  have hno : s.opensRegion g i = false := by
    rcases h with h | h <;> simp [State.opensRegion, h]
  rw [State.enterRegion, State.updGroup_some s hg, hno]
  rfl

/-! ### A step -/

theorem Issuing.step_word {s s1 : State} {core slot k : Nat} {g : Group} {i : Instr} (h : Issuing s core slot k g)
    (hp : s.plan core slot k = .word s1 i) : ∃ t, exec i (s1.enterRegion i) = .next t ∧ step s = .next (t.afterWord s1 i).around := by
  obtain ⟨t, ht⟩ := exec_next i (s1.enterRegion i)
  refine ⟨t, ht, step_of_act ?_⟩
  simp only [act, h.turn, hp]
  exact issueWord_of_exec ht

theorem Issuing.step_run {s s1 : State} {core slot k : Nat} {g : Group} {i : Instr} (h : Issuing s core slot k g)
    (hp : s.plan core slot k = .run s1 i) : ∃ t, exec i s1 = .next t ∧ step s = .next t.around := by
  obtain ⟨t, ht⟩ := exec_next i s1
  refine ⟨t, ht, step_of_act ?_⟩
  simp only [act, h.turn, hp]
  exact ht

theorem step_event {s : State} {i : Instr} (h : s.turn = .event i) :
    if Instr.isEvent i then ∃ t, exec i s = .next t ∧ step s = .next t.around else step s = .next s.around := by
  split
  case isTrue he =>
    obtain ⟨t, ht⟩ := exec_next i s
    exact ⟨t, ht, step_of_act (by simp [act, h, he, ht])⟩
  case isFalse he => exact step_of_act (by simp [act, h, he])

theorem step_status {s : State} {core slot : Nat} {g : Group} {o : StatusOp} {rest : List StatusOp} (h : s.turn = .status core slot)
    (hg : s.group? core slot = some g) (ho : g.statuses = o :: rest) :
    step s = .next (s.setGroup core slot { g.wrS o.reg o.value with statuses := rest }).around :=
  step_of_act (by simp [act, h, State.updGroup_some s hg, Group.writeStatus, ho])

theorem step_issue_none {s : State} {core slot k : Nat} (h : s.turn = .issue core slot k) (hg : s.group? core slot = none) :
    step s = .next s.around :=
  step_of_act (by simp [act, h, State.plan, hg])

/-- Settles O55: what the turn names is what runs, and a fetch that its L2 holds reads the header and the word. -/
theorem stepRunsTheWord : Obligations.StepRunsTheWord := by
  refine ⟨?words, fun s i => step_event, ?statuses, fun s core slot k => step_issue_none⟩
  case words =>
    intro s core slot k g hw w hi hhead hword
    obtain ⟨s0, hs0, hwd, hun⟩ := fetchWord_of_fetchesAt (slot := slot) hhead hword
    have hg : s0.group? core slot = some g := by rw [hs0.group?, hi.here]
    refine ⟨s0, hs0, fun i hd => ⟨hi.step_word (hi.plan_word (hwd i hd)), fun hr => ?_⟩,
      fun op hd => hi.step_run (hi.plan_unassigned (hun op hd))⟩
    exact enterRegion_unopened (s := s0.issuing core slot k _ _) i hg hr
  case statuses =>
    intro s core slot g o rest ht hg ho
    refine ⟨g.wrS o.reg o.value, ?_, step_status ht hg ho⟩
    rw [show g.wrS o.reg o.value = g.wrSs o.reg 1 o.value.toNat by simp [Group.wrSs]]
    exact Group.wrSs_written g o.reg 1 o.value.toNat

end Sys2Proof.Machine
end

section
/-! What a word meets before its meaning, and what a fault of class F does (03 R50, R52; 14 R250, R253, R255; 18 R340). -/

namespace Sys2Proof.Machine

/-! ### Checks of a word -/

/-- Every word issues: its checks come before its own meaning. -/
theorem exec_eq_issue (i : Instr) (hi : i.guard? ≠ none) (s : State) : ∃ body, exec i s = issue i s body := by
  cases i
  all_goals try exact absurd rfl hi
  all_goals exact ⟨_, rfl⟩

theorem checkWord_privilege {i : Instr} {mon : Bool} {nvr slot len : Nat} (h : ¬ (mon = true ∨ i.needsMon = false)) :
    checkWord i mon nvr slot len = some 0x03 := by
  have : mon = false ∧ i.needsMon = true := by simpa using h
  simp [checkWord, this]

theorem checkWord_reserved {i : Instr} {mon : Bool} {nvr slot len : Nat} (hm : mon = true ∨ i.needsMon = false) (h : i.reservedOk = false) :
    checkWord i mon nvr slot len = some 0x02 := by
  have : (!mon && i.needsMon) = false := by rcases hm with h | h <;> simp [h]
  simp [checkWord, this, h]

/-- The values and registers of the encoding, and the last slot for a word that ends its clause (03 R52). -/
abbrev ListedAt (i : Instr) (nvr slot len : Nat) : Prop :=
  i.legalOk = true ∧ (∀ o ∈ i.operands, o.withinDecl nvr = true) ∧ (i.endsClause = true → slot = len)

theorem listedAt_iff (i : Instr) (nvr slot len : Nat) : ListedAt i nvr slot len ↔
    (!i.legalOk || !i.operands.all (Opnd.withinDecl nvr) || (i.endsClause && slot != len)) = false := by
  simp [ListedAt, and_assoc]

theorem checkWord_unlisted {i : Instr} {mon : Bool} {nvr slot len : Nat} (hm : mon = true ∨ i.needsMon = false) (hz : i.reservedOk = true)
    (h : ¬ ListedAt i nvr slot len) : checkWord i mon nvr slot len = some 0x01 := by
  have hp : (!mon && i.needsMon) = false := by rcases hm with h | h <;> simp [h]
  rw [listedAt_iff, Bool.not_eq_false] at h
  simp only [checkWord, hp, hz, h]
  rfl

theorem checkWord_passes {i : Instr} {mon : Bool} {nvr slot len : Nat} (hm : mon = true ∨ i.needsMon = false) (hz : i.reservedOk = true)
    (h : ListedAt i nvr slot len) : checkWord i mon nvr slot len = none := by
  have hp : (!mon && i.needsMon) = false := by rcases hm with h | h <;> simp [h]
  rw [listedAt_iff] at h
  simp only [checkWord, hp, hz, h]
  rfl

/-! ### The faults of a word at issue -/

section
variable {i : Instr} {s : State} {g : Group} (hi : i.guard? ≠ none) (hg : s.group? s.cur.core s.cur.slot = some g)
include hi hg

theorem faults_of_check {c : Nat} (h : checkWord i g.mon g.regs.nvr (s.frag g).pos.slot s.cur.len = some c) : Faults i s g (.word c) := by
  obtain ⟨body, hb⟩ := exec_eq_issue i hi s
  rw [State.frag] at h
  simp only [Faults, hb, issue, State.issueWith, hg, h, State.frag]

theorem faults_of_target {f : FaultInfo} (hc : checkWord i g.mon g.regs.nvr (s.frag g).pos.slot s.cur.len = none)
    (h : targetFault i (s.frag g).pos.addr = some f) : Faults i s g f := by
  obtain ⟨body, hb⟩ := exec_eq_issue i hi s
  rw [State.frag] at hc h
  simp only [Faults, hb, issue, State.issueWith, hg, hc, h, State.frag]

theorem faults_of_badRead {ls : List Nat} {l : Nat} (hc : checkWord i g.mon g.regs.nvr (s.frag g).pos.slot s.cur.len = none)
    (ht : targetFault i (s.frag g).pos.addr = none) (hr : g.readers (s.frag g) i = some ls) (h : g.badRead i ls = some l) :
    Faults i s g ⟨0x31, l, 1, 0, 0⟩ := by
  obtain ⟨body, hb⟩ := exec_eq_issue i hi s
  rw [State.frag] at hc ht hr
  simp only [Faults, hb, issue, State.issueWith, hg, hc, ht, hr, Option.bind_some, h, State.frag]

end

/-! ### Uncorrectable source registers -/

/-- A word reads a scalar register with an uncorrectable error (18 R340). -/
def ReadsBadSca (i : Instr) (g : Group) : Prop :=
  ∃ o ∈ i.operands, o.reads = true ∧ o.cls = .sca ∧ ∃ k, k < o.width ∧ o.num + k ∈ g.regs.badS
/-- A lane of a word reads a vector register with an uncorrectable error. -/
def ReadsBadVec (i : Instr) (g : Group) (l : Nat) : Prop :=
  ∃ o ∈ i.operands, o.reads = true ∧ o.cls = .vec ∧ ∃ k, k < o.width ∧ l * 256 + o.num + k ∈ g.regs.badV

theorem readers_uniform {i : Instr} {g : Group} {gd : Guard} (e : Entry) (hi : i.guard? = some (gd, true)) (h : g.guardUni gd = true) :
    g.readers e i = some [] := by simp [Group.readers, hi, h]

theorem readers_lanes {i : Instr} {g : Group} {gd : Guard} {e : Entry} (hi : i.guard? = some (gd, false)) (h : g.active e gd ≠ []) :
    g.readers e i = some (g.active e gd) := by simp [Group.readers, hi, h]

theorem badRead_of_sca {i : Instr} {g : Group} (h : ReadsBadSca i g) (ls : List Nat) : g.badRead i ls = some 255 := by
  have hany : ((i.operands.filter (·.reads)).any fun o => o.cls == .sca && (List.range o.width).any fun k => g.regs.badS.contains (o.num + k)) = true := by
    simpa [ReadsBadSca, and_assoc] using h
  obtain ⟨o, -, -, -, k, -, hk⟩ := h
  have hne : (g.regs.badV.isEmpty && g.regs.badS.isEmpty) = false := by
    simp [List.ne_nil_of_mem hk]
  simp only [Group.badRead, hne, hany]
  rfl

theorem badRead_of_vec {i : Instr} {g : Group} {e : Entry} {gd : Guard} {l : Nat} (hs : ¬ ReadsBadSca i g) (hl : l ∈ g.active e gd)
    (h : ReadsBadVec i g l) (hlow : ∀ m ∈ g.active e gd, m < l → ¬ ReadsBadVec i g m) : g.badRead i (g.active e gd) = some l := by
  have hsca : ((i.operands.filter (·.reads)).any fun o => o.cls == .sca && (List.range o.width).any fun k => g.regs.badS.contains (o.num + k)) = false := by
    rw [← Bool.not_eq_true]
    simpa [ReadsBadSca, and_assoc] using hs
  have hvec (m : Nat) : ((i.operands.filter (·.reads)).any fun o => o.cls == .vec &&
      (List.range o.width).any fun k => g.regs.badV.contains (m * 256 + o.num + k)) = true ↔ ReadsBadVec i g m := by
    simp [ReadsBadVec]
  have hne : (g.regs.badV.isEmpty && g.regs.badS.isEmpty) = false := by
    obtain ⟨o, -, -, -, k, -, hk⟩ := h
    simp [List.ne_nil_of_mem hk]
  simp only [Group.active, List.mem_filter, List.mem_range] at hl hlow
  rw [Group.badRead, if_neg (by simp [hne])]
  simp only [hsca, Group.active, List.find?_filter, Bool.false_eq_true, if_false]
  rw [List.find?_range_eq_some]
  refine ⟨by simpa [hl.2] using (hvec l).2 h, by simpa using hl.1, fun m hm => ?_⟩
  rw [Bool.not_eq_true', decide_eq_false_iff_not]
  rintro ⟨hact, hhit⟩
  exact hlow m ⟨by omega, hact⟩ hm ((hvec m).1 hhit)

/-! ### Taking a fault -/

theorem ownRecord_iff (g : Group) : g.ownRecord = true ↔ ∃ r ∈ g.stops.unwritten ++ g.stops.unserved, r.resumable = false := by
  simp only [Group.ownRecord, List.any_eq_true, Bool.not_eq_true']

/-- The first fault of class F stops the group and leaves one record. -/
theorem takeFault_records {s : State} {core slot : Nat} {g : Group} (entry : Nat) (pos : Pos) (f : FaultInfo)
    (hg : s.group? core slot = some g) (hl : g.leader = none) (h : g.ownRecord = false) :
    s.takeFault core slot entry pos f = s.setGroup core slot (g.stopWith .faulted (faultRecord s g entry pos f)) := by
  have hlead : ((s.group? core slot).bind fun x => x.leader) = none := by rw [hg]; exact hl
  simp only [State.takeFault, hlead, Option.getD_none, State.updGroup_some s hg, h]
  rfl

/-- While a record of the group's own instructions waits, the fragment is set back to the instruction. -/
theorem takeFault_again {s : State} {core slot : Nat} {g : Group} (entry : Nat) (pos : Pos) (f : FaultInfo)
    (hg : s.group? core slot = some g) (hl : g.leader = none) (h : g.ownRecord = true) :
    s.takeFault core slot entry pos f = s.setGroup core slot (g.stopAgain entry pos f.cause) := by
  have hlead : ((s.group? core slot).bind fun x => x.leader) = none := by rw [hg]; exact hl
  simp only [State.takeFault, hlead, Option.getD_none, State.updGroup_some s hg, h, if_true]

theorem stopAgain_outside_step {g : Group} (entry : Nat) (pos : Pos) (c : Nat) (h : g.dbg.stepping = none) :
    g.stopAgain entry pos c = { g.setEnt entry { g.ent entry with pos := pos } with dbg := { g.dbg with run := .faulted } } := by
  simp only [Group.stopAgain, h]
  rfl

/-- Settles O54: every word issues through the same checks, in the order of 03 R52. -/
theorem wordsAreCheckedAndFaultsTaken : Obligations.WordsAreCheckedAndFaultsTaken := by
  refine ⟨fun i s g hi hg => ?checks, fun s core slot entry pos f g hg hl => ⟨fun hr => ?first, fun hr hs => ?again⟩⟩
  case checks =>
    refine ⟨fun hm => ?_, fun hm hz => ?_, fun hm hz hl => ?_, fun f hm hz hl ht => ?_, fun hm hz hl ht hr hb => ?_,
      fun hm hz hl ht hs gd l hgd hmem hb hlow => ?_⟩
    · exact faults_of_check hi hg (checkWord_privilege hm)
    · exact faults_of_check hi hg (checkWord_reserved hm (by simpa using hz))
    · exact faults_of_check hi hg (checkWord_unlisted hm hz hl)
    · exact faults_of_target hi hg (checkWord_passes hm hz hl) ht
    · have hread : ∃ ls, g.readers (s.frag g) i = some ls := by
        rcases hr with ⟨gd, hgd, hon⟩ | ⟨gd, hgd, hls⟩
        · exact ⟨_, readers_uniform _ hgd hon⟩
        · exact ⟨_, readers_lanes hgd hls⟩
      obtain ⟨ls, hls⟩ := hread
      exact faults_of_badRead hi hg (checkWord_passes hm hz hl) ht hls (badRead_of_sca hb ls)
    · exact faults_of_badRead hi hg (checkWord_passes hm hz hl) ht (readers_lanes hgd (List.ne_nil_of_mem hmem)) (badRead_of_vec hs hmem hb hlow)
  case first =>
    have hown : g.ownRecord = false := by
      rw [← Bool.not_eq_true, ownRecord_iff]
      rintro ⟨r, hmem, hres⟩
      simp [hr r hmem] at hres
    rw [takeFault_records entry pos f hg hl hown]
    rfl
  case again =>
    rw [takeFault_again entry pos f hg hl ((ownRecord_iff g).2 hr), stopAgain_outside_step entry pos _ hs]

end Sys2Proof.Machine
end

section
/-! What operations on memory leave alone: the groups, the teams, the commands and the contexts (18 R330, R340 to R346; 24 R417 to R428). -/

namespace Sys2Proof.Machine

/-- What no operation on memory touches. -/
def State.tables (s : State) : Tbl Group × Tbl Team × List Cmd × Tbl Ctx := (s.groups, s.teams, s.cmds, s.ctxs)

theorem State.tables_foldl {α : Type} {f : State → α → State} (hf : ∀ s a, (f s a).tables = s.tables) (l : List α) (s : State) :
    (l.foldl f s).tables = s.tables := by
  induction l generalizing s with
  | nil => rfl
  | cons a l ih => rw [List.foldl_cons, ih, hf]

/-! ### The stacks -/

@[simp] theorem State.tables_setMem (s : State) (m : Mem) : (s.setMem m).tables = s.tables := (rfl)
@[simp] theorem State.tables_setL2 (s : State) (t : Tbl L2Sec) : (s.setL2 t).tables = s.tables := (rfl)
@[simp] theorem State.tables_setStack (s : State) (k : Nat) (x : Stack) : (s.setStack k x).tables = s.tables := (rfl)
@[simp] theorem State.tables_fresh (s : State) : s.fresh.tables = s.tables := (rfl)
@[simp] theorem State.tables_emit (s : State) (m : Msg) : (s.emit m).tables = s.tables := (rfl)
@[simp] theorem State.tables_dramAccess (s : State) (a : Nat) (w : Bool) : (s.dramAccess a w).tables = s.tables := (rfl)
@[simp] theorem State.tables_poisonSector (s : State) (k c : Nat) : (s.poisonSector k c).tables = s.tables := (rfl)
@[simp] theorem State.tables_countCorrected (s : State) (a : Nat) : (s.countCorrected a).tables = s.tables := (rfl)
@[simp] theorem State.tables_sectorWrite (s : State) (a x c : Nat) : (s.sectorWrite a x c).tables = s.tables := (rfl)
@[simp] theorem State.tables_recode (s : State) (g : Nat) : (s.recode g).tables = s.tables := (rfl)

@[simp] theorem State.tables_decodeSector (s : State) (k : Nat) : (s.decodeSector k).tables = s.tables := by
  simp only [State.decodeSector]
  split_ifs <;> simp

@[simp] theorem State.tables_checkGranule (s : State) (g : Nat) : (s.checkGranule g).tables = s.tables := by
  have hdec : ((secsOf g).foldl State.decodeSector s).tables = s.tables := State.tables_foldl (by simp) _ _
  simp only [State.checkGranule]
  split_ifs
  · rw [State.tables_foldl, hdec]
    intro t k
    split_ifs <;> simp
  · rw [State.tables_foldl, hdec]
    intro t k
    split_ifs <;> simp
  · exact hdec

@[simp] theorem State.tables_stackRead (s : State) (g : Nat) : (s.stackRead g).tables = s.tables := by simp [State.stackRead]

@[simp] theorem State.tables_memWrite (s : State) (a n x c : Nat) : (s.memWrite a n x c).tables = s.tables := by
  simp only [State.memWrite]
  split_ifs <;> simp

@[simp] theorem State.tables_memWriteGran (s : State) (g : Nat) (xs : List (Nat × Nat)) : (s.memWriteGran g xs).tables = s.tables :=
  State.tables_foldl (by simp) _ _

/-! ### The L2 -/

@[simp] theorem State.tables_useLine (s : State) (l : Nat) : (s.useLine l).tables = s.tables := (rfl)
@[simp] theorem State.tables_l1Drop (s : State) (k : Nat) (but : Option Nat) : (s.l1Drop k but).tables = s.tables := (rfl)
@[simp] theorem State.tables_l2Drop (s : State) (k : Nat) : (s.l2Drop k).tables = s.tables := (rfl)
@[simp] theorem State.tables_setDir (s : State) (lg : Nat) (e : DirEnt) : (s.setDir lg e).tables = s.tables := (rfl)
@[simp] theorem State.tables_delDir (s : State) (lg : Nat) : (s.delDir lg).tables = s.tables := (rfl)
@[simp] theorem State.tables_setSupplied (s : State) (lg : Nat) (d : Option (List Byte)) : (s.setSupplied lg d).tables = s.tables := (rfl)
@[simp] theorem State.tables_sendBack (s : State) (pa : Nat) (keep : Bool) (d : List Byte) : (s.sendBack pa keep d).tables = s.tables := (rfl)

theorem State.tables_setOutFabric (s : State) (o : List Msg) (f : Fabric) : ({ s with out := o, fabric := f } : State).tables = s.tables := (rfl)

/-- Sectors dropped from the L2 one after another. -/
@[simp] theorem State.tables_dropSectors (s : State) (f : Nat → Nat) (l : List Nat) :
    (l.foldl (fun st i => st.l2Drop (f i)) s).tables = s.tables := State.tables_foldl (by simp) _ _

@[simp] theorem State.tables_l2Write (s : State) (pa n x : Nat) : (s.l2Write pa n x).tables = s.tables := by
  unfold State.l2Write
  split <;> simp

@[simp] theorem State.tables_freshen (s : State) (lg : Nat) : (s.freshen lg).tables = s.tables := by simp [State.freshen]

@[simp] theorem State.tables_mergePartial (s : State) (lg c : Nat) (p : List Byte) : (s.mergePartial lg c p).tables = s.tables := by
  simp only [State.mergePartial]
  rw [State.tables_foldl]
  · simp
  · intro t p
    split_ifs <;> simp

@[simp] theorem State.tables_mergeOwn (s : State) (lg c : Nat) : (s.mergeOwn lg c).tables = s.tables := by
  simp only [State.mergeOwn]
  split
  · split_ifs <;> simp
  · rfl

@[simp] theorem State.tables_returnGranule (s : State) (pg : Nat) (keep : Bool) : (s.returnGranule pg keep).tables = s.tables := by
  unfold State.returnGranule
  split
  · rfl
  · rename_i x _
    have hsent : (if x.holder == .c then s.sendBack (pg * 128) false (s.partialData pg)
        else if x.holder == .m || x.holder == .o then s.sendBack (pg * 128) keep (s.granuleData pg) else s).tables = s.tables := by
      split_ifs <;> simp
    simp only
    split
    · rw [State.tables_foldl, hsent]
      intro t i
      split <;> simp
    · rw [State.tables_dropSectors, hsent]

@[simp] theorem State.tables_putDir (s : State) (lg : Nat) (e : DirEnt) : (s.putDir lg e).tables = s.tables := by
  unfold State.putDir
  split_ifs <;> simp

@[simp] theorem State.tables_dropOwnPartial (s : State) (lg : Nat) : (s.dropOwnPartial lg).tables = s.tables := by
  unfold State.dropOwnPartial
  split <;> simp

@[simp] theorem State.tables_l2Wash (s : State) (k : Nat) : (s.l2Wash k).tables = s.tables := by
  unfold State.l2Wash
  split <;> simp

@[simp] theorem State.tables_homeClean (s : State) (k : Nat) : (s.homeClean k).tables = s.tables := by
  simp only [State.homeClean]
  rw [State.tables_foldl (by simp)]
  split
  · simp
  · exact State.tables_foldl (by simp) _ _

@[simp] theorem State.tables_l2Clean (s : State) (k : Nat) : (s.l2Clean k).tables = s.tables := by
  unfold State.l2Clean
  split
  · rfl
  · split_ifs <;> simp

@[simp] theorem State.tables_l2Evict (s : State) (k : Nat) : (s.l2Evict k).tables = s.tables := by
  unfold State.l2Evict
  split
  · rfl
  · split_ifs <;> simp

@[simp] theorem State.tables_purge (s : State) (pg : Nat) : (s.purge pg).tables = s.tables := State.tables_foldl (by simp) _ _

@[simp] theorem State.tables_settleHome (s : State) (pg : Nat) : (s.settleHome pg).tables = s.tables := by
  simp only [State.settleHome]
  split
  · rfl
  · split
    · rfl
    · split_ifs <;> simp

@[simp] theorem State.tables_evictLine (s : State) (l : Nat) : (s.evictLine l).tables = s.tables := by
  rw [State.evictLine, State.tables_settleHome, State.tables_settleHome, State.tables_foldl (by simp)]

@[simp] theorem State.tables_l2Room (s : State) (l : Nat) : (s.l2Room l).tables = s.tables := by
  simp only [State.l2Room]
  split_ifs
  · rfl
  · rfl
  · split <;> simp

@[simp] theorem State.tables_l2Fill (s : State) (pg : Nat) : (s.l2Fill pg).tables = s.tables := by
  simp only [State.l2Fill]
  split
  · rfl
  · rw [State.tables_foldl]
    · simp
    · intro t i
      split_ifs <;> simp

/-! ### The home -/

@[simp] theorem State.tables_loseGranule (s : State) (lg : Nat) (e : DirEnt) (o : Nat) : (s.loseGranule lg e o).tables = s.tables := by
  rw [State.loseGranule, State.tables_setOutFabric, State.tables_setDir, State.tables_dropSectors _ (4 * s.pgOf lg + ·),
    State.tables_setSupplied]

@[simp] theorem State.tables_sweepEntry (s : State) (lg k : Nat) : (s.sweepEntry lg k).tables = s.tables := by
  unfold State.sweepEntry
  split
  · rfl
  · simp only
    split <;> (try split_ifs) <;> simp

@[simp] theorem State.tables_sweepFirst (s : State) (lg : Nat) : (s.sweepFirst lg).tables = s.tables := by
  unfold State.sweepFirst
  split
  · exact State.tables_foldl (f := fun st k => st.sweepEntry lg k) (by simp) _ _
  · rfl

@[simp] theorem State.tables_addHolder (s : State) (lg : Nat) (e : DirEnt) (p : Nat) (st : DirSt) : (s.addHolder lg e p st).tables = s.tables := (rfl)

@[simp] theorem State.tables_install (s : State) (pg : Nat) (h : Holder) (c : Nat) (d : List Byte) (m : List Nat) :
    (s.install pg h c d m).tables = s.tables := by
  have hroom : ((s.l2Room (pg / 2)).useLine (pg / 2)).tables = s.tables := by simp
  rw [State.install, State.tables_foldl _ _ _, hroom]
  intro t i
  rw [State.tables_setL2, State.tables_l1Drop]

/-! ### Attempts -/

theorem Try.tables_bind {α β : Type} {t : Try α} {f : State → α → Try β} {s : State} (ht : t.state.tables = s.tables)
    (hf : ∀ s1 a, s1.tables = s.tables → (f s1 a).state.tables = s.tables) : (t.bind f).state.tables = s.tables := by
  cases t with
  | ok s1 a => exact hf s1 a ht
  | wait s1 => exact ht
  | bad s1 c y a => exact ht

@[simp] theorem Try.state_ok {α : Type} (s : State) (a : α) : (Try.ok s a).state = s := rfl
@[simp] theorem Try.state_wait {α : Type} (s : State) : (Try.wait s : Try α).state = s := rfl
@[simp] theorem Try.state_bad {α : Type} (s : State) (c y : Nat) (a : Option Nat) : (Try.bad s c y a : Try α).state = s := rfl

@[simp] theorem State.tables_askHolders {α : Type} (s : State) (lg : Nat) (ps : List Nat) (sh : Bool) :
    (s.askHolders lg ps sh : Try α).state.tables = s.tables := (rfl)

@[simp] theorem State.tables_serveFree (s : State) (p lg : Nat) (w : Want) : (s.serveFree p lg w).state.tables = s.tables := by
  simp only [State.serveFree]
  split
  · rfl
  · cases w <;> simp only <;> split_ifs <;> simp

@[simp] theorem State.tables_serve (s : State) (p lg : Nat) (w : Want) : (s.serve p lg w).state.tables = s.tables := by
  simp only [State.serve]
  split
  · simp
  · split <;> (try split_ifs) <;> simp

/-! ### Requests to another home -/

theorem State.tables_setFabric (s : State) (f : Fabric) : ({ s with fabric := f } : State).tables = s.tables := (rfl)

@[simp] theorem State.tables_trySend (s : State) (id : Nat) : (s.trySend id).tables = s.tables := by
  simp only [State.trySend]
  split
  · rfl
  · split_ifs
    · rfl
    · rw [State.tables_setOutFabric]

@[simp] theorem State.tables_newReq (s : State) (q : Option Nat) (kind tag pa n : Nat) (op : Option AccOp) :
    (s.newReq q kind tag pa n op).tables = s.tables := by
  simp only [State.newReq]
  split
  · rw [State.tables_setFabric]
  · rw [State.tables_trySend, State.tables_setFabric]

@[simp] theorem State.tables_dropReq (s : State) (id : Nat) : (s.dropReq id).tables = s.tables := (rfl)

@[simp] theorem State.tables_request (s : State) (q : Option Nat) (kind tag pa n : Nat) (op : Option AccOp) :
    (s.request q kind tag pa n op).state.tables = s.tables := by
  unfold State.request
  split
  · simp
  · split <;> simp

@[simp] theorem State.tables_setHolder (s : State) (pg : Nat) (h : Holder) : (s.setHolder pg h).tables = s.tables := by
  refine State.tables_foldl (fun t i => ?_) _ _
  split <;> simp

@[simp] theorem State.tables_acquireRemote (s : State) (q : Option Nat) (pg : Nat) (w : Want) :
    (s.acquireRemote q pg w).state.tables = s.tables := by
  have hask (t : State) (ht : t.tables = s.tables) (kind : Nat) (op : Option AccOp) :
      ((t.request q kind 0 (pg * 128) 128 op).bind fun s' _ => (.wait s' : Try Unit)).state.tables = s.tables :=
    Try.tables_bind (by rw [State.tables_request, ht]) fun s1 _ h1 => h1
  simp only [State.acquireRemote]
  split
  case h_6 => simp
  case h_7 =>
    split
    · rfl
    · exact hask _ (by simp) _ _
  case h_8 | h_9 | h_10 => exact hask _ rfl _ _
  all_goals rfl

@[simp] theorem State.tables_acquireLocal (s : State) (pg : Nat) (w : Want) : (s.acquireLocal pg w).state.tables = s.tables := by
  unfold State.acquireLocal
  extract_lets lg folds whole
  have hserve (w' : Want) (f : State → Unit → Try Unit) (hf : ∀ s1 a, s1.tables = s.tables → (f s1 a).state.tables = s.tables) :
      ((s.serve s.fabric.self lg w').bind f).state.tables = s.tables := Try.tables_bind (by simp) hf
  split
  · rfl
  · split
    · split <;> simp
    · split
      · split <;> simp
      · split
        · rfl
        · refine hserve _ _ fun s1 _ h1 => ?_
          split <;> simp [h1]
      · exact hserve _ _ fun s1 _ h1 => by simp [h1]
      · exact hserve _ _ fun s1 _ h1 => by simp [h1]

@[simp] theorem State.tables_acquire (s : State) (q : Option Nat) (pa : Nat) (w : Want) : (s.acquire q pa w).state.tables = s.tables := by
  unfold State.acquire
  split <;> simp

/-! ### Cached reads and writes, and the walk -/

@[simp] theorem State.tables_cachedRead (s : State) (q : Option Nat) (pa n : Nat) : (s.cachedRead q pa n).state.tables = s.tables := by
  refine Try.tables_bind (by simp) fun s1 _ h1 => ?_
  simp only
  split <;> simp [h1]

@[simp] theorem State.tables_unrelease (s : State) (sp pa n : Nat) : (s.unrelease sp pa n).tables = s.tables := by
  unfold State.unrelease
  split
  · rfl
  · rfl

@[simp] theorem State.tables_l2Store (s : State) (c : Option Nat) (pa n x : Nat) : (s.l2Store c pa n x).tables = s.tables := by
  simp only [State.l2Store]
  split <;> simp

@[simp] theorem State.tables_cachedWrite (s : State) (q c : Option Nat) (pa n x : Nat) : (s.cachedWrite q c pa n x).state.tables = s.tables :=
  Try.tables_bind (by simp) fun s1 _ h1 => by simp [h1]

@[simp] theorem State.tables_setCore (s : State) (k : Nat) (c : CoreSt) : (s.setCore k c).tables = s.tables := (rfl)

@[simp] theorem State.tables_walkFrom (q va : Nat) : ∀ (l : Nat) (s : State) (table : Nat), (s.walkFrom q va l table).state.tables = s.tables := by
  intro l
  induction l with
  | zero =>
    intro s table
    simp only [State.walkFrom]
    split
    · rfl
    · refine Try.tables_bind (by simp) fun s1 e h1 => ?_
      split <;> exact h1
  | succ l ih =>
    intro s table
    simp only [State.walkFrom]
    split
    · rfl
    · refine Try.tables_bind (by simp) fun s1 e h1 => ?_
      split_ifs
      · exact h1
      · exact (ih _ _).trans h1
      · exact h1
      · exact h1

@[simp] theorem State.tables_leafOf (s : State) (core q va : Nat) : (s.leafOf core q va).state.tables = s.tables := by
  simp only [State.leafOf]
  split
  · rfl
  · refine Try.tables_bind (by simp) fun s1 r h1 => ?_
    split_ifs <;> simp [h1]

@[simp] theorem State.tables_translate (s : State) (core q : Nat) (mon : Bool) (n : Need) (va : Nat) :
    (s.translate core q mon n va).state.tables = s.tables := by
  refine Try.tables_bind (by simp) fun s1 r h1 => ?_
  simp only
  split_ifs <;> exact h1

@[simp] theorem State.tables_vwrite (core q : Nat) : ∀ (fuel : Nat) (s : State) (va : Nat) (d : List Byte),
    (s.vwrite core q va fuel d).state.tables = s.tables := by
  intro fuel
  induction fuel with
  | zero => intros; rfl
  | succ fuel ih =>
    intro s va d
    simp only [State.vwrite]
    split
    · rfl
    · refine Try.tables_bind (by simp) fun s1 p h1 => Try.tables_bind (by simp [h1]) fun s2 _ h2 => ?_
      rw [ih, h2]

end Sys2Proof.Machine
end

section
/-! Entries held, and stops of class S (07 R117; 14 R253, R263, R266, R267). -/

namespace Sys2Proof.Machine

/-! ### Entries -/

theorem EntriesSet.refl (g : Group) : EntriesSet g g g.ent := ⟨rfl, fun _ => rfl⟩

theorem EntriesSet.trans {g g1 g2 : Group} {e1 e2 : Nat → Entry} (h1 : EntriesSet g g1 e1) (h2 : EntriesSet g1 g2 e2) : EntriesSet g g2 e2 := by
  obtain ⟨hg1, -⟩ := h1
  obtain ⟨hg2, he2⟩ := h2
  exact ⟨by rw [hg2, hg1], he2⟩

theorem EntriesSet.congr {g g1 : Group} {e1 e2 : Nat → Entry} (h : EntriesSet g g1 e1) (he : ∀ j, e1 j = e2 j) : EntriesSet g g1 e2 :=
  ⟨h.1, fun j => (h.2 j).trans (he j)⟩

theorem EntriesSet.regs {g h : Group} {e : Nat → Entry} (hs : EntriesSet g h e) : h.regs = g.regs := by
  have hregs := congrArg Group.regs hs.1
  exact hregs

theorem EntriesSet.withDbg {g h : Group} {e : Nat → Entry} (hs : EntriesSet g h e) (d : Dbg) :
    { h with dbg := d } = { g with ents := h.ents, dbg := d } := congrArg (fun x : Group => { x with dbg := d }) hs.1

theorem Group.setEnt_sets (g : Group) (k : Nat) {e : Entry} (h : e.st ≠ .free) : EntriesSet g (g.setEnt k e) fun j => if j = k then e else g.ent j :=
  ⟨rfl, fun j => Group.ent_setEnt g k j h⟩

theorem heldEntry_of_running {e : Entry} (h : e.st = .running) : (heldEntry e).st = .stopped := by simp [heldEntry, h]

theorem heldEntry_heldEntry (e : Entry) : heldEntry (heldEntry e) = heldEntry e := by
  unfold heldEntry
  split_ifs with h <;> simp_all

theorem Group.holdEntry_sets (g : Group) (k : Nat) : EntriesSet g (g.holdEntry k) fun j => if j = k then heldEntry (g.ent j) else g.ent j := by
  unfold Group.holdEntry
  simp only
  split
  case isTrue h =>
    refine (EntriesSet.refl g).congr fun j => ?_
    split
    · rename_i hj
      rw [heldEntry, if_pos (by rwa [hj])]
    · rfl
  case isFalse h =>
    refine (Group.setEnt_sets g k (by simp)).congr fun j => ?_
    split
    · rename_i hj
      rw [hj, heldEntry, if_neg h]
    · rfl

theorem Group.ent_holdEntry (g : Group) (k j : Nat) : (g.holdEntry k).ent j = if j = k then heldEntry (g.ent j) else g.ent j :=
  (g.holdEntry_sets k).2 j

theorem Group.holdEntries_sets (l : List Nat) : ∀ g : Group, EntriesSet g (l.foldl Group.holdEntry g) fun j => if j ∈ l then heldEntry (g.ent j) else g.ent j := by
  induction l with
  | nil => exact fun g => (EntriesSet.refl g).congr fun j => by simp
  | cons k l ih =>
    intro g
    have hk := Group.holdEntry_sets g k
    refine (hk.trans (ih _)).congr fun j => ?_
    rw [hk.2 j]
    by_cases hj : j = k
    · simp [hj, heldEntry_heldEntry]
    · simp [hj]

theorem Group.holdAll_sets (g : Group) : EntriesSet g g.holdAll fun j => if j < 32 then heldEntry (g.ent j) else g.ent j :=
  (Group.holdEntries_sets (List.range 32) g).congr fun j => by simp

/-! ### Fragments that wait on stopped ones (14 R266) -/

theorem Group.mem_live (g : Group) (j : Nat) : j ∈ g.live ↔ j < 32 ∧ (g.ent j).st ≠ .free := by simp [Group.live]

/-- The entries in REGANG. -/
def Group.regangs (g : Group) : Finset Nat := (Finset.range 32).filter fun j => (g.ent j).st = .regang

theorem Group.mem_regangs (g : Group) (j : Nat) : j ∈ g.regangs ↔ j < 32 ∧ (g.ent j).st = .regang := by simp [Group.regangs]

/-- An entry is STOPPED and none is ARRIVED, so that the entries in REGANG, and they alone, wait on a stopped one. -/
def Group.RegangsWait (g : Group) : Prop := (∃ j, j < 32 ∧ (g.ent j).st = .stopped) ∧ ∀ j, j < 32 → (g.ent j).st ≠ .arrived

theorem Group.RegangsWait.waits_iff {g : Group} (h : g.RegangsWait) {k : Nat} (hk : k < 32) : g.waitsOnStopped k = true ↔ (g.ent k).st = .regang := by
  obtain ⟨⟨j, hj, hst⟩, harr⟩ := h
  have hany : (g.live.any fun j => (g.ent j).st == .stopped) = true :=
    List.any_eq_true.2 ⟨j, (g.mem_live j).2 ⟨hj, by simp [hst]⟩, by simp [hst]⟩
  have := harr k hk
  cases he : (g.ent k).st <;> simp_all [Group.waitsOnStopped]

theorem Group.RegangsWait.hold {g : Group} (h : g.RegangsWait) {k : Nat} (hk : (g.ent k).st = .regang) :
    (g.holdEntry k).RegangsWait ∧ (g.holdEntry k).regangs = g.regangs.erase k := by
  obtain ⟨⟨j, hj, hst⟩, harr⟩ := h
  have hheld : (heldEntry (g.ent k)).st = .stopped := by simp [heldEntry, hk]
  refine ⟨⟨⟨j, hj, ?_⟩, fun i hi => ?_⟩, ?_⟩
  · rw [Group.ent_holdEntry]
    split
    · rename_i hjk; rw [hjk, hheld]
    · exact hst
  · rw [Group.ent_holdEntry]
    split
    · rename_i hik; simp [hik, hheld]
    · exact harr i hi
  · ext i
    rw [Group.mem_regangs, Group.ent_holdEntry, Finset.mem_erase, Group.mem_regangs]
    by_cases hik : i = k <;> simp [hik, hheld]

theorem Group.holdWaiters_sets (n : Nat) : ∀ g : Group, g.RegangsWait → g.regangs.card ≤ n →
    EntriesSet g (g.holdWaiters n) fun j => if j ∈ g.regangs then heldEntry (g.ent j) else g.ent j := by
  induction n with
  | zero =>
    intro g _ hn
    have hnone : g.regangs = ∅ := by simpa using hn
    exact (EntriesSet.refl g).congr fun j => by simp [hnone]
  | succ n ih =>
    intro g h hn
    rw [Group.holdWaiters]
    split
    case h_1 k hfind =>
      have hlive := (g.mem_live k).1 (List.mem_of_find?_eq_some hfind)
      have hk : (g.ent k).st = .regang := (h.waits_iff hlive.1).1 (List.find?_some hfind)
      have hmem : k ∈ g.regangs := (g.mem_regangs k).2 ⟨hlive.1, hk⟩
      obtain ⟨hwait, herase⟩ := h.hold hk
      refine ((g.holdEntry_sets k).trans (ih _ hwait ?_)).congr fun j => ?_
      · rw [herase, Finset.card_erase_of_mem hmem]
        omega
      · simp only [herase, Group.ent_holdEntry, Finset.mem_erase]
        by_cases hj : j = k
        · simp [hj, hmem]
        · simp [hj]
    case h_2 hfind =>
      have hnone (j : Nat) : j ∉ g.regangs := by
        intro hj
        rw [Group.mem_regangs] at hj
        exact List.find?_eq_none.1 hfind j ((g.mem_live j).2 ⟨hj.1, by simp [hj.2]⟩) ((h.waits_iff hj.1).2 hj.2)
      exact (EntriesSet.refl g).congr fun j => by simp [hnone j]

theorem Group.regangs_card_le (g : Group) : g.regangs.card ≤ 32 := by
  rw [Group.regangs]
  exact (Finset.card_filter_le _ _).trans_eq (Finset.card_range 32)

/-! ### A comparator's stop (14 R253, R266) -/

theorem State.mayIssue_running {s : State} {core k : Nat} {g : Group} (h : s.mayIssue core g k = true) : (g.ent k).st = .running := by
  simp only [State.mayIssue, Bool.and_eq_true, beq_iff_eq] at h
  obtain ⟨⟨⟨⟨-, hst⟩, -⟩, -⟩, -⟩ := h
  exact hst

/-- The comparator of an entry is the first that is on and holds its position (14 R266). -/
theorem Group.comparator_first {g : Group} {k i : Nat} (hi : i < 4)
    (hmatch : (g.dbg.bp.getD i 0).getLsbD 58 = true ∧ ((g.dbg.bp.getD i 0).extractLsb' 0 58).toNat = (g.ent k).pos.code)
    (hfirst : ∀ j, j < i → ¬ ((g.dbg.bp.getD j 0).getLsbD 58 = true ∧ ((g.dbg.bp.getD j 0).extractLsb' 0 58).toNat = (g.ent k).pos.code))
    (hpass : (k, (g.ent k).pos) ∉ g.dbg.pass) (hlanes : (g.ent k).mask &&& g.dbg.lanes ≠ 0) : g.comparator k = some i := by
  have hcode (b : Word64) : bitsOf b.toNat 0 58 = (b.extractLsb' 0 58).toNat := by
    simp [bitsOf, BitVec.extractLsb'_toNat]
  have hon : (g.dbg.pass.contains (k, (g.ent k).pos) || (g.ent k).mask &&& g.dbg.lanes == 0) = false := by
    simpa [hpass] using hlanes
  simp only [Group.comparator, hon, bitOf_toNat, hcode, Bool.false_eq_true, if_false]
  rw [List.find?_range_eq_some]
  refine ⟨by simpa using hmatch, by simpa using hi, fun j hj => ?_⟩
  rw [Bool.not_eq_true', ← Bool.not_eq_true]
  simpa using hfirst j hj

theorem State.takeStop_records {s : State} {core slot : Nat} {g : Group} (entry : Nat) (after : Pos) (run : Run) (f : FaultInfo)
    (hg : s.group? core slot = some g) (hown : g.ownRecord = false) :
    s.takeStop core slot entry (g.ent entry).pos after run f =
      s.setGroup core slot ((g.setEnt entry { g.ent entry with pos := after }).stopWith run (stopRecord s g entry after f)) := by
  simp only [State.takeStop, State.updGroup_some s hg, hown]
  rfl

/-- What a breakpoint holds of a stopped group: every entry, or in non-stop mode the firing one and those that wait on it. -/
def Group.breakHold (g : Group) (k : Nat) : Group := if g.dbg.nonstop then (g.holdEntry k).holdWaiters 32 else g.holdAll

theorem Group.breakHold_sets {g : Group} {k : Nat} (hk : k < 32) (hrun : (g.ent k).st = .running)
    (harr : g.dbg.nonstop = true → ∀ j, j < 32 → (g.ent j).st ≠ .arrived) :
    EntriesSet g (g.breakHold k) fun j =>
      if j < 32 ∧ (!g.dbg.nonstop || j == k || (g.ent j).st == .regang) = true then heldEntry (g.ent j) else g.ent j := by
  unfold Group.breakHold
  split
  case isFalse hall => exact g.holdAll_sets.congr fun j => by simp [hall]
  case isTrue hnon =>
    have hheld := heldEntry_of_running hrun
    have hwait : (g.holdEntry k).RegangsWait := by
      refine ⟨⟨k, hk, by simp [Group.ent_holdEntry, hheld]⟩, fun j hj => ?_⟩
      rw [Group.ent_holdEntry]
      split
      · rename_i hjk; simp [hjk, hheld]
      · exact harr hnon j hj
    refine ((g.holdEntry_sets k).trans (Group.holdWaiters_sets 32 _ hwait (Group.regangs_card_le _))).congr fun j => ?_
    simp only [Group.mem_regangs, Group.ent_holdEntry]
    by_cases hj : j = k
    · simp [hj, hk, hheld]
    · simp [hj, hnon]

theorem State.breakStop_records {s : State} {core slot k : Nat} {g : Group} (after : Pos) (f : FaultInfo) (hg : s.group? core slot = some g)
    (hown : g.ownRecord = false) :
    s.breakStop core slot k (g.ent k).pos after f =
      s.setGroup core slot (((g.setEnt k { g.ent k with pos := after }).stopWith .debugger (stopRecord s g k after f)).breakHold k) := by
  simp only [State.breakStop, hg, hown, Bool.false_eq_true, if_false, State.takeStop_records k after .debugger f hg hown]
  rw [State.updGroup_setGroup]
  rfl

/-- 14 R266: a comparator's stop. -/
theorem comparatorBreakpoint_stops {s : State} {core slot k i : Nat} {g : Group} (hg : s.group? core slot = some g) (hk : k < 32)
    (hmay : s.mayIssue core g k = true) (hown : g.ownRecord = false) (hcmp : g.comparator k = some i)
    (harr : g.dbg.nonstop = true → ∀ j, j < 32 → (g.ent j).st ≠ .arrived) :
    ∃ h, exec (.comparatorBreakpoint core slot k) s = .next (s.setGroup core slot h) ∧ h.block = g.block ∧
      h.dbg.pass = g.dbg.pass ++ [(k, (g.ent k).pos)] ∧
      StopsTo s g h k (g.ent k).pos .debugger ⟨0x60, 255, 0, 0, i + 1⟩ (fun j => !g.dbg.nonstop || j == k || (g.ent j).st == .regang) := by
  have hrun := State.mayIssue_running hmay
  set f : FaultInfo := ⟨0x60, 255, 0, 0, i + 1⟩ with hf
  set g1 := (g.setEnt k { g.ent k with pos := (g.ent k).pos }).stopWith .debugger (stopRecord s g k (g.ent k).pos f) with hg1
  have hent (j : Nat) : g1.ent j = g.ent j := by
    have := Group.ent_setEnt g k j (e := { g.ent k with pos := (g.ent k).pos }) (by simp [hrun])
    refine this.trans ?_
    split
    · rename_i hj; rw [hj]
    · rfl
  have hset : EntriesSet g1 (g1.breakHold k) _ := Group.breakHold_sets hk (by rw [hent, hrun]) (fun hn j hj => by rw [hent]; exact harr hn j hj)
  obtain ⟨hframe, hents⟩ := hset
  refine ⟨{ g1.breakHold k with dbg := { (g1.breakHold k).dbg with pass := (g1.breakHold k).dbg.pass ++ [(k, (g.ent k).pos)] } }, ?_, ?_, ?_, ?_, ?_⟩
  · have hexec : exec (.comparatorBreakpoint core slot k) s = event s (some ((s.breakStop core slot k (g.ent k).pos (g.ent k).pos f).updGroup core slot fun g' =>
        { g' with dbg := { g'.dbg with pass := g'.dbg.pass ++ [(k, (g.ent k).pos)] } })) := by
      show execComparatorBreakpoint core slot k s = _
      simp only [execComparatorBreakpoint, hg, hcmp, Option.bind_eq_bind, Option.bind_some, hmay, if_true, hf]
    rw [hexec, State.breakStop_records _ _ hg hown, State.updGroup_setGroup]
    rfl
  · rw [hframe]; rfl
  · rw [hframe]; rfl
  · rw [hframe]; rfl
  · intro j hj
    have hsame : (if j = k then { g.ent j with pos := (g.ent k).pos } else g.ent j) = g.ent j := by
      split
      · rename_i hjk; rw [hjk]
      · rfl
    refine (hents j).trans ?_
    simp only [hent, hj, true_and, hsame]
    rfl

end Sys2Proof.Machine
end

section
/-! The start of a clause, and the steps and stops of the debug monitor (03 R39, R52; 14 R265, R267). -/

namespace Sys2Proof.Machine

/-! ### Reads that only use lines of the L2 -/

theorem UsesOnly.flagSet {s t : State} (h : UsesOnly s t) (core slot : Nat) (g : Group) (f : Nat) :
    t.flagSet core slot g f = s.flagSet core slot g f := by
  rw [UsesOnly] at h
  have hcmds := congrArg State.cmds h
  have hcycle := congrArg State.cycle h
  simp only [State.flagSet, State.cmdsOf, State.held, hcmds, hcycle]

theorem UsesOnly.cmds {s t : State} (h : UsesOnly s t) : t.cmds = s.cmds := by
  rw [UsesOnly] at h
  have hcmds := congrArg State.cmds h
  exact hcmds

/-! ### The start of a clause -/

/-- The group waits for one of the flags that a header names (03 R39). -/
def WaitsAt (s : State) (core slot : Nat) (g : Group) (h : Header) : Prop :=
  ∃ f, f < 12 ∧ h.wait.getLsbD f = true ∧ s.flagSet core slot g f = true

theorem waitsAt_iff (s : State) (core slot : Nat) (g : Group) (h : Header) : WaitsAt s core slot g h ↔
    (((List.range 12).filter fun f => h.wait.getLsbD f).any fun f => s.flagSet core slot g f) = true := by
  simp [WaitsAt]

section
variable {s s1 : State} {core slot k w : Nat} {g : Group} (hg : s.group? core slot = some g)
include hg

theorem exec_clauseStart (hblock : g.block = .none) (hmay : s.mayIssue core g k = true) (hslot : (g.ent k).pos.slot = 0) :
    exec (.clauseStart core slot k) s = .next (s.startClause core slot k) := by
  show execClauseStart core slot k s = _
  simp [execClauseStart, hg, hmay, State.passBlock, hblock, hslot, event]

variable (hre : ¬ ((g.ent k).reconv ≠ 0 ∧ (g.ent k).reconv = (g.ent k).pos.caddr))
  (hf : s.fetch core g.ids.queue g.mon (g.ent k).pos.caddr = .ok s1 w)
include hre hf

theorem startClause_bad {c : Nat} (hc : (Header.ofWord (BitVec.ofNat 64 w)).cause = some c) :
    s.startClause core slot k = s1.takeFault core slot k (g.ent k).pos (.word c) := by
  simp only [State.startClause, hg, if_neg hre, hf, hc]

theorem startClause_waits (hc : (Header.ofWord (BitVec.ofNat 64 w)).cause = none) (hw : WaitsAt s1 core slot g (Header.ofWord (BitVec.ofNat 64 w))) :
    s.startClause core slot k = s1.setGroup core slot { g with block := .stall 3 (Header.ofWord (BitVec.ofNat 64 w)).wait.toNat } := by
  simp only [State.startClause, hg, if_neg hre, hf, hc]
  rw [if_pos ((waitsAt_iff ..).1 hw)]

theorem startClause_starts (hc : (Header.ofWord (BitVec.ofNat 64 w)).cause = none) (hw : ¬ WaitsAt s1 core slot g (Header.ofWord (BitVec.ofNat 64 w))) :
    ∃ which, s.startClause core slot k =
      (s1.setGroup core slot { g.setEnt k { g.ent k with pos := ⟨(g.ent k).pos.caddr, 1⟩ } with block := .none }).observe g which := by
  simp only [State.startClause, hg, if_neg hre, hf, hc]
  rw [if_neg (mt (waitsAt_iff ..).2 hw)]
  exact ⟨_, rfl⟩

end

/-- A clause whose header is good and waits for nothing: its fragment stands at its first word. -/
theorem startClause_first {s s1 : State} {core slot k w : Nat} {g : Group} (hg : s.group? core slot = some g) (hblock : g.block = .none)
    (hrun : (g.ent k).st = .running) (hre : ¬ ((g.ent k).reconv ≠ 0 ∧ (g.ent k).reconv = (g.ent k).pos.caddr))
    (hf : s.fetch core g.ids.queue g.mon (g.ent k).pos.caddr = .ok s1 w) (hu : UsesOnly s s1)
    (hc : (Header.ofWord (BitVec.ofNat 64 w)).cause = none) (hw : ¬ WaitsAt s core slot g (Header.ofWord (BitVec.ofNat 64 w))) :
    ∃ g1, (s.startClause core slot k).group? core slot = some g1 ∧
      EntriesSet g g1 (fun j => if j = k then { g.ent k with pos := ⟨(g.ent k).pos.caddr, 1⟩ } else g.ent j) ∧
      (s.startClause core slot k).memsys = s1.memsys ∧ (s.startClause core slot k).cmds = s.cmds ∧
      ∀ c n, gkey c n ≠ gkey core slot → (s.startClause core slot k).group? c n = s.group? c n := by
  have hw1 : ¬ WaitsAt s1 core slot g (Header.ofWord (BitVec.ofNat 64 w)) := by
    simpa only [WaitsAt, hu.flagSet] using hw
  obtain ⟨which, ht⟩ := startClause_starts hg hre hf hc hw1
  have hset := Group.setEnt_sets g k (e := { g.ent k with pos := ⟨(g.ent k).pos.caddr, 1⟩ }) (by simp [hrun])
  rw [ht]
  refine ⟨_, State.group?_setGroup_self s1 core slot _, ⟨?_, hset.2⟩, rfl, hu.cmds, fun c n hne => ?_⟩
  · rw [← hblock]
    rfl
  · exact (State.group?_setGroup_ne s1 _ hne).trans (hu.group? c n)

/-! ### Steps and stops by DBG_CTL -/

/-- 14 R267: a STOPPED entry goes back to its former state for one instruction. -/
theorem debugStep_steps {s : State} {core slot : Nat} {g : Group} (hg : s.group? core slot = some g) (hst : (g.ent g.dbg.stepEnt).st = .stopped) :
    s.debugStep core slot = s.setGroup core slot { g.setEnt g.dbg.stepEnt
      { g.ent g.dbg.stepEnt with st := (g.ent g.dbg.stepEnt).former, former := .free } with
        dbg := { g.dbg with stepping := some (g.dbg.stepEnt, false), err := false } } := by
  rw [State.debugStep, State.updGroup_some s hg]
  simp only [hst, if_true]

theorem debugStep_refuses {s : State} {core slot : Nat} {g : Group} (hg : s.group? core slot = some g) (hst : (g.ent g.dbg.stepEnt).st ≠ .stopped) :
    s.debugStep core slot = s.setGroup core slot { g with dbg := { g.dbg with err := true } } := by
  rw [State.debugStep, State.updGroup_some s hg]
  simp only [if_neg hst]

/-- 14 R265: a debug stop of a running group without a shadow. -/
theorem debugStop_halts {s : State} {core slot : Nat} {g : Group} (hg : s.group? core slot = some g) (hl : g.leader = none) (hs : g.shadow = none)
    (hrun : g.dbg.run = .running) : s.debugStop core slot = s.setGroup core slot { g.holdAll with dbg := { g.dbg with run := .halted } } := by
  have hhalt : g.halt = { g.holdAll with dbg := { g.dbg with run := .halted } } := by simp [Group.halt, Group.haltable, hrun]
  simp only [State.debugStop, hg, hl, Option.getD_none, Option.getD_some, State.updNamed, hs, State.updGroup_some s hg, hhalt]

end Sys2Proof.Machine
end

section
/-! The writing of fault records (14 R254 to R257). -/

namespace Sys2Proof.Machine

/-! ### The bytes of a record (14 R256) -/

theorem leBytes_valueIn (d : List Byte) (n : Nat) : ∀ a, a + n ≤ d.length → leBytes n (valueIn (fun i => d.getD i 0) a n) = (d.drop a).take n := by
  induction n with
  | zero => intros; rfl
  | succ n ih =>
    intro a h
    have ha : a < d.length := by omega
    have hb := (d[a]).isLt
    rw [valueIn, leBytes, List.drop_eq_getElem_cons ha, List.take_succ_cons]
    have hhead : d.getD a 0 = d[a] := by simp [List.getD_eq_getElem?_getD, ha]
    congr 1
    · rw [hhead, ← BitVec.toNat_inj, BitVec.toNat_ofNat]
      omega
    · rw [hhead, Nat.add_mul_div_left _ _ (by decide), Nat.div_eq_of_lt hb, Nat.zero_add, ih (a + 1) (by omega)]

/-- The 64-bit word `i` of a byte list. -/
abbrev wordOf (d : List Byte) (i : Nat) : Nat := valueIn (fun a => d.getD a 0) (8 * i) 8

theorem wordOf_lt (d : List Byte) (i : Nat) : wordOf d i < 2 ^ 64 := by
  have h (m : Nat → Byte) (n : Nat) : ∀ a, valueIn m a n < 256 ^ n := by
    induction n with
    | zero => intro a; simp [valueIn]
    | succ n ih =>
      intro a
      have := ih (a + 1)
      have := (m a).isLt
      rw [valueIn, pow_succ]
      omega
  exact (h _ 8 _).trans_eq (by norm_num)

/-- 64 bytes are their eight words. -/
theorem bytes_of_words {d : List Byte} (h : d.length = 64) :
    d = leBytes 8 (wordOf d 0) ++ leBytes 8 (wordOf d 1) ++ leBytes 8 (wordOf d 2) ++ leBytes 8 (wordOf d 3) ++ leBytes 8 (wordOf d 4) ++
      leBytes 8 (wordOf d 5) ++ leBytes 8 (wordOf d 6) ++ leBytes 8 (wordOf d 7) := by
  have hcut (i : Nat) (hi : i < 8) : d.drop (8 * i) = leBytes 8 (wordOf d i) ++ d.drop (8 * (i + 1)) := by
    rw [wordOf, leBytes_valueIn d 8 (8 * i) (by omega), Nat.mul_succ, ← List.drop_drop, List.take_append_drop]
  have hend : d.drop (8 * 8) = [] := List.drop_eq_nil_of_le (by omega)
  simp only [List.append_assoc]
  calc d = d.drop (8 * 0) := rfl
    _ = _ := by
      rw [hcut 0 (by omega), hcut 1 (by omega), hcut 2 (by omega), hcut 3 (by omega), hcut 4 (by omega), hcut 5 (by omega), hcut 6 (by omega),
        hcut 7 (by omega), hend, List.append_nil]

/-- The fields of a fault record (14 R256). -/
def RecordBytes (r : Rec) (core slot : Nat) (i : Ids) (d : List Byte) : Prop :=
  byteField d 0 0 16 = r.info.cause + 256 * (if r.resumable then 1 else 0) ∧ byteField d 0 16 8 = r.info.lane ∧ byteField d 0 24 8 = r.info.synd ∧
    byteField d 0 32 32 = r.regcnt.toNat ∧ byteField d 1 0 64 = r.faultPos.slot + r.faultPos.caddr / 8 * 16 ∧
    byteField d 2 0 64 = r.restart.slot + r.restart.caddr / 8 * 16 ∧ byteField d 3 0 32 = r.mask.toNat ∧ byteField d 3 32 6 = slot ∧
    byteField d 3 38 9 = core ∧ byteField d 3 47 17 = r.entry ∧ byteField d 4 0 64 = r.info.addr0 ∧ byteField d 5 0 64 = r.info.addr1 ∧
    byteField d 6 0 32 = r.progress % 2 ^ 32 ∧ byteField d 6 32 4 = i.grpid ∧ byteField d 6 36 28 = i.teamid ∧ byteField d 7 0 32 = i.cluid ∧
    byteField d 7 32 32 = i.gridid

theorem byteField_whole (d : List Byte) (i : Nat) : byteField d i 0 64 = wordOf d i := by
  have := wordOf_lt d i
  rw [byteField, pow_zero, Nat.div_one, Nat.mod_eq_of_lt this]

/-- A field is its lower and its upper part. -/
theorem byteField_split (d : List Byte) (i lo n m : Nat) : byteField d i lo (n + m) = byteField d i lo n + 2 ^ n * byteField d i (lo + n) m := by
  simp only [byteField, pow_add, Nat.mod_mul, Nat.div_div_eq_div_mul]

theorem bitsOf_byteField (d : List Byte) (i lo n : Nat) : bitsOf (byteField d i lo n) 0 n = byteField d i lo n := by
  simp [bitsOf, byteField]

/-- The bytes with the fields of a record are its bytes. -/
theorem RecordBytes.eq {r : Rec} {core slot : Nat} {i : Ids} {d : List Byte} (h : RecordBytes r core slot i d) (hd : d.length = 64) :
    r.bytes core slot i = d := by
  obtain ⟨hcause, hlane, hsynd, hcnt, hpos, hrestart, hmask, hslot, hcore, hentry, haddr0, haddr1, hprog, hgrp, hteam, hclu, hgrid⟩ := h
  rw [byteField_whole] at hpos hrestart haddr0 haddr1
  have hlane8 : bitsOf r.info.lane 0 8 = r.info.lane := by rw [← hlane, bitsOf_byteField]
  have hsynd8 : bitsOf r.info.synd 0 8 = r.info.synd := by rw [← hsynd, bitsOf_byteField]
  have hprog32 : bitsOf r.progress 0 32 = r.progress % 2 ^ 32 := by simp [bitsOf]
  have hres : (if r.resumable then 2 ^ 8 else 0) = 256 * (if r.resumable then 1 else 0) := by split <;> rfl
  have e0 : wordOf d 0 = r.info.cause + 256 * (if r.resumable then 1 else 0) + r.info.lane * 2 ^ 16 + r.info.synd * 2 ^ 24 + r.regcnt.toNat * 2 ^ 32 := by
    have h1 := byteField_split d 0 0 16 48
    have h2 := byteField_split d 0 16 8 40
    have h3 := byteField_split d 0 24 8 32
    rw [← byteField_whole]
    norm_num at *
    omega
  have e3 : wordOf d 3 = r.mask.toNat + slot * 2 ^ 32 + core * 2 ^ 38 + r.entry * 2 ^ 47 := by
    have h1 := byteField_split d 3 0 32 32
    have h2 := byteField_split d 3 32 6 26
    have h3 := byteField_split d 3 38 9 17
    rw [← byteField_whole]
    norm_num at *
    omega
  have e6 : wordOf d 6 = r.progress % 2 ^ 32 + i.grpid * 2 ^ 32 + i.teamid * 2 ^ 36 := by
    have h1 := byteField_split d 6 0 32 32
    have h2 := byteField_split d 6 32 4 28
    rw [← byteField_whole]
    norm_num at *
    omega
  have e7 : wordOf d 7 = i.cluid + i.gridid * 2 ^ 32 := by
    have h1 := byteField_split d 7 0 32 32
    rw [← byteField_whole]
    norm_num at *
    omega
  rw [bytes_of_words hd, e0, hpos, hrestart, e3, haddr0, haddr1, e6, e7]
  simp only [Rec.bytes, hlane8, hsynd8, hprog32, hres, Pos.code]

end Sys2Proof.Machine
end

section
/-! The branches of `FAULT_RECORD_WRITE` (14 R254 to R257) and the end of a group (07 R120). -/

namespace Sys2Proof.Machine

/-! ### Contexts -/

@[simp] theorem State.ctx_setCtx_self (s : State) (q : Nat) (c : Ctx) : (s.setCtx q c).ctx q = c := Tbl.getD_setD_self _ _ _ _

theorem State.ctx_setGroup (s : State) (core slot : Nat) (g : Group) (q : Nat) : (s.setGroup core slot g).ctx q = s.ctx q := rfl

theorem State.group?_of_tables {s t : State} (h : t.tables = s.tables) (core slot : Nat) : t.group? core slot = s.group? core slot := by
  rw [State.tables, State.tables, Prod.mk.injEq] at h
  rw [State.group?, h.1, State.group?]

theorem State.ctx_of_tables {s t : State} (h : t.tables = s.tables) (q : Nat) : t.ctx q = s.ctx q := by
  simp only [State.tables, Prod.mk.injEq] at h
  rw [State.ctx, h.2.2.2, State.ctx]

theorem vwrite_ok_tables {s s1 : State} {core q va fuel : Nat} {d : List Byte} (h : s.vwrite core q va fuel d = .ok s1 ()) : s1.tables = s.tables := by
  have := State.tables_vwrite core q fuel s va d
  rwa [h] at this

/-! ### The writing of a record -/

/-- The oldest record of a group may be written: nothing that the group has issued is under way, no record of its context is older, and the
context is not being removed (14 R255, R257). -/
structure MayWrite (s : State) (core slot : Nat) (g : Group) (r : Rec) (rest : List Rec) : Prop where
  here : s.group? core slot = some g
  oldest : g.stops.unwritten = r :: rest
  settled : s.settled core g = true
  first : s.firstRecord g.ids.queue r.tick = true
  stays : (s.ctx g.ids.queue).removing = none

theorem settled_of_idle {s : State} {core : Nat} {g : Group} (hi : g.inflight = []) (hst : g.statuses = []) (ht : g.trace = []) (hsh : g.shadow = none) :
    s.settled core g = true := by simp [State.settled, hi, hst, ht, hsh]

theorem firstRecord_of_groups {s : State} {q tick : Nat} (h : ∀ p ∈ s.groups, p.2.ids.queue = q → ∀ x ∈ p.2.stops.unwritten, tick ≤ x.tick) :
    s.firstRecord q tick = true := by
  simp only [State.firstRecord, Tbl.vals, List.all_map, List.all_eq_true, Function.comp, Bool.or_eq_true, bne_iff_ne, decide_eq_true_eq]
  exact fun p hp => or_iff_not_imp_left.2 fun hq => h p hp (not_not.1 hq)

/-- A group whose oldest record no longer waits to be written. -/
abbrev Group.wrote (g : Group) (rest : List Rec) : Group := { g with stops := { g.stops with unwritten := rest } }

section
variable {s : State} {core slot : Nat} {g : Group} {r : Rec} {rest : List Rec} (h : MayWrite s core slot g r rest)
include h

theorem MayWrite.written {t : State} (ht : t.group? core slot = some g) :
    (t.updGroup core slot fun g => { g with stops := { g.stops with unwritten := g.stops.unwritten.drop 1 } }) = t.setGroup core slot (g.wrote rest) := by
  rw [State.updGroup_some t ht]
  simp only [h.oldest, List.drop_succ_cons, List.drop_zero]

theorem MayWrite.opens : ¬ (!s.settled core g || !s.firstRecord g.ids.queue r.tick || (s.ctx g.ids.queue).removing.isSome) = true := by
  simp [h.settled, h.first, h.stays]

theorem MayWrite.head : g.stops.unwritten.head? = some r := by rw [h.oldest]; rfl

/-- With the queue off, a stop halts its group. -/
theorem MayWrite.off_stop (hen : (s.ctx g.ids.queue).regs.fqEn = false) (hstop : r.stop = true) :
    exec (.faultRecordWrite core slot) s = .next (s.setGroup core slot
      { (g.wrote rest).holdAll with
        dbg := { g.dbg with run := .halted }, stops := { (g.wrote rest).stops with unserved := g.stops.unserved.drop 1 } }) := by
  have hoff : (!(s.ctx g.ids.queue).regs.fqEn) = true := by rw [hen]; rfl
  show execFaultRecordWrite core slot s = _
  simp only [execFaultRecordWrite, Option.bind_eq_bind, h.here, h.head, Option.bind_some]
  rw [if_neg h.opens, if_pos hoff, if_pos hstop, h.written h.here, State.updGroup_setGroup]
  rfl

/-- With the queue off, a fault removes its context. -/
theorem MayWrite.off_fault (hen : (s.ctx g.ids.queue).regs.fqEn = false) (hstop : r.stop = false) :
    exec (.faultRecordWrite core slot) s = .next ((s.setGroup core slot (g.wrote rest)).askRemoval g.ids.queue) := by
  have hoff : (!(s.ctx g.ids.queue).regs.fqEn) = true := by rw [hen]; rfl
  show execFaultRecordWrite core slot s = _
  simp only [execFaultRecordWrite, Option.bind_eq_bind, h.here, h.head, Option.bind_some]
  rw [if_neg h.opens, if_pos hoff, if_neg (by simp [hstop]), h.written h.here]
  rfl

/-- A full queue is marked. -/
theorem MayWrite.full (hen : (s.ctx g.ids.queue).regs.fqEn = true)
    (hused : (s.ctx g.ids.queue).regs.fqUsed = 2 ^ (s.ctx g.ids.queue).regs.fqLogn) :
    exec (.faultRecordWrite core slot) s = .next (s.setCtx g.ids.queue { s.ctx g.ids.queue with
      regs := { (s.ctx g.ids.queue).regs with full := true } }) := by
  have hon : ¬ (!(s.ctx g.ids.queue).regs.fqEn) = true := by simp [hen]
  show execFaultRecordWrite core slot s = _
  simp only [execFaultRecordWrite, Option.bind_eq_bind, h.here, h.head, Option.bind_some]
  rw [if_neg h.opens, if_neg hon, if_pos hused]
  rfl

/-- Else the record is written at the tail; no context ends by a stop, or by a record of a user group. -/
theorem MayWrite.writes {s1 : State} (hen : (s.ctx g.ids.queue).regs.fqEn = true)
    (hused : (s.ctx g.ids.queue).regs.fqUsed ≠ 2 ^ (s.ctx g.ids.queue).regs.fqLogn) (hkeep : r.stop = true ∨ g.mon = false)
    (hw : s.vwrite core g.ids.queue ((s.ctx g.ids.queue).regs.fqBase + 64 * ((s.ctx g.ids.queue).regs.tail % 2 ^ (s.ctx g.ids.queue).regs.fqLogn)) 3
      (r.bytes core slot g.ids) = .ok s1 ()) :
    exec (.faultRecordWrite core slot) s = .next ((s1.setCtx g.ids.queue { s.ctx g.ids.queue with
      regs := { (s.ctx g.ids.queue).regs with tail := ((s.ctx g.ids.queue).regs.tail + 1) % 2 ^ 17, full := false } }).setGroup core slot (g.wrote rest)) := by
  have htab := vwrite_ok_tables hw
  have hg1 := (State.group?_of_tables htab core slot).trans h.here
  have hon : ¬ (!(s.ctx g.ids.queue).regs.fqEn) = true := by simp [hen]
  have hends : ¬ (!r.stop && s.isHandler core slot g) = true := by
    rcases hkeep with e | e <;> simp [State.isHandler, e]
  show execFaultRecordWrite core slot s = _
  simp only [execFaultRecordWrite, Option.bind_eq_bind, h.here, h.head, Option.bind_some]
  rw [if_neg h.opens, if_neg hon, if_neg hused, hw]
  simp only
  rw [if_neg hends, State.ctx_of_tables htab, h.written (t := s1.setCtx _ _) hg1]
  rfl

end

end Sys2Proof.Machine
end

section
/-! The end of a group (07 R120, 12 R217, 21 R369), and clause starts, comparators, debug steps and records as one statement. -/

namespace Sys2Proof.Machine

theorem Tbl.key_ne_of_mem_del {β : Type} (t : Tbl β) (a : Nat) {p : Nat × β} (h : p ∈ Tbl.del t a) : p.1 ≠ a := by
  induction t with
  | nil => simp [Tbl.del] at h
  | cons q t ih =>
    obtain ⟨k, w⟩ := q
    simp only [Tbl.del] at h
    split at h
    · exact ih h
    · rename_i hk
      rcases List.mem_cons.1 h with e | e
      · rw [e]; exact Ne.symm hk
      · exact ih e

/-- 21 R384: the removal of a context that is not idle, removed or being removed is asked for. -/
theorem askRemoval_asks {s : State} {q : Nat} (hidle : (s.ctx q).st ≠ .idle) (hremoved : (s.ctx q).st ≠ .removed) (hstay : (s.ctx q).removing = none) :
    ((s.askRemoval q).ctx q).removing = some false ∧ (∀ core slot, (s.askRemoval q).group? core slot = s.group? core slot) ∧
      (s.askRemoval q).memsys = s.memsys := by
  have hask : s.askRemoval q = s.setCtx q { s.ctx q with removing := some false } := by
    simp only [State.askRemoval]
    rw [if_neg (by simp [hidle, hremoved, hstay])]
  rw [hask, State.ctx_setCtx_self]
  exact ⟨rfl, fun _ _ => rfl, rfl⟩

/-! ### What the end of a grid leaves alone -/

/-- The groups, the teams and the commands. -/
def State.work (s : State) : Tbl Group × Tbl Team × List Cmd := (s.groups, s.teams, s.cmds)

theorem State.work_of_tables {s t : State} (h : t.tables = s.tables) : t.work = s.work := by
  simp only [State.tables, State.work, Prod.mk.injEq] at h ⊢
  exact ⟨h.1, h.2.1, h.2.2.1⟩

@[simp] theorem State.work_setCtx (s : State) (q : Nat) (c : Ctx) : (s.setCtx q c).work = s.work := (rfl)

theorem State.work_performPosts (q : Nat) (l : List (Nat × List Byte)) : ∀ s : State, (s.performPosts q l).work = s.work := by
  induction l with
  | nil => intro s; simp [State.performPosts]
  | cons p rest ih =>
    intro s
    have hv := State.work_of_tables (State.tables_vwrite (s.schedCore q) q (p.2.length + 1) s p.1 p.2)
    rw [State.performPosts]
    split
    all_goals
      rename_i heq
      rw [heq] at hv
    · rw [State.work_setCtx]; exact hv
    · rw [ih]; exact hv
    · rw [ih]; exact hv

@[simp] theorem State.work_post (s : State) (q va : Nat) (d : List Byte) : (s.post q va d).work = s.work := State.work_performPosts _ _ _

@[simp] theorem State.work_updGrid (s : State) (q k : Nat) (f : Grid → Grid) : (s.updGrid q k f).work = s.work := by
  simp only [State.updGrid]
  split <;> simp

@[simp] theorem State.work_endGrid (s : State) (q k : Nat) : (s.endGrid q k).work = s.work := by
  simp only [State.endGrid]
  split
  · rfl
  · split_ifs <;> simp

@[simp] theorem State.work_freeRecords (s : State) (q : Nat) (r : Option (Nat × List Nat)) : (s.freeRecords q r).work = s.work := by
  cases r with
  | none => rfl
  | some r => exact State.work_setCtx _ _ _

@[simp] theorem State.work_unmap (s : State) (q : Nat) : (s.unmap q).work = s.work := by
  simp only [State.unmap]
  split <;> rfl

@[simp] theorem State.work_idleIfDone (s : State) (q : Nat) : (s.idleIfDone q).work = s.work := by
  simp only [State.idleIfDone]
  split <;> simp

/-! ### A freed slot and a freed team -/

theorem State.freeSlot_groups {s : State} {core slot : Nat} {g : Group} (hg : s.group? core slot = some g) :
    (s.freeSlot core slot).groups = Tbl.del s.groups (gkey core slot) := by
  simp only [State.freeSlot, hg]
  split <;> split <;> rfl

theorem State.freeSlot_cmds {s : State} {core slot : Nat} {g : Group} (hg : s.group? core slot = some g) :
    (s.freeSlot core slot).cmds = s.cmds.filter fun x => !(x.core == core && x.slot == slot) := by
  simp only [State.freeSlot, hg]
  split <;> split <;> rfl

theorem State.freeTeam_groups (s : State) (core : Nat) (i : Ids) : (s.freeTeam core i).groups = s.groups := by
  simp only [State.freeTeam]
  split_ifs <;> (try split) <;> rfl

theorem State.freeTeam_cmds (s : State) (core : Nat) (i : Ids) : (s.freeTeam core i).cmds = s.cmds := by
  simp only [State.freeTeam]
  split_ifs <;> (try split) <;> rfl

/-- A team goes with its last group. -/
theorem State.freeTeam_team {s : State} {core : Nat} {i : Ids} (h : ∀ p ∈ s.groups, p.1 / 64 = core → sameTeam p.2.ids i = false) :
    (s.freeTeam core i).team? core i.teamSlot = none := by
  have hlast : ¬ ((s.groupsOn core).any fun p => sameTeam p.2.ids i) = true := by
    simp only [State.groupsOn, List.any_map, List.any_filter, List.any_eq_true, Function.comp, Bool.and_eq_true, beq_iff_eq]
    rintro ⟨p, hp, hcore, hsame⟩
    rw [h p hp hcore] at hsame
    cases hsame
  rw [State.freeTeam, if_neg hlast]
  simp only
  split_ifs <;> exact Tbl.find?_del_self _ _

/-! ### `GROUP_END` -/

theorem groupEnd_stays {s : State} {core slot : Nat} {g : Group} (hg : s.group? core slot = some g)
    (h : g.allMask ≠ 0 ∨ g.inflight ≠ [] ∨ g.batches ≠ []) : exec (.groupEnd core slot) s = .next s := by
  show execGroupEnd core slot s = _
  simp only [execGroupEnd, Option.bind_eq_bind, hg, Option.bind_some]
  rw [if_pos]
  · rfl
  · rcases h with h | h | h
    · have hover : g.over = false := by simpa [Group.over] using h
      simp [hover]
    · simp [h]
    · simp [h]

/-- A group over, with nothing in flight, no binding and no record: its slot goes, then what it was the last of. -/
theorem groupEnd_ends {s : State} {core slot : Nat} {g : Group} (hg : s.group? core slot = some g) (hmask : g.allMask = 0)
    (hi : g.inflight = []) (hb : g.batches = []) (ht : g.toksets = []) (hbinds : g.binds = []) (hl : g.leader = none) (hs : g.shadow = none)
    (hr : g.stops.unwritten = []) :
    exec (.groupEnd core slot) s = .next (((((((s.setGroup core slot { g with binds := [] }).freeSlot core slot).freeTeam core g.ids).freeRecords
      g.ids.queue g.records).endGrid g.ids.queue g.ids.grid).idleIfDone g.ids.queue)) := by
  have hbind : s.endBindings core slot false = s.setGroup core slot { g with binds := [] } := by
    simp only [State.endBindings, hg, hbinds, Tbl.vals, List.map_nil, List.foldl_nil, State.updGroup_some s hg]
  show execGroupEnd core slot s = _
  simp only [execGroupEnd, Option.bind_eq_bind, hg, Option.bind_some, hbind]
  rw [if_neg]
  · simp only [hs]
    rfl
  · simp [Group.over, hmask, hi, hb, ht, hl, hs, hr]

/-- What is left once a group's slot is freed, and its team if it was the last of it. -/
theorem freeSlot_frees {s : State} {core slot : Nat} {g : Group} (h : Group) (hg : s.group? core slot = some h) :
    let t := (s.freeSlot core slot).freeTeam core g.ids
    t.group? core slot = none ∧ (∀ c ∈ t.cmds, ¬ (c.core = core ∧ c.slot = slot)) ∧
      (∀ c k, gkey c k ≠ gkey core slot → t.group? c k = s.group? c k) ∧
      ((∀ p ∈ s.groups, p.1 / 64 = core → p.1 ≠ gkey core slot → sameTeam p.2.ids g.ids = false) → t.team? core g.ids.teamSlot = none) := by
  have hgroups := State.freeSlot_groups hg
  refine ⟨?_, fun c hc => ?_, fun c k hne => ?_, fun hlast => State.freeTeam_team fun p hp hcore => ?_⟩
  · rw [State.group?, State.freeTeam_groups, hgroups, Tbl.find?_del_self]
  · rw [State.freeTeam_cmds, State.freeSlot_cmds hg, List.mem_filter] at hc
    rintro ⟨hcore, hslot⟩
    simp [hcore, hslot] at hc
  · rw [State.group?, State.freeTeam_groups, hgroups, Tbl.find?_del_ne _ hne, State.group?]
  · rw [hgroups] at hp
    exact hlast p (Tbl.mem_del _ _ hp) hcore (Tbl.key_ne_of_mem_del _ _ hp)

/-- 07 R120, 12 R217: a group's end frees its slot, its commands, and its team if it was the last of it. -/
theorem groupEnd_frees (s : State) (core slot : Nat) (g : Group) :
    let t := (((((s.setGroup core slot { g with binds := [] }).freeSlot core slot).freeTeam core g.ids).freeRecords
      g.ids.queue g.records).endGrid g.ids.queue g.ids.grid).idleIfDone g.ids.queue
    t.group? core slot = none ∧ (∀ c ∈ t.cmds, ¬ (c.core = core ∧ c.slot = slot)) ∧
      (∀ c k, gkey c k ≠ gkey core slot → t.group? c k = s.group? c k) ∧
      ((∀ p ∈ s.groups, p.1 / 64 = core → p.1 ≠ gkey core slot → sameTeam p.2.ids g.ids = false) → t.team? core g.ids.teamSlot = none) := by
  intro t
  have hwork : t.work = (((s.setGroup core slot { g with binds := [] }).freeSlot core slot).freeTeam core g.ids).work := by simp [t]
  obtain ⟨hgone, hcmds, hothers, hteam⟩ :=
    freeSlot_frees (g := g) { g with binds := [] } (State.group?_setGroup_self s core slot { g with binds := [] })
  simp only [State.work, Prod.mk.injEq] at hwork
  obtain ⟨hgroups, hteams, hcmds'⟩ := hwork
  refine ⟨?_, ?_, fun c k hne => ?_, fun hlast => ?_⟩
  · rw [State.group?, hgroups]
    exact hgone
  · rw [hcmds']
    exact hcmds
  · rw [State.group?, hgroups]
    exact (hothers c k hne).trans (State.group?_setGroup_ne s _ hne)
  · rw [State.team?, hteams]
    refine hteam fun p hp hcore hne => ?_
    rcases Tbl.mem_put _ _ _ hp with e | e
    · exact absurd (congrArg Prod.fst e) hne
    · exact hlast p e hcore hne

/-- Settles O40: each clause by the lemma of its event. -/
theorem clausesRecordsAndDebugSteps : Obligations.ClausesRecordsAndDebugSteps := by
  intro s core slot g hg
  refine ⟨?clauses, ?unassigned, ?comparators, ?steps, ?stops, ?records, groupEnd_stays hg, ?ends⟩
  case clauses =>
    intro k w hblock hmay hslot hre s1 hf hu
    have hre' : ¬ ((g.ent k).reconv ≠ 0 ∧ (g.ent k).reconv = (g.ent k).pos.caddr) := fun h => hre.elim h.1 fun hne => hne h.2
    rw [exec_clauseStart hg hblock hmay hslot]
    refine ⟨fun c hc => ?_, fun hc hw => ?_, fun hc hw => ?_⟩
    · rw [startClause_bad hg hre' hf hc]
      rfl
    · rw [startClause_waits hg hre' hf hc (by simpa only [WaitsAt, hu.flagSet] using hw)]
    · obtain ⟨g1, hfirst⟩ := startClause_first hg hblock (State.mayIssue_running hmay) hre' hf hu hc hw
      exact ⟨_, g1, rfl, hfirst⟩
  case unassigned =>
    intro op h hh
    show execUnassignedOpcode op s = _
    simp only [execUnassignedOpcode, hh, Option.bind_eq_bind, Option.bind_some]
    rfl
  case comparators =>
    intro k i hk hmay hown hi p matched hmatch hfirst hpass hlanes harr
    exact comparatorBreakpoint_stops hg hk hmay hown (Group.comparator_first hi hmatch hfirst hpass hlanes) harr
  case steps =>
    by_cases hst : (g.ent g.dbg.stepEnt).st = .stopped
    · refine ⟨_, congrArg (event s ∘ some) (debugStep_steps hg hst), fun _ hformer => ⟨rfl, ?_⟩, fun hne => absurd hst hne⟩
      exact (Group.setEnt_sets g g.dbg.stepEnt (e := { g.ent g.dbg.stepEnt with st := (g.ent g.dbg.stepEnt).former, former := .free }) hformer).2
    · exact ⟨_, congrArg (event s ∘ some) (debugStep_refuses hg hst), fun h => absurd h hst, fun _ => rfl⟩
  case stops =>
    intro hl hs hrun
    have hheld := g.holdAll_sets
    have hexec : exec (.dbgStop core slot) s = _ := congrArg (event s ∘ some) (debugStop_halts hg hl hs hrun)
    generalize g.holdAll = held at hheld hexec
    exact ⟨_, hexec, hheld.withDbg _, fun j hj => (hheld.2 j).trans (if_pos hj)⟩
  case records =>
    intro r rest hold hi hst ht hsh hfirst q c used done hstay
    have hmay : MayWrite s core slot g r rest := ⟨hg, hold, settled_of_idle hi hst ht hsh, firstRecord_of_groups hfirst, hstay⟩
    refine ⟨fun hen hstop => ?_, fun hen hstop hidle hremoved => ?_, fun hen hused => hmay.full hen hused,
      fun s1 bytes hen hused hkeep hlen hfields hw => ?_⟩
    · have hheld := (g.wrote rest).holdAll_sets
      have hexec := hmay.off_stop hen hstop
      generalize (g.wrote rest).holdAll = held at hheld hexec
      exact ⟨_, _, hexec, State.group?_setGroup_self _ _ _ _, rfl, rfl, hheld.regs, hstay⟩
    · obtain ⟨hrem, hgroup, hmem⟩ := askRemoval_asks (s := s.setGroup core slot (g.wrote rest)) hidle hremoved hstay
      exact ⟨_, hmay.off_fault hen hstop, (hgroup core slot).trans (State.group?_setGroup_self _ _ _ _), hrem, hmem⟩
    · rw [← RecordBytes.eq hfields hlen] at hw
      refine ⟨_, hmay.writes hen hused hkeep hw, State.group?_setGroup_self _ _ _ _, rfl, ?_⟩
      rw [State.ctx_setGroup, State.ctx_setCtx_self]
      exact ⟨rfl, hstay⟩
  case ends =>
    intro hmask hi hb ht hbinds hl hs hr
    exact ⟨_, groupEnd_ends hg hmask hi hb ht hbinds hl hs hr, groupEnd_frees s core slot g⟩

end Sys2Proof.Machine
end

section
/-! The frames of the integer words, lane and uniform: the destination that a word lists is what it writes (06 R85, R86, R94). -/

namespace Sys2Proof.Machine

section
variable {i : Instr} {s : State} {g : Group} {gd : Guard} {d : Reg} {w : Nat} {reads : Bool} {os : List Opnd}

/-- A lane word whose first operand is its vector destination writes there what its function gives. -/
theorem Ready.laneResult {f : Group → Entry → Nat → Nat} {f' : Nat → Nat} (h : Ready i s g) (ht : ∀ a, targetFault i a = none)
    (hx : exec i s = Sys2Proof.Machine.laneWrite i gd d w s f) (ho : i.operands = ⟨.vec, d.toNat, w, reads, true⟩ :: os)
    (hw : w = 1 ∨ w = 2 ∨ w = 4) (hf : ∀ l, f g (s.frag g) l = f' l) : LaneWrites i gd d w s g f' :=
  funext hf ▸ h.laneWrite ht hx (h.vec_fits (ho ▸ List.mem_cons_self) hw)

/-- A uniform word over `uniWrite` writes the value of its function. -/
theorem Ready.uniResult {f : Group → Nat} {x : Nat} (h : Ready i s g) (ht : ∀ a, targetFault i a = none)
    (hx : exec i s = Sys2Proof.Machine.uniWrite i gd d w s f) (hf : f g = x) : UniWrites i gd d w s g x :=
  hf ▸ h.uniWrite ht hx

/-- A uniform word that writes a uniform predicate when its guard is true. -/
theorem Ready.uniPredResult {f : Group → Bool} (h : Ready i s g) (ht : ∀ a, targetFault i a = none)
    (hx : exec i s = uniform i gd s fun g _ => .group s (g.wrQ d.toNat (f g))) :
    ∃ g1, Completes i s g1 ∧ UniPredWritten g g1 (g.guardUni gd) d.toNat (f g) := by
  cases hg : g.guardUni gd with
  | true =>
    have hq := Group.wrQ_written g d.toNat (f g)
    exact ⟨_, h.uniform_group ht hx hg rfl (by rw [hq.ent]; rfl), hq⟩
  | false => exact ⟨g, h.uniform_off ht hx hg, .none ..⟩

end

/-! ### A register and a predicate for each lane -/

theorem Group.wrVs_wrP (w : Nat) : ∀ (g : Group) (l n k m : Nat) (x : Bool) (y : Nat),
    (g.wrP l n x).wrVs k m w y = (g.wrVs k m w y).wrP l n x := by
  induction w with
  | zero => intros; rfl
  | succ w ih =>
    intro g l n k m x y
    have hone : (g.wrP l n x).wrV k m (BitVec.ofNat 32 y) = (g.wrV k m (BitVec.ofNat 32 y)).wrP l n x := by
      unfold Group.wrP
      split <;> rfl
    rw [Group.wrVs, hone, ih]
    rfl

/-- Registers and predicates written lane by lane are all the registers, then all the predicates. -/
theorem Group.foldl_wrVs_wrP (v : Nat → Nat) (p : Nat → Bool) (d w c : Nat) : ∀ (ls : List Nat) (g : Group),
    ls.foldl (fun acc l => (acc.wrVs l d w (v l)).wrP l c (p l)) g =
      ls.foldl (fun acc l => acc.wrP l c (p l)) (ls.foldl (fun acc l => acc.wrVs l d w (v l)) g) := by
  intro ls
  induction ls with
  | nil => intro g; rfl
  | cons a ls ih =>
    intro g
    have hpast : ls.foldl (fun acc l => acc.wrVs l d w (v l)) ((g.wrVs a d w (v a)).wrP a c (p a)) =
        (ls.foldl (fun acc l => acc.wrVs l d w (v l)) (g.wrVs a d w (v a))).wrP a c (p a) :=
      List.foldl_hom (f := fun acc : Group => acc.wrP a c (p a)) fun acc l => Group.wrVs_wrP w acc a c l d (p a) (v l)
    simp only [List.foldl_cons, ih, hpast]

/-- A lane word that writes one register and updates one predicate in each active lane (06 R94). -/
theorem Ready.laneCarry {i : Instr} {s : State} {g : Group} {gd : Guard} {d c : Reg} {a b : Src} {v : Group → Nat → Nat}
    {p : Group → Nat → Bool} {v' : Nat → Nat} {p' : Nat → Bool} (h : Ready i s g) (ht : ∀ a, targetFault i a = none)
    (hx : exec i s = lanewise i gd s fun g _ ls =>
      .group s (ls.foldl (fun acc l => (acc.wrVs l d.toNat 1 (v g l)).wrP l c.toNat (p g l)) g))
    (ho : i.operands = [vDst d 1, srcOp a 1, srcOp b 1, pUpd c]) (hv : ∀ l, v g l = v' l) (hp : ∀ l, p g l = p' l) :
    ∃ gv gp, Completes i s gp ∧ VecWritten g gv (s.lanes g gd) d.toNat 1 v' ∧ PredWritten gv gp (s.lanes g gd) c.toNat p' := by
  obtain rfl : v g = v' := funext hv
  obtain rfl : p g = p' := funext hp
  have hvec := Group.foldl_wrVs (v g) d.toNat 1 (h.vec_fits (ho ▸ List.mem_cons_self) (.inl rfl)) (s.lanes g gd) g
  have hpred := Group.foldl_wrP (p g) c.toNat (h.pred_fits (d := c) (r := true) (x := true) (by simp [ho, pUpd])) (s.lanes g gd)
    ((s.lanes g gd).foldl (fun acc l => acc.wrVs l d.toNat 1 (v g l)) g)
  refine ⟨_, _, ⟨?_, fun a => by simp⟩, hvec, hpred⟩
  rw [hx]
  refine h.issue_done (ht _) ?_ (by rw [hpred.ent, hvec.ent])
  rw [← Group.foldl_wrVs_wrP (v g) (p g)]
  rfl

end Sys2Proof.Machine
end

section
/-! What the model computes of integer operands, against the readings of 06 R91 to R105: products, choices, shifts, fields, bits, bytes. -/

namespace Sys2Proof.Machine

/-! ### Operands read as the type reads them (06 R87) -/

theorem tyRead_src (g : Group) (t : IntTy) (a : Src) (l : Nat) : tyRead t (g.src a t.width l) = g.laneVal t a l := tyRead_eq ..

theorem tyRead_rdSs (g : Group) (t : IntTy) (a : Reg) : tyRead t (g.rdSs a.toNat t.width) = g.uniVal t a := tyRead_eq ..

theorem Group.src_lt_tyBits (g : Group) (t : IntTy) (a : Src) (l : Nat) : g.src a t.width l < 2 ^ tyBits t :=
  tyBits_eq t ▸ g.src_lt a t.width l

theorem Group.rdSs_lt_tyBits (g : Group) (t : IntTy) (a : Reg) : g.rdSs a.toNat t.width < 2 ^ tyBits t :=
  tyBits_eq t ▸ g.rdSs_lt a.toNat t.width

/-- A value taken into the type that it was read by is that value. -/
theorem narrowed_tyRead (t : IntTy) {x : Nat} (hx : x < 2 ^ tyBits t) : narrowed t false (tyRead t x) = x := by
  rw [tyRead_eq]
  cases t
  case s32 | s64 => exact (congrArg BitVec.toNat BitVec.ofInt_toInt).trans (Nat.mod_eq_of_lt hx)
  case b32 | n32 | b64 | n64 =>
    simp only [narrowed, typed, Bool.false_eq_true, if_false, BitVec.ofInt_natCast, BitVec.toNat_ofNat, Nat.mod_mod]
    exact Nat.mod_eq_of_lt hx

theorem bitsOf_byte (x i : Nat) : bitsOf x (8 * i) 8 = x >>> (8 * i) % 256 := by
  rw [bitsOf, Nat.shiftRight_eq_div_pow]
  rfl

/-- A bit vector takes the low bits of a number. -/
theorem ofNat_mod_two_pow (n x : Nat) : BitVec.ofNat n (x % 2 ^ n) = BitVec.ofNat n x :=
  BitVec.eq_of_toNat_eq (by simp)

theorem signExtend_ofNat_zero (w x : Nat) : (BitVec.ofNat 0 x).signExtend w = 0#w := by
  simp [BitVec.signExtend, BitVec.eq_nil (BitVec.ofNat 0 x)]

/-! ### Products, choices, differences, dot products (06 R91, R93, R95, R96) -/

theorem mulHigh_eq (t : IntTy) (a b : Nat) : mulHigh t a b = narrowed t false (tyRead t a * tyRead t b / 2 ^ tyBits t) := by
  rw [← finish_eq, ← tyW_eq]
  rfl

theorem pickMinMax_min (t : IntTy) {a b : Nat} (ha : a < 2 ^ tyBits t) (hb : b < 2 ^ tyBits t) :
    pickMinMax t true a b = narrowed t false (min (tyRead t a) (tyRead t b)) := by
  rcases lt_or_ge (tyRead t b) (tyRead t a) with h | h
  · rw [min_eq_right h.le, narrowed_tyRead t hb]
    simp [pickMinMax, h]
  · rw [min_eq_left h, narrowed_tyRead t ha]
    simp [pickMinMax, h.not_gt]

theorem pickMinMax_max (t : IntTy) {a b : Nat} (ha : a < 2 ^ tyBits t) (hb : b < 2 ^ tyBits t) :
    pickMinMax t false a b = narrowed t false (max (tyRead t a) (tyRead t b)) := by
  rcases lt_or_ge (tyRead t a) (tyRead t b) with h | h
  · rw [max_eq_right h.le, narrowed_tyRead t hb]
    simp [pickMinMax, h]
  · rw [max_eq_left h, narrowed_tyRead t ha]
    simp [pickMinMax, h.not_gt]

theorem absDiffAdd_eq (t : IntTy) (a b : Nat) {c : Nat} (hc : c < 2 ^ 32) :
    absDiffAdd t a b c = (BitVec.ofInt 32 (|typed t a - typed t b| + (c : Int))).toNat := by
  rw [absDiffAdd, bitsInt_eq, tyRead_eq, tyRead_eq, Int.natCast_natAbs, Nat.mod_eq_of_lt hc]

/-- The byte `i` of a value, read as `dp4` reads it (06 R96). -/
def byteVal (t : ByteTy) (x i : Nat) : Int :=
  match t with
  | .s8 => (BitVec.ofNat 8 (x >>> (8 * i))).toInt
  | .n8 => ((x >>> (8 * i)) % 256 : Nat)

theorem dotBytes_eq (t : IntTy) (t2 : ByteTy) (sat : Bool) (a b c : Nat) :
    dotBytes t t2 sat a b c = narrowed t sat (typed t c + byteVal t2 a 0 * byteVal t2 b 0 + byteVal t2 a 1 * byteVal t2 b 1 +
      byteVal t2 a 2 * byteVal t2 b 2 + byteVal t2 a 3 * byteVal t2 b 3) := by
  have hsigned (x i : Nat) : signExt (bitsOf x (8 * i) 8) 8 = byteVal .s8 x i := by
    rw [signExt_eq, byteVal, bitsOf, Nat.shiftRight_eq_div_pow, ofNat_mod_two_pow]
  have hplain (x i : Nat) : (bitsOf x (8 * i) 8 : Int) = byteVal .n8 x i := by rw [byteVal, bitsOf_byte]
  cases t2 <;> simp [dotBytes, finish_eq, tyRead_eq, hsigned, hplain, List.range_succ]

/-! ### Shifts (06 R99) -/

theorem shift_shl (w a n : Nat) : shift .shl w a n = (BitVec.ofNat w a <<< n).toNat := by
  simp only [shift, BitVec.toNat_shiftLeft, BitVec.toNat_ofNat, Nat.shiftLeft_eq]
  split
  case isTrue h => exact (Nat.mod_eq_zero_of_dvd ((Nat.pow_dvd_pow 2 h).mul_left _)).symm
  case isFalse => rfl

theorem shift_shr (w a n : Nat) : shift .shr w a n = (BitVec.ofNat w a >>> n).toNat := by
  simp only [shift, BitVec.toNat_ushiftRight, BitVec.toNat_ofNat, Nat.shiftRight_eq_div_pow]
  split
  case isTrue h => exact (Nat.div_eq_of_lt ((Nat.mod_lt _ (by simp)).trans_le (Nat.pow_le_pow_right (by decide) h))).symm
  case isFalse => rfl

/-- Shifting a two's complement value by its width or more leaves copies of its sign. -/
theorem ediv_two_pow_of_bounds {x : Int} {m k : Nat} (hlo : -2 ^ m ≤ x) (hhi : x < 2 ^ m) (hk : m ≤ k) :
    x / 2 ^ k = if x < 0 then -1 else 0 := by
  have hpow : (2 : Int) ^ m ≤ 2 ^ k := pow_le_pow_right₀ (by decide) hk
  split
  · exact ((Int.ediv_emod_unique (r := x + 2 ^ k) (by positivity)).2 ⟨by ring, by omega, by omega⟩).1
  · exact Int.ediv_eq_zero_of_lt (by omega) (by omega)

theorem shift_sar (w a n : Nat) : shift .sar w a n = ((BitVec.ofNat w a).sshiftRight n).toNat := by
  simp only [shift, BitVec.sshiftRight, bitsInt_eq, signExt_eq, ofNat_mod_two_pow, Int.shiftRight_eq_div_pow]
  split
  case isTrue h =>
    have hlo := (BitVec.ofNat w a).le_toInt
    have hhi := (BitVec.ofNat w a).toInt_lt
    rw [ediv_two_pow_of_bounds hlo hhi le_rfl, Nat.cast_pow, Nat.cast_ofNat, ediv_two_pow_of_bounds hlo hhi (by omega)]
  case isFalse => push_cast; rfl

/-- The two parts of a rotated value do not overlap, so their sum is their union. -/
theorem shift_rot {w : Nat} (hw : 0 < w) (a n : Nat) : shift .rot w a n = ((BitVec.ofNat w a).rotateLeft n).toNat := by
  have hn : n % w < w := Nat.mod_lt n hw
  have hsplit : 2 ^ w = 2 ^ (w - n % w) * 2 ^ (n % w) := by rw [← Nat.pow_add]; congr 1; omega
  have hlow : a % 2 ^ w / 2 ^ (w - n % w) < 2 ^ (n % w) :=
    Nat.div_lt_of_lt_mul (hsplit ▸ Nat.mod_lt a (by simp))
  have hhigh : a % 2 ^ w * 2 ^ (n % w) % 2 ^ w = (a % 2 ^ w % 2 ^ (w - n % w)) <<< (n % w) := by
    calc a % 2 ^ w * 2 ^ (n % w) % 2 ^ w
        = a % 2 ^ w * 2 ^ (n % w) % (2 ^ (w - n % w) * 2 ^ (n % w)) := by rw [← hsplit]
      _ = (a % 2 ^ w % 2 ^ (w - n % w)) <<< (n % w) := by rw [Nat.mul_mod_mul_right, Nat.shiftLeft_eq]
  rw [BitVec.toNat_rotateLeft, BitVec.toNat_ofNat, Nat.shiftRight_eq_div_pow, Nat.shiftLeft_eq, shift, hhigh,
    Nat.shiftLeft_add_eq_or_of_lt hlow]

/-! ### Fields (06 R100, R101, R104) -/

theorem bitsInt_signExt (w n x : Nat) : bitsInt (signExt x n) w = ((BitVec.ofNat n x).signExtend w).toNat := by
  rw [bitsInt_eq, signExt_eq, BitVec.signExtend]

theorem extractField_eq (t : IntTy) {a : Nat} (pos len : Nat) (ha : a < 2 ^ tyBits t) :
    extractField t a pos len = extracted t a pos len := by
  have hfield : field (tyW t) pos len = clampedField (tyBits t) pos len := by rw [tyW_eq]; rfl
  simp only [extractField, extracted, hfield]
  obtain ⟨p, n⟩ := clampedField (tyBits t) pos len
  simp only [bitsInt_signExt, tyW_eq, Nat.mod_eq_of_lt ha, bitsOf, ← Nat.shiftRight_eq_div_pow, ofNat_mod_two_pow]
  rcases eq_or_ne n 0 with rfl | hn
  · cases t <;> simp [Nat.mod_one, signExtend_ofNat_zero]
  · cases t <;> simp [hn, tySigned]

theorem insertField_testBit (w old a pos len i : Nat) :
    (insertField w old a pos len).testBit i =
      if (clampedField w pos len).1 ≤ i ∧ i < (clampedField w pos len).1 + (clampedField w pos len).2 then
        a.testBit (i - (clampedField w pos len).1) else old.testBit i := by
  have hfield : field w pos len = clampedField w pos len := rfl
  simp only [insertField, hfield]
  generalize (clampedField w pos len).1 = p, (clampedField w pos len).2 = n
  have hparts : old % 2 ^ p + a % 2 ^ n * 2 ^ p + old / 2 ^ (p + n) * 2 ^ (p + n) =
      2 ^ p * (2 ^ n * (old / 2 ^ (p + n)) + a % 2 ^ n) + old % 2 ^ p := by ring
  rw [hparts, Nat.testBit_two_pow_mul_add _ (Nat.mod_lt _ (by simp)), Nat.testBit_two_pow_mul_add _ (Nat.mod_lt _ (by simp)),
    Nat.testBit_mod_two_pow, Nat.testBit_mod_two_pow, Nat.testBit_div_two_pow]
  by_cases hp : i < p
  · simp [hp, Nat.not_le.2 hp]
  · by_cases hn : i - p < n
    · simp [hp, hn, Nat.not_lt.1 hp, show i < p + n by omega]
    · simp [hp, hn, show ¬ i < p + n by omega, show i - p - n + (p + n) = i by omega]

theorem signExtend_eq {w a : Nat} (n : Nat) (ha : a < 2 ^ w) :
    signExtend w a n = if w ≤ n then a else ((BitVec.ofNat n a).signExtend w).toNat := by
  rw [signExtend, Nat.mod_eq_of_lt ha, bitsInt_signExt]
  rcases eq_or_ne n 0 with rfl | hn
  · rw [if_pos rfl, signExtend_ofNat_zero]
    split
    case isTrue hw =>
      obtain rfl := Nat.le_zero.1 hw
      omega
    case isFalse => rfl
  · rw [if_neg hn]

/-! ### Bits (06 R98, R102) -/

theorem bitOf_eq (x i : Nat) : bitOf x i = x.testBit i := by
  rw [Nat.testBit_eq_decide_div_mod_eq]
  rfl

theorem popCount_eq (w x : Nat) : popCount w x = (List.range w).countP fun i => x.testBit i := by
  rw [List.countP_eq_length_filter, popCount]
  simp only [bitOf_eq]

theorem countLeading_spec {w x : Nat} (hx : x < 2 ^ w) :
    countLeading w x ≤ w ∧ (∀ i, w ≤ i + countLeading w x → i < w → x.testBit i = false) ∧
      (countLeading w x < w → x.testBit (w - 1 - countLeading w x) = true) := by
  rw [countLeading, Nat.mod_eq_of_lt hx]
  split
  case isTrue h0 => simp [h0]
  case isFalse h0 =>
    have hlog : x.log2 < w := (Nat.log2_lt h0).2 hx
    refine ⟨by omega, fun i hi _ => Nat.testBit_lt_two_pow ((Nat.log2_lt h0).1 (by omega)), fun _ => ?_⟩
    rw [show w - 1 - (w - 1 - x.log2) = x.log2 by omega]
    exact Nat.testBit_log2 h0

theorem lop3Value_testBit (tt : BitVec 8) (a b c : Nat) {i : Nat} (hi : i < 32) :
    (lop3Value tt a b c).testBit i = tt.getLsbD ((if a.testBit i then 1 else 0) + (if b.testBit i then 2 else 0) +
      (if c.testBit i then 4 else 0)) := by
  have hbits := (foldl_bits (fun i => tt.getLsbD ((bitOf a i).toNat + (bitOf b i).toNat * 2 + (bitOf c i).toNat * 4)) 32).2 i hi
  refine hbits.trans ?_
  simp only [bitOf_eq]
  cases a.testBit i <;> cases b.testBit i <;> cases c.testBit i <;> rfl

theorem range_map_reflect (w : Nat) : (List.range w).map (w - 1 - ·) = (List.range w).reverse :=
  List.ext_getElem (by simp) (by simp)

/-- Bits placed from the top down make the same number as bits placed from the bottom up. -/
theorem bitReverse_fold (w x : Nat) :
    bitReverse w x = (List.range w).foldl (fun acc i => if x.testBit (w - 1 - i) then acc + 2 ^ i else acc) 0 := by
  have hperm : ((List.range w).map (w - 1 - ·)).Perm (List.range w) := range_map_reflect w ▸ List.reverse_perm _
  rw [bitReverse, ← hperm.foldl_eq' fun i _ j _ z => by grind, List.foldl_map]
  refine List.foldl_ext _ _ _ fun acc i hi => ?_
  rw [bitOf_eq, show w - 1 - (w - 1 - i) = i by have := List.mem_range.1 hi; omega]

theorem bitReverse_eq (w x : Nat) : bitReverse w x = (BitVec.ofNat w x).reverse.toNat := by
  obtain ⟨hlt, hbit⟩ := foldl_bits (fun i => x.testBit (w - 1 - i)) w
  rw [bitReverse_fold]
  refine Nat.eq_of_testBit_eq fun i => ?_
  by_cases hi : i < w
  · rw [hbit i hi, BitVec.testBit_toNat, BitVec.getLsbD_reverse, BitVec.getMsbD_eq_getLsbD, BitVec.getLsbD_ofNat]
    simp [hi, show w - 1 - i < w by omega]
  · have hw : (2 : Nat) ^ w ≤ 2 ^ i := Nat.pow_le_pow_right (by decide) (by omega)
    rw [Nat.testBit_lt_two_pow (hlt.trans_le hw), Nat.testBit_lt_two_pow ((BitVec.isLt _).trans_le hw)]

/-! ### Bytes (06 R103) -/

/-- A number put together from its bytes. -/
theorem foldl_bytes (r : Nat → Nat) (hr : ∀ i, r i < 256) (n : Nat) :
    (List.range n).foldl (fun x i => x + r i * 2 ^ (8 * i)) 0 < 2 ^ (8 * n) ∧ ∀ i < n,
      (List.range n).foldl (fun x i => x + r i * 2 ^ (8 * i)) 0 >>> (8 * i) % 256 = r i := by
  simp only [Nat.shiftRight_eq_div_pow]
  induction n with
  | zero => simp
  | succ n ih =>
    obtain ⟨hlt, hbyte⟩ := ih
    have hn := hr n
    rw [List.range_succ, List.foldl_append]
    generalize (List.range n).foldl (fun x i => x + r i * 2 ^ (8 * i)) 0 = x at hlt hbyte
    simp only [List.foldl_cons, List.foldl_nil]
    refine ⟨?_, fun i hi => ?_⟩
    · calc x + r n * 2 ^ (8 * n) < (r n + 1) * 2 ^ (8 * n) := by rw [Nat.add_one_mul (r n)]; omega
        _ ≤ 256 * 2 ^ (8 * n) := Nat.mul_le_mul_right _ hn
        _ = 2 ^ (8 * (n + 1)) := by ring
    · rcases Nat.lt_succ_iff_lt_or_eq.1 hi with hi | rfl
      · have hweight : r n * 2 ^ (8 * n) = r n * 2 ^ (8 * (n - i - 1)) * 256 * 2 ^ (8 * i) := by
          rw [show 8 * n = 8 * (n - i - 1) + 8 + 8 * i by omega]
          ring
        rw [hweight, Nat.add_mul_div_right _ _ (by simp), Nat.add_mul_mod_self_right, hbyte i hi]
      · rw [Nat.add_mul_div_right _ _ (by simp), Nat.div_eq_of_lt hlt, Nat.zero_add, Nat.mod_eq_of_lt hn]

/-- The byte `i` of the result of `prmt`: the source byte and the fill mode that the selector byte names (06 R103). -/
def permutedByte (a b c i : Nat) : Nat :=
  let sel := c >>> (8 * i) % 256
  let e := (a + 2 ^ 32 * b) >>> (8 * (sel % 8)) % 256
  match sel / 8 % 4 with
  | 0 => e
  | 1 => 0
  | 2 => if e.testBit 7 then 255 else 0
  | _ => 255

theorem permutedByte_lt (a b c i : Nat) : permutedByte a b c i < 256 := by
  simp only [permutedByte]
  split
  · exact Nat.mod_lt _ (by decide)
  · decide
  · split <;> decide
  · decide

/-- The top bit of a byte. -/
theorem testBit_seven_of_byte (x : Nat) : (x % 256).testBit 7 = decide (128 ≤ x % 256) := by
  rw [Nat.testBit_eq_decide_div_mod_eq, decide_eq_decide]
  omega

theorem permute_byte {a b : Nat} (c : Nat) (ha : a < 2 ^ 32) (hb : b < 2 ^ 32) {i : Nat} (hi : i < 4) :
    permute a b c >>> (8 * i) % 256 = permutedByte a b c i := by
  have hsrc : a % 2 ^ 32 + b % 2 ^ 32 * 2 ^ 32 = a + 2 ^ 32 * b := by rw [Nat.mod_eq_of_lt ha, Nat.mod_eq_of_lt hb, Nat.mul_comm]
  have hfold : permute a b c = (List.range 4).foldl (fun x j => x + permutedByte a b c j * 2 ^ (8 * j)) 0 := by
    simp only [permute, hsrc, permutedByte, bitsOf_byte, testBit_seven_of_byte, decide_eq_true_eq] <;> rfl
  rw [hfold]
  exact (foldl_bytes _ (permutedByte_lt a b c) 4).2 i hi

/-! ### Comparisons (06 R105) -/

theorem compareInt_iff (cc : Cc) (x y : Int) : compareInt cc x y = true ↔ compares cc x y := by
  cases cc <;> simp [compareInt, compares]

end Sys2Proof.Machine
end

section
/-! Integer and uniform words (06 R85 to R108): each writes what its rule gives of its operands, and nothing else. -/

namespace Sys2Proof.Machine

/-- Settles O1: the exact results of the typed readings, taken into the type once by `finish`. -/
theorem sumsAndProducts : Obligations.SumsAndProducts := by
  unfold Obligations.SumsAndProducts
  intro s g gd t sat d
  refine ⟨fun a b h => ?add, fun a b h => ?sub, fun a b h => ?mul, fun a b c h => ?mad,
    fun a b h => ?uadd, fun a b h => ?usub, fun a b h => ?umul, fun a b c h => ?umad⟩
  case add | sub | mul | mad =>
    exact h.laneResult (fun _ => rfl) rfl rfl t.width_cases fun l => by simp only [finish_eq, tyRead_src]
  case uadd | usub | umul | umad => exact h.uniResult (fun _ => rfl) rfl (by simp only [finish_eq, tyRead_rdSs])

/-- Settles O2: each word by the lemma that gives its function of the operands as the type reads them. -/
theorem highProductsMagnitudesAndDots : Obligations.HighProductsMagnitudesAndDots := by
  unfold Obligations.HighProductsMagnitudesAndDots
  intro s g gd t d
  refine ⟨fun a b h => ?mulh, fun a b h => ?umulh, fun sat a h => ?abs, fun a b h => ?min, fun a b h => ?max,
    fun a b h => ?umin, fun a b h => ?umax, fun a b c h => ?sad, fun t2 sat a b c h => ?dp4⟩
  case mulh => exact h.laneResult (fun _ => rfl) rfl rfl t.width_cases fun l => by rw [mulHigh_eq, tyRead_src, tyRead_src]
  case umulh => exact h.uniResult (fun _ => rfl) rfl (by rw [mulHigh_eq, tyRead_rdSs, tyRead_rdSs])
  case abs =>
    exact h.laneResult (fun _ => rfl) rfl rfl t.width_cases fun l => by rw [finish_eq, tyRead_src, Int.natCast_natAbs]
  case min =>
    exact h.laneResult (fun _ => rfl) rfl rfl t.width_cases fun l => by
      rw [pickMinMax_min t (g.src_lt_tyBits t a l) (g.src_lt_tyBits t b l), tyRead_src, tyRead_src]
  case max =>
    exact h.laneResult (fun _ => rfl) rfl rfl t.width_cases fun l => by
      rw [pickMinMax_max t (g.src_lt_tyBits t a l) (g.src_lt_tyBits t b l), tyRead_src, tyRead_src]
  case umin =>
    exact h.uniResult (fun _ => rfl) rfl (by
      rw [pickMinMax_min t (g.rdSs_lt_tyBits t a) (g.rdSs_lt_tyBits t b), tyRead_rdSs, tyRead_rdSs])
  case umax =>
    exact h.uniResult (fun _ => rfl) rfl (by
      rw [pickMinMax_max t (g.rdSs_lt_tyBits t a) (g.rdSs_lt_tyBits t b), tyRead_rdSs, tyRead_rdSs])
  case sad =>
    exact h.laneResult (fun _ => rfl) rfl rfl (.inl rfl) fun l => absDiffAdd_eq t _ _ (g.src_lt c 1 l)
  case dp4 => exact h.laneResult (fun _ => rfl) rfl rfl (.inl rfl) fun l => dotBytes_eq t t2 sat _ _ _

/-- Settles O3: carries leave by the predicate while the sum wraps; `lop3` builds its result bit by bit. -/
theorem carriesAndBitwiseLogic : Obligations.CarriesAndBitwiseLogic := by
  unfold Obligations.CarriesAndBitwiseLogic
  refine ⟨fun s g gd d c a b => ⟨fun h => ?addc, fun h => ?subb⟩, fun s g gd t d => ⟨fun a b h => ?and, fun a b h => ?or,
    fun a b h => ?xor, fun a b h => ?uand, fun a b h => ?uor, fun a b h => ?uxor, fun tt a b c h => ?lop3⟩⟩
  case addc =>
    exact h.laneCarry (fun _ => rfl) rfl rfl (fun l => by rw [bitsInt]; norm_cast) (fun l => by norm_cast)
  case subb => exact h.laneCarry (fun _ => rfl) rfl rfl (fun l => rfl) (fun l => rfl)
  case and | or | xor => exact h.laneResult (fun _ => rfl) rfl rfl t.width_cases fun l => rfl
  case uand | uor | uxor => exact h.uniResult (fun _ => rfl) rfl rfl
  case lop3 =>
    exact ⟨_, h.laneResult (fun _ => rfl) rfl rfl (.inl rfl) fun l => rfl, fun l i hi => lop3Value_testBit tt _ _ _ hi⟩

/-- Settles O4: the model's shifts are those of bit vectors of the type's width, at every count. -/
theorem shiftsAndRotates : Obligations.ShiftsAndRotates := by
  unfold Obligations.ShiftsAndRotates
  intro s g gd t d
  have hpos : 0 < tyBits t := by cases t <;> decide
  refine ⟨fun a b h => ?shl, fun a b h => ?shr, fun a b h => ?sar, fun a b h => ?rot, fun a b h => ?ushl, fun a b h => ?ushr,
    fun a b h => ?usar⟩
  case shl => exact h.laneResult (fun _ => rfl) rfl rfl t.width_cases fun l => by rw [tyW_eq, shift_shl]
  case shr => exact h.laneResult (fun _ => rfl) rfl rfl t.width_cases fun l => by rw [tyW_eq, shift_shr]
  case sar => exact h.laneResult (fun _ => rfl) rfl rfl t.width_cases fun l => by rw [tyW_eq, shift_sar]
  case rot => exact h.laneResult (fun _ => rfl) rfl rfl t.width_cases fun l => by rw [tyW_eq, shift_rot hpos]
  case ushl => exact h.uniResult (fun _ => rfl) rfl (by rw [tyW_eq, shift_shl])
  case ushr => exact h.uniResult (fun _ => rfl) rfl (by rw [tyW_eq, shift_shr])
  case usar => exact h.uniResult (fun _ => rfl) rfl (by rw [tyW_eq, shift_sar])

/-- Settles O5: fields bit by bit, `prmt` byte by byte, counts and reversal over the bits of the type's width. -/
theorem fieldsBytesAndBitCounts : Obligations.FieldsBytesAndBitCounts := by
  unfold Obligations.FieldsBytesAndBitCounts
  refine ⟨fun s g gd t d => ⟨fun a b c h => ?bfe, fun a b c h => ?ubfe, fun a b c h => ?bfi, fun a b c h => ?ubfi, fun a b h => ?sext,
    fun a b c h => ?prmt⟩,
    fun s g gd t d => ⟨fun a h => ?popc, fun a h => ?upopc, fun a h => ?clz, fun a h => ?uclz, fun a h => ?brev⟩⟩
  case bfe =>
    exact h.laneResult (fun _ => rfl) rfl rfl t.width_cases fun l => extractField_eq t _ _ (g.src_lt_tyBits t a l)
  case ubfe => exact h.uniResult (fun _ => rfl) rfl (extractField_eq t _ _ (g.rdSs_lt_tyBits t a))
  case bfi =>
    exact ⟨_, h.laneResult (fun _ => rfl) rfl rfl t.width_cases fun l => by rw [tyW_eq], fun l i _ => insertField_testBit ..⟩
  case ubfi => exact ⟨_, h.uniResult (fun _ => rfl) rfl (by rw [tyW_eq]), fun i _ => insertField_testBit ..⟩
  case sext =>
    exact h.laneResult (fun _ => rfl) rfl rfl t.width_cases fun l => by rw [tyW_eq, signExtend_eq _ (g.src_lt_tyBits t a l)]
  case prmt =>
    exact ⟨_, h.laneResult (fun _ => rfl) rfl rfl (.inl rfl) fun l => rfl,
      fun l i hi => permute_byte _ (g.src_lt a 1 l) (g.src_lt b 1 l) hi⟩
  case popc => exact h.laneResult (fun _ => rfl) rfl rfl (.inl rfl) fun l => by rw [tyW_eq, popCount_eq]
  case upopc => exact h.uniResult (fun _ => rfl) rfl (by rw [tyW_eq, popCount_eq])
  case clz =>
    exact ⟨_, h.laneResult (fun _ => rfl) rfl rfl (.inl rfl) fun l => by rw [tyW_eq],
      fun l => countLeading_spec (g.src_lt_tyBits t a l)⟩
  case uclz => exact ⟨_, h.uniResult (fun _ => rfl) rfl (by rw [tyW_eq]), countLeading_spec (g.rdSs_lt_tyBits t a)⟩
  case brev => exact h.laneResult (fun _ => rfl) rfl rfl t.width_cases fun l => by rw [tyW_eq, bitReverse_eq]

/-- Settles O6: a comparison by the type's reading, a choice by its predicate, bits copied as they are. -/
theorem comparesSelectsMoves : Obligations.ComparesSelectsMoves := by
  unfold Obligations.ComparesSelectsMoves
  intro s g gd t d
  refine ⟨fun cc a b h => ?cmp, fun cc a b h => ?ucmp, fun a b u c h => ?sel, fun a b c h => ?usel, fun a h => ?mov, fun a h => ?umov,
    fun imm h => ?li, fun imm h => ?uli, fun imm h => ?ulih⟩
  case cmp =>
    exact ⟨_, h.lanePred (fun _ => rfl) rfl (h.pred_fits (r := false) (x := true) List.mem_cons_self), fun l => by
      rw [compareInt_iff, tyRead_src, tyRead_src]⟩
  case ucmp =>
    obtain ⟨g1, hdone, hq⟩ := h.uniPredResult (fun _ => rfl) rfl
    exact ⟨g1, _, hdone, hq, by rw [compareInt_iff, tyRead_rdSs, tyRead_rdSs]⟩
  case sel => exact h.laneResult (fun _ => rfl) rfl rfl t.width_cases fun l => by simp only [Bool.cond_eq_ite]
  case usel => exact h.uniResult (fun _ => rfl) rfl (Bool.cond_eq_ite ..).symm
  case mov => exact h.laneResult (fun _ => rfl) rfl rfl t.width_cases fun l => rfl
  case umov => exact h.uniResult (fun _ => rfl) rfl rfl
  case li => exact h.laneResult (fun _ => rfl) rfl rfl (.inl rfl) fun l => rfl
  case uli => exact h.uniResult (fun _ => rfl) rfl rfl
  case ulih => exact h.uniResult (fun _ => rfl) rfl (Nat.shiftLeft_eq ..).symm

end Sys2Proof.Machine
end

section
/-! Lanes as masks, and the words that read other lanes: `shfl`, `pswap`, `vote`, `ballot`, `match` (01 R8, 07 R132 to R135). -/

namespace Sys2Proof.Machine

/-! ### Lanes and masks (01 R8) -/

theorem Group.mem_active (g : Group) (e : Entry) (gd : Guard) (l : Nat) :
    l ∈ g.active e gd ↔ l < 32 ∧ e.mask.getLsbD l = true ∧ g.guardLane gd l = true := by
  simp [Group.active]

theorem State.lanes_lt {s : State} {g : Group} {gd : Guard} {l : Nat} (h : l ∈ s.lanes g gd) : l < 32 := ((g.mem_active _ _ _).1 h).1

theorem getLsbD_ofNat_two_pow {l j : Nat} (hj : j < 32) : (BitVec.ofNat 32 (2 ^ l)).getLsbD j = decide (l = j) := by
  rw [BitVec.getLsbD_ofNat, Nat.testBit_two_pow]
  simp [hj]

theorem foldl_or_getLsbD (f : Nat → BitVec 32) (j : Nat) (ls : List Nat) : ∀ m : BitVec 32,
    (ls.foldl (fun m l => m ||| f l) m).getLsbD j = (m.getLsbD j || ls.any fun l => (f l).getLsbD j) := by
  induction ls with
  | nil => simp
  | cons l ls ih => intro m; simp [ih, Bool.or_assoc]

/-- A lane is in a mask exactly if it is in the list that the mask is of. -/
theorem maskOf_getLsbD (ls : List Nat) {j : Nat} (hj : j < 32) : (maskOf ls).getLsbD j = true ↔ j ∈ ls := by
  rw [maskOf, foldl_or_getLsbD]
  simp only [getLsbD_ofNat_two_pow hj]
  simp

theorem maskOf_testBit (ls : List Nat) {j : Nat} (hj : j < 32) : (maskOf ls).toNat.testBit j = true ↔ j ∈ ls := by
  rw [BitVec.testBit_toNat, maskOf_getLsbD ls hj]

theorem maskOf_eq_zero {ls : List Nat} (hls : ∀ l ∈ ls, l < 32) : maskOf ls = 0 ↔ ls = [] := by
  constructor
  · intro h
    refine List.eq_nil_iff_forall_not_mem.2 fun l hl => ?_
    have hbit := (maskOf_getLsbD ls (hls l hl)).2 hl
    simp [h] at hbit
  · rintro rfl
    rfl

/-! ### Words over `crossWrite` and votes -/

section
variable {i : Instr} {s : State} {g : Group} {gd : Guard} {d : Reg}

/-- A cross-lane word whose first operand is its vector destination writes there what its function gives. -/
theorem Ready.crossResult {w : Nat} {reads : Bool} {os : List Opnd} {f : Group → List Nat → Nat → Nat} {f' : Nat → Nat}
    (h : Ready i s g) (ht : ∀ a, targetFault i a = none) (hx : exec i s = Sys2Proof.Machine.crossWrite i gd d w s f)
    (ho : i.operands = ⟨.vec, d.toNat, w, reads, true⟩ :: os) (hw : w = 1 ∨ w = 2 ∨ w = 4) (hf : ∀ l, f g (s.lanes g gd) l = f' l) :
    LaneWrites i gd d w s g f' :=
  funext hf ▸ h.crossWrite ht hx (h.vec_fits (ho ▸ List.mem_cons_self) hw)

/-- A lane word that writes one outcome, of all its lanes, to a predicate in each of them. -/
theorem Ready.crossPred {f : Group → List Nat → Bool} (h : Ready i s g) (ht : ∀ a, targetFault i a = none)
    (hx : exec i s = lanewise i gd s fun g _ ls => .group s (ls.foldl (fun acc l => acc.wrP l d.toNat (f g ls)) g)) (hd : d.toNat < 16) :
    LanePredWrites i gd d s g fun _ => f g (s.lanes g gd) := by
  have hw := Group.foldl_wrP (fun _ => f g (s.lanes g gd)) d.toNat hd (s.lanes g gd) g
  exact ⟨_, ⟨hx.trans (h.issue_done (ht _) rfl (congrArg Entry.pos (hw.ent s.cur.entry))), fun a => by simp⟩, hw⟩

end

theorem exec_shfl (gd : Guard) (t : IntTy) (mode : ShflMode) (d : Reg) (a b : Src) (s : State) :
    exec (.shfl gd t mode d a b) s = execShfl gd t mode d a b s := rfl

theorem exec_pswap (gd : Guard) (t : IntTy) (d : Reg) (a b : Src) (s : State) : exec (.pswap gd t d a b) s = execPswap gd t d a b s := rfl

theorem exec_ballot (gd : Guard) (d a : Reg) (s : State) : exec (.ballot gd d a) s = execBallot gd d a s := rfl

theorem exec_matchl (gd : Guard) (t : IntTy) (d : Reg) (a : Src) (s : State) : exec (.matchl gd t d a) s = execMatchl gd t d a s := rfl

/-- The partner of `pswap`: the lanes of a pair differ in bit 0. -/
theorem pair_lane (l : Nat) : (if l % 2 = 0 then l + 1 else l - 1) = l ^^^ 1 := by
  split
  case isTrue h => rw [Nat.xor_one_of_even (Nat.even_iff.2 h)]
  case isFalse h => rw [Nat.xor_one_of_odd (Nat.odd_iff.2 (Nat.mod_two_ne_zero.1 h))]

/-- Settles O14: each word writes a function of the participating lanes, in every one of them. -/
theorem crossLaneExchangeAndReports : Obligations.CrossLaneExchangeAndReports := by
  unfold Obligations.CrossLaneExchangeAndReports
  intro s g gd t d
  refine ⟨fun mode a b h => ?shfl, fun a b h => ?pswap, fun mode a h => ?vote, fun a h => ?ballot, fun a h => ?matchl⟩
  case shfl =>
    refine h.crossResult (fun _ => rfl) (exec_shfl ..) rfl t.width_cases fun l => ?_
    cases mode <;> simp [shflSource, bitsOf]
  case pswap =>
    refine h.crossResult (fun _ => rfl) (exec_pswap ..) rfl t.width_cases fun l => ?_
    simp [pair_lane]
  case vote =>
    have hd : d.toNat < 16 := h.pred_fits (r := false) (x := true) List.mem_cons_self
    have hw := h.crossPred (d := d) (f := fun g ls => voteOf mode ls.length (ls.filter fun l => g.rdP l a.toNat).length) (fun _ => rfl) rfl hd
    cases mode <;> simpa [voteOf, beq_eq_decide, Bool.decide_or, ← List.countP_eq_length_filter] using hw
  case ballot =>
    refine ⟨_, (maskOf _).isLt, h.crossResult (fun _ => rfl) (exec_ballot ..) rfl (.inl rfl) fun _ => rfl, fun l hl => ?_⟩
    rw [maskOf_testBit _ hl, List.mem_filter]
  case matchl =>
    refine ⟨_, h.crossResult (fun _ => rfl) (exec_matchl ..) rfl (.inl rfl) fun _ => rfl, fun l m hm => ?_⟩
    rw [maskOf_testBit _ hm, List.mem_filter, beq_iff_eq]

end Sys2Proof.Machine
end

section
/-! Integer reductions of a list of terms (07 R136): each operation step by step against the reduction of the whole list. -/

namespace Sys2Proof.Machine

/-! ### Folds that choose or combine -/

/-- A fold that keeps, of the accumulator and the next element, one with the lower key ends with an element of lowest key. -/
theorem foldl_least {α β : Type} [Preorder β] {key : α → β} {P : α → Prop} {step : α → α → α}
    (hstep : ∀ a x, P a → P x → (step a x = x ∧ key x ≤ key a) ∨ (step a x = a ∧ key a ≤ key x)) :
    ∀ (xs : List α) (a : α), P a → (∀ x ∈ xs, P x) →
      xs.foldl step a ∈ a :: xs ∧ ∀ x ∈ a :: xs, key (xs.foldl step a) ≤ key x := by
  intro xs
  induction xs with
  | nil => intro a _ _; simp
  | cons y ys ih =>
    intro a ha hP
    have hy : P y := hP y List.mem_cons_self
    have hys : ∀ x ∈ ys, P x := fun x hx => hP x (List.mem_cons_of_mem _ hx)
    rcases hstep a y ha hy with ⟨e, hle⟩ | ⟨e, hle⟩
    · obtain ⟨hmem, hmin⟩ := ih y hy hys
      rw [List.foldl_cons, e]
      refine ⟨List.mem_cons_of_mem _ hmem, fun x hx => ?_⟩
      rcases List.mem_cons.1 hx with rfl | hx
      · exact (hmin y List.mem_cons_self).trans hle
      · exact hmin x hx
    · obtain ⟨hmem, hmin⟩ := ih a ha hys
      rw [List.foldl_cons, e]
      refine ⟨?_, fun x hx => ?_⟩
      · exact List.mem_cons.2 ((List.mem_cons.1 hmem).imp_right (List.mem_cons_of_mem _))
      · rcases List.mem_cons.1 hx with rfl | hx
        · exact hmin x List.mem_cons_self
        · rcases List.mem_cons.1 hx with rfl | hx
          · exact (hmin a List.mem_cons_self).trans hle
          · exact hmin x (List.mem_cons_of_mem _ hx)

theorem foldl_add_mod (n : Nat) (xs : List Nat) : ∀ a, a < n → xs.foldl (fun acc x => (acc + x) % n) a = (a + xs.sum) % n := by
  induction xs with
  | nil => intro a ha; simp [Nat.mod_eq_of_lt ha]
  | cons x xs ih => intro a ha; simp [ih _ (Nat.mod_lt _ (by omega)), Nat.add_assoc]

/-- A fold bit by bit, of an operation that acts on each bit alone. -/
theorem foldl_testBit {f : Nat → Nat → Nat} {b : Bool → Bool → Bool} {i : Nat}
    (h : ∀ x y, (f x y).testBit i = b (x.testBit i) (y.testBit i)) (xs : List Nat) :
    ∀ a, (xs.foldl f a).testBit i = (xs.map (·.testBit i)).foldl b (a.testBit i) := by
  induction xs with
  | nil => intro a; rfl
  | cons x xs ih => intro a; rw [List.foldl_cons, ih, h]; rfl

theorem foldl_and_bool (bs : List Bool) : ∀ a, bs.foldl (· && ·) a = (a && bs.all id) := by
  induction bs with
  | nil => simp
  | cons b bs ih => intro a; simp [ih, Bool.and_assoc]

theorem foldl_or_bool (bs : List Bool) : ∀ a, bs.foldl (· || ·) a = (a || bs.any id) := by
  induction bs with
  | nil => simp
  | cons b bs ih => intro a; simp [ih, Bool.or_assoc]

theorem foldl_xor_bool (bs : List Bool) : ∀ a, bs.foldl xor a = xor a (decide (bs.countP id % 2 = 1)) := by
  induction bs with
  | nil => simp
  | cons b bs ih =>
    intro a
    rw [List.foldl_cons, ih]
    cases b
    case false => simp
    case true =>
      have hodd : decide (((true :: bs).countP id) % 2 = 1) = !decide (bs.countP id % 2 = 1) := by
        rw [← decide_not, decide_eq_decide, List.countP_cons_of_pos (by rfl)]
        omega
      rw [hodd, Bool.xor_true, Bool.not_xor, Bool.xor_not]

/-! ### The readings and identities of a type (07 R136, log entry 12) -/

theorem redRead_le_identity (t : RedTy) (h : redFmt t = none) (x : Nat) :
    redRead t x ≤ redRead t (foldIdentity .min t % 2 ^ redW t) ∧ redRead t (foldIdentity .max t % 2 ^ redW t) ≤ redRead t x := by
  cases t
  case f32 | f64 => simp [redFmt] at h
  all_goals
    simp [redRead, redSigned, redW, foldIdentity, redFmt, signExt]
    omega

/-! ### The operations -/

section
variable {t : RedTy} (h : redFmt t = none) (xs : List Nat)
include h

theorem reduceInt_add : reduceInt .add t xs = xs.sum % 2 ^ redW t := by
  have hstep : (fun acc x => foldNew .add t acc x) = fun acc x => (acc + x) % 2 ^ redW t := by
    funext acc x
    simp [foldNew, atomicNew, h]
  have hid : foldIdentity .add t = 0 := by simp [foldIdentity, h]
  simp [reduceInt, hstep, hid, foldl_add_mod]

theorem reduceInt_and {i : Nat} (hi : i < redW t) : (reduceInt .and t xs).testBit i = xs.all (·.testBit i) := by
  have hid : (foldIdentity .and t % 2 ^ redW t).testBit i = true := by
    simp [foldIdentity, h, hi, Nat.testBit_two_pow_sub_one]
  rw [reduceInt, foldl_testBit (b := (· && ·)) (fun x y => by simp [foldNew, atomicNew, Nat.testBit_mod_two_pow, hi]), foldl_and_bool, hid]
  simp

theorem reduceInt_or {i : Nat} (hi : i < redW t) : (reduceInt .or t xs).testBit i = xs.any (·.testBit i) := by
  have hid : (foldIdentity .or t % 2 ^ redW t).testBit i = false := by simp [foldIdentity, h]
  rw [reduceInt, foldl_testBit (b := (· || ·)) (fun x y => by simp [foldNew, atomicNew, Nat.testBit_mod_two_pow, hi]), foldl_or_bool, hid]
  simp

theorem reduceInt_xor {i : Nat} (hi : i < redW t) :
    (reduceInt .xor t xs).testBit i = decide ((xs.countP fun x => x.testBit i) % 2 = 1) := by
  have hid : (foldIdentity .xor t % 2 ^ redW t).testBit i = false := by simp [foldIdentity, h]
  rw [reduceInt, foldl_testBit (b := xor) (fun x y => by simp [foldNew, atomicNew, Nat.testBit_mod_two_pow, hi]), foldl_xor_bool, hid]
  simp [List.countP_map]

/-- The minimum is among the identity and the terms, and at or below each of them. -/
theorem reduceInt_min (hxs : ∀ x ∈ xs, x < 2 ^ redW t) :
    reduceInt .min t xs ∈ foldIdentity .min t % 2 ^ redW t :: xs ∧
      ∀ x ∈ foldIdentity .min t % 2 ^ redW t :: xs, redRead t (reduceInt .min t xs) ≤ redRead t x := by
  refine foldl_least (key := redRead t) (P := (· < 2 ^ redW t)) (fun a x ha hx => ?_) xs _ (Nat.mod_lt _ (Nat.two_pow_pos _)) hxs
  simp only [foldNew, atomicNew, h, Nat.mod_eq_of_lt ha, Nat.mod_eq_of_lt hx]
  split
  case isTrue hlt => exact .inl ⟨rfl, hlt.le⟩
  case isFalse hle => exact .inr ⟨rfl, not_lt.1 hle⟩

theorem reduceInt_max (hxs : ∀ x ∈ xs, x < 2 ^ redW t) :
    reduceInt .max t xs ∈ foldIdentity .max t % 2 ^ redW t :: xs ∧
      ∀ x ∈ foldIdentity .max t % 2 ^ redW t :: xs, redRead t x ≤ redRead t (reduceInt .max t xs) := by
  refine foldl_least (key := fun x => OrderDual.toDual (redRead t x)) (P := (· < 2 ^ redW t)) (fun a x ha hx => ?_) xs _
    (Nat.mod_lt _ (Nat.two_pow_pos _)) hxs
  simp only [foldNew, atomicNew, h, Nat.mod_eq_of_lt ha, Nat.mod_eq_of_lt hx]
  split
  case isTrue hlt => exact .inl ⟨rfl, hlt.le⟩
  case isFalse hle => exact .inr ⟨rfl, not_lt.1 hle⟩

/-- Each step of a reduction ends in the width of the type. -/
theorem foldNew_lt (op : RedOp) (acc x : Nat) : foldNew op t acc x < 2 ^ redW t := by
  have hmod (y : Nat) : y % 2 ^ redW t < 2 ^ redW t := Nat.mod_lt _ (Nat.two_pow_pos _)
  cases op
  case min | max => simp only [foldNew, atomicNew, h]; split <;> exact hmod _
  all_goals simp only [foldNew, atomicNew, h, hmod]

theorem reduceInt_lt (op : RedOp) : reduceInt op t xs < 2 ^ redW t := by
  rcases List.eq_nil_or_concat' xs with rfl | ⟨ys, y, rfl⟩
  · exact Nat.mod_lt _ (Nat.two_pow_pos _)
  · rw [reduceInt, List.foldl_append]
    exact foldNew_lt h op _ y

/-- An integer reduction is the reduction of 07 R136 of its terms. -/
theorem reduceInt_rule (op : RedOp) (m : RM) (hxs : ∀ x ∈ xs, x < 2 ^ redW t) : ReduceRule op t m xs (reduceInt op t xs, 0) := by
  simp only [ReduceRule, h]
  refine ⟨trivial, reduceInt_lt h xs op, ?_⟩
  cases op
  case add => exact reduceInt_add h xs
  case and => intro i hi; simp [reduceInt_and h xs hi]
  case or => intro i hi; simp [reduceInt_or h xs hi]
  case xor => intro i hi; simp [reduceInt_xor h xs hi]
  case min =>
    obtain ⟨hmem, hmin⟩ := reduceInt_min h xs hxs
    refine ⟨fun x hx => hmin x (List.mem_cons_of_mem _ hx), fun hne => ?_, fun he y => ?_⟩
    · rcases List.mem_cons.1 hmem with hid | hin
      · obtain ⟨x, hx⟩ := List.exists_mem_of_ne_nil xs hne
        exact ⟨x, hx, le_antisymm (hmin x (List.mem_cons_of_mem _ hx)) (hid ▸ (redRead_le_identity t h x).1)⟩
      · exact ⟨_, hin, rfl⟩
    · subst he
      exact (redRead_le_identity t h y).1
  case max =>
    obtain ⟨hmem, hmax⟩ := reduceInt_max h xs hxs
    refine ⟨fun x hx => hmax x (List.mem_cons_of_mem _ hx), fun hne => ?_, fun he y => ?_⟩
    · rcases List.mem_cons.1 hmem with hid | hin
      · obtain ⟨x, hx⟩ := List.exists_mem_of_ne_nil xs hne
        exact ⟨x, hx, le_antisymm (hid ▸ (redRead_le_identity t h x).2) (hmax x (List.mem_cons_of_mem _ hx))⟩
      · exact ⟨_, hin, rfl⟩
    · subst he
      exact (redRead_le_identity t h y).2

end

end Sys2Proof.Machine
end

section
/-! Floating-point reductions of a list of terms (07 R137), and `lscan` and `lred` over both kinds (07 R136, R137). -/

namespace Sys2Proof.Machine

/-! ### Finite values over a common exponent -/

theorem foldl_lower_le (ts : List FVal) : ∀ a : Int,
    ts.foldl (fun m t => if t.exp < m then t.exp else m) a ≤ a ∧ ∀ t ∈ ts, ts.foldl (fun m t => if t.exp < m then t.exp else m) a ≤ t.exp := by
  induction ts with
  | nil => intro a; simp
  | cons t ts ih =>
    intro a
    obtain ⟨hacc, hall⟩ := ih (if t.exp < a then t.exp else a)
    have hmin : (if t.exp < a then t.exp else a) ≤ a ∧ (if t.exp < a then t.exp else a) ≤ t.exp := by split <;> omega
    exact ⟨hacc.trans hmin.1, List.forall_mem_cons.2 ⟨hacc.trans hmin.2, hall⟩⟩

theorem lowExp_le {ts : List FVal} {v : FVal} (h : v ∈ ts) : lowExp ts ≤ v.exp := (foldl_lower_le ts _).2 v h

/-- A value in units of a power at or below its own. -/
theorem FVal.scaled_rat (v : FVal) {e : Int} (h : e ≤ v.exp) : (v.scaled e : ℚ) * 2 ^ e = v.rat := by
  cases v with
  | nan | inf => simp [FVal.scaled, FVal.rat]
  | fin n m ex =>
    have he : ((ex - e).toNat : Int) = ex - e := Int.toNat_of_nonneg (by simpa [FVal.exp] using h)
    have hpow : (2 : ℚ) ^ (ex - e).toNat * 2 ^ e = 2 ^ ex := by
      rw [← zpow_natCast, he, ← zpow_add₀ (by norm_num), Int.sub_add_cancel]
    simp only [FVal.scaled, FVal.rat]
    push_cast
    rw [← hpow]
    ring

theorem FVal.ofScaled_rat (x e : Int) : (FVal.ofScaled x e).rat = x * 2 ^ e := by
  simp only [FVal.ofScaled, FVal.rat, Nat.cast_natAbs, decide_eq_true_eq]
  split
  case isTrue h => rw [abs_of_neg h]; push_cast; ring
  case isFalse h => rw [abs_of_nonneg (not_lt.1 h)]; ring

theorem foldl_scaled (e : Int) (vs : List FVal) : ∀ a : Int, vs.foldl (fun a v => a + v.scaled e) a = a + (vs.map (·.scaled e)).sum := by
  induction vs with
  | nil => simp
  | cons v vs ih => intro a; simp [ih, Int.add_assoc]

theorem sum_scaled {e : Int} {vs : List FVal} (h : ∀ v ∈ vs, e ≤ v.exp) :
    (((vs.map (·.scaled e)).sum : Int) : ℚ) * 2 ^ e = (vs.map FVal.rat).sum := by
  induction vs with
  | nil => simp
  | cons v vs ih =>
    rw [List.forall_mem_cons] at h
    simp only [List.map_cons, List.sum_cons]
    rw [Int.cast_add, add_mul, v.scaled_rat h.1, ih h.2]

/-- The sum that the model takes, and whether it is zero, are those of the rational values. -/
theorem lowExp_sum (vs : List FVal) :
    ((vs.foldl (fun a v => a + v.scaled (lowExp vs)) (0 : Int) : Int) : ℚ) * 2 ^ lowExp vs = (vs.map FVal.rat).sum := by
  rw [foldl_scaled, Int.zero_add, sum_scaled fun v hv => lowExp_le hv]

/-! ### The order of 09 R167 -/

/-- A number's place in the order of 09 R167: the infinities at the ends, between them by value, −0 below +0. -/
def FVal.key : FVal → ℤ ×ₗ ℚ ×ₗ ℕ
  | .inf n => toLex (if n then -1 else 1, toLex (0, 0))
  | v => toLex (0, toLex (v.rat, if v.isZero && v.neg then 0 else 1))

theorem FVal.isZero_iff {v : FVal} (hn : v.isNan = false) (hi : v.isInf = false) : v.isZero = true ↔ v.rat = 0 := by
  cases v with
  | nan => cases hn
  | inf => cases hi
  | fin n m e => cases m <;> cases n <;> simp [FVal.isZero, FVal.rat, zpow_ne_zero, Nat.cast_add_one_ne_zero]

theorem zeroRank_lt_iff (p q : Bool) : (if p = true then 0 else 1) < (if q = true then 0 else 1) ↔ p = true ∧ q = false := by
  cases p <;> cases q <;> simp

/-- `Below` is the order of the keys. -/
theorem FVal.below_iff_key {x y : FVal} (hx : x.isNan = false) (hy : y.isNan = false) : Below x y ↔ x.key < y.key := by
  cases x with
  | nan => cases hx
  | inf a =>
    cases y with
    | nan => cases hy
    | inf b => cases a <;> cases b <;> simp [Below, FVal.key, Prod.Lex.toLex_lt_toLex]
    | fin => cases a <;> simp [Below, FVal.key, Prod.Lex.toLex_lt_toLex]
  | fin n m e =>
    cases y with
    | nan => cases hy
    | inf b => cases b <;> simp [Below, FVal.key, Prod.Lex.toLex_lt_toLex]
    | fin n' m' e' =>
      have hzx := FVal.isZero_iff (v := .fin n m e) rfl rfl
      have hzy := FVal.isZero_iff (v := .fin n' m' e') rfl rfl
      simp only [Below, FVal.key, Prod.Lex.toLex_lt_toLex, lt_self_iff_false, true_and, false_or]
      refine or_congr_right ⟨fun ⟨hx0, hy0, hneg, hpos⟩ => ?_, fun ⟨heq, hlt⟩ => ?_⟩
      · exact ⟨(hzx.1 hx0).trans (hzy.1 hy0).symm, by simp [hx0, hy0, hneg, hpos]⟩
      · obtain ⟨hx0, hy0⟩ := (zeroRank_lt_iff _ _).1 hlt
        rw [Bool.and_eq_true] at hx0
        have hyz := hzy.2 (heq ▸ hzx.1 hx0.1)
        rw [hyz, Bool.true_and] at hy0
        exact ⟨hx0.1, hyz, hx0.2, hy0⟩

theorem FVal.cmp_fin_lt_iff (n n' : Bool) (m m' : Nat) (e e' : Int) :
    (FVal.fin n m e).cmp (.fin n' m' e') = .lt ↔ (FVal.fin n m e).rat < (FVal.fin n' m' e').rat := by
  have hx := FVal.scaled_rat (.fin n m e) (lowExp_le (ts := [.fin n m e, .fin n' m' e']) List.mem_cons_self)
  have hy := FVal.scaled_rat (.fin n' m' e') (lowExp_le (ts := [.fin n m e, .fin n' m' e']) (by simp))
  rw [← hx, ← hy, mul_lt_mul_iff_left₀ (by positivity), Int.cast_lt]
  change (if _ < _ then Ordering.lt else if _ = _ then .eq else .gt) = .lt ↔ _
  split_ifs with hlt <;> simp [hlt]

/-- The model's order is that of 09 R167. -/
theorem FVal.below_iff {x y : FVal} (hx : x.isNan = false) (hy : y.isNan = false) : x.below y = true ↔ Below x y := by
  cases x with
  | nan => cases hx
  | inf a =>
    cases y with
    | nan => cases hy
    | inf b => cases a <;> cases b <;> simp [Below, FVal.below, FVal.cmp, FVal.isZero]
    | fin => cases a <;> simp [Below, FVal.below, FVal.cmp, FVal.isZero]
  | fin n m e =>
    cases y with
    | nan => cases hy
    | inf b => cases b <;> simp [Below, FVal.below, FVal.cmp, FVal.isZero]
    | fin n' m' e' => simp [Below, FVal.below, FVal.cmp_fin_lt_iff, and_assoc]

theorem FVal.below_iff_lt_key {x y : FVal} (hx : x.isNan = false) (hy : y.isNan = false) : x.below y = true ↔ x.key < y.key :=
  (FVal.below_iff hx hy).trans (FVal.below_iff_key hx hy)

/-! ### Sums (07 R137) -/

theorem any_inf_iff (vs : List FVal) (n : Bool) : (vs.any fun v => v.isInf && (v.neg == n)) = true ↔ ∃ x ∈ vs, x = .inf n := by
  rw [List.any_eq_true]
  refine exists_congr fun v => and_congr_right fun _ => ?_
  cases v <;> simp [FVal.isInf, FVal.neg]

theorem any_posInf_iff (vs : List FVal) : (vs.any fun v => v.isInf && !v.neg) = true ↔ ∃ x ∈ vs, x = .inf false := by
  rw [← any_inf_iff]
  simp

theorem any_negInf_iff (vs : List FVal) : (vs.any fun v => v.isInf && v.neg) = true ↔ ∃ x ∈ vs, x = .inf true := by
  rw [← any_inf_iff]
  simp

/-- The exact sum of the terms, rounded once. -/
theorem sum_roundsOnce (f : Fmt) (m : RM) (z : Bool) (vs : List FVal) :
    RoundsOnce f m (vs.map FVal.rat).sum z (if vs.foldl (fun a v => a + v.scaled (lowExp vs)) (0 : Int) = 0 then (f.signed z 0, 0)
      else f.roundTo m (.ofScaled (vs.foldl (fun a v => a + v.scaled (lowExp vs)) (0 : Int)) (lowExp vs))) := by
  have hsum := lowExp_sum vs
  generalize vs.foldl (fun a v => a + v.scaled (lowExp vs)) (0 : Int) = x at hsum
  have hzero : (vs.map FVal.rat).sum = 0 ↔ x = 0 := by
    rw [← hsum, mul_eq_zero, Int.cast_eq_zero, or_iff_left (zpow_ne_zero _ (by norm_num))]
  refine ⟨fun hq => if_pos (hzero.1 hq), fun hq => ⟨decide (x < 0), x.natAbs, lowExp vs, ?_, if_neg (mt hzero.2 hq)⟩⟩
  rw [← hsum, ← FVal.ofScaled_rat, FVal.ofScaled]

section
variable {t : RedTy} {ty : FTy} (h : redFmt t = some ty) (m : RM) (xs : List Nat)
include h

/-- A sum: opposite infinities first, then a NaN, then an infinity, then the exact sum. -/
theorem reduceFloat_add : ReduceRule .add t m xs (reduceFloat (fmtOf ty) m .add xs) := by
  have hround := sum_roundsOnce (fmtOf ty) m (m.mode == .rm || (xs.map (fmtOf ty).decode).all fun v => v.isZero && v.neg)
    (xs.map (fmtOf ty).decode)
  simp only [ReduceRule, h, reduceFloat, ← any_posInf_iff, ← any_negInf_iff, List.isEmpty_iff, List.map_eq_nil_iff, Invalid]
  by_cases hnil : xs = []
  · simp [hnil]
  rw [if_neg hnil, if_neg hnil]
  cases (xs.map (fmtOf ty).decode).any fun v => v.isInf && !v.neg <;> cases (xs.map (fmtOf ty).decode).any fun v => v.isInf && v.neg
  case false.false =>
    simp only [Bool.false_eq_true, Bool.and_self, Bool.or_self, and_self, if_false]
    split
    · rfl
    · exact hround
  case true.true => rfl
  all_goals
    simp only [Bool.false_eq_true, Bool.and_true, Bool.and_false, Bool.or_true, Bool.or_false, and_true, and_false, if_false, if_true]
    split
    · rfl
    · rfl

end

/-! ### Choices (07 R137) -/

/-- The terms that are numbers. -/
abbrev Fmt.numbers (f : Fmt) (xs : List Nat) : List Nat := xs.filter fun x => !(f.decode x).isNan

theorem Fmt.mem_numbers (f : Fmt) (xs : List Nat) (x : Nat) : x ∈ f.numbers xs ↔ x ∈ xs ∧ (f.decode x).isNan = false := by
  simp [Fmt.numbers]

theorem Fmt.numbers_eq_nil (f : Fmt) (xs : List Nat) : f.numbers xs = [] ↔ (xs.map f.decode).all FVal.isNan = true := by
  simp [Fmt.numbers]

/-- The number that a minimum keeps: no other is below it. -/
theorem foldl_below_least (f : Fmt) {x : Nat} {rest : List Nat} (hnum : ∀ y ∈ x :: rest, (f.decode y).isNan = false) :
    let r := rest.foldl (fun acc y => if (f.decode y).below (f.decode acc) then y else acc) x
    r ∈ x :: rest ∧ ∀ y ∈ x :: rest, ¬ Below (f.decode y) (f.decode r) := by
  obtain ⟨hx, hrest⟩ := List.forall_mem_cons.1 hnum
  have hleast := foldl_least (key := fun y => (f.decode y).key) (P := fun y => (f.decode y).isNan = false)
    (step := fun acc y => if (f.decode y).below (f.decode acc) then y else acc) (fun a y ha hy => by
      simp only [FVal.below_iff_lt_key hy ha]
      split
      case isTrue hlt => exact .inl ⟨rfl, hlt.le⟩
      case isFalse hle => exact .inr ⟨rfl, not_lt.1 hle⟩) rest x hx hrest
  exact ⟨hleast.1, fun y hy => by
    rw [FVal.below_iff_key (hnum y hy) (hnum _ hleast.1)]
    exact (hleast.2 y hy).not_gt⟩

/-- The number that a maximum keeps: it is below no other. -/
theorem foldl_below_greatest (f : Fmt) {x : Nat} {rest : List Nat} (hnum : ∀ y ∈ x :: rest, (f.decode y).isNan = false) :
    let r := rest.foldl (fun acc y => if (f.decode acc).below (f.decode y) then y else acc) x
    r ∈ x :: rest ∧ ∀ y ∈ x :: rest, ¬ Below (f.decode r) (f.decode y) := by
  obtain ⟨hx, hrest⟩ := List.forall_mem_cons.1 hnum
  have hleast := foldl_least (key := fun y => OrderDual.toDual (f.decode y).key) (P := fun y => (f.decode y).isNan = false)
    (step := fun acc y => if (f.decode acc).below (f.decode y) then y else acc) (fun a y ha hy => by
      simp only [FVal.below_iff_lt_key ha hy]
      split
      case isTrue hlt => exact .inl ⟨rfl, hlt.le⟩
      case isFalse hle => exact .inr ⟨rfl, not_lt.1 hle⟩) rest x hx hrest
  exact ⟨hleast.1, fun y hy => by
    rw [FVal.below_iff_key (hnum _ hleast.1) (hnum y hy)]
    exact (hleast.2 y hy).not_gt⟩

/-- A choice among terms, `best` being its choice among numbers: without a term the identity `id`, with NaNs alone the canonical NaN. -/
def Chooses (f : Fmt) (id : Nat) (xs : List Nat) (r : FRes) (best : Nat → Nat → Prop) : Prop :=
  r.2 = (if (xs.map f.decode).any FVal.isSnan then NV else 0) ∧
    if xs = [] then r.1 = id
    else if (xs.map f.decode).all FVal.isNan then r.1 = f.canon
    else r.1 ∈ xs ∧ (f.decode r.1).isNan = false ∧ ∀ x ∈ xs, (f.decode x).isNan = false → best r.1 x

theorem reduceFloat_of_no_number (f : Fmt) (m : RM) {op : RedOp} (hop : op ≠ .add) {xs : List Nat} (h : f.numbers xs = []) :
    reduceFloat f m op xs =
      (if xs = [] then f.signed (op != .min) f.infEnc else f.canon, if (xs.map f.decode).any FVal.isSnan then NV else 0) := by
  cases op
  case add => exact absurd rfl hop
  all_goals
    simp only [reduceFloat, h]
    by_cases hnil : xs = []
    · simp [hnil, bne]
    · simp [hnil]

theorem reduceFloat_of_numbers (f : Fmt) (m : RM) {op : RedOp} (hop : op ≠ .add) {xs rest : List Nat} {x : Nat} (h : f.numbers xs = x :: rest) :
    reduceFloat f m op xs =
      (if op = .min then rest.foldl (fun acc y => if (f.decode y).below (f.decode acc) then y else acc) x
        else rest.foldl (fun acc y => if (f.decode acc).below (f.decode y) then y else acc) x,
        if (xs.map f.decode).any FVal.isSnan then NV else 0) := by
  cases op
  case add => exact absurd rfl hop
  all_goals
    simp only [reduceFloat, h]
    rfl

/-- The terms that are numbers choose; without one the result is the identity or the canonical NaN. -/
theorem reduceFloat_chooses (f : Fmt) (m : RM) {op : RedOp} (hop : op ≠ .add) (xs : List Nat) :
    Chooses f (f.signed (op != .min) f.infEnc) xs (reduceFloat f m op xs) fun r x =>
      if op = .min then ¬ Below (f.decode x) (f.decode r) else ¬ Below (f.decode r) (f.decode x) := by
  rcases hnum : f.numbers xs with _ | ⟨x, rest⟩
  case nil =>
    rw [reduceFloat_of_no_number f m hop hnum]
    refine ⟨rfl, ?_⟩
    rw [if_pos ((f.numbers_eq_nil xs).1 hnum)]
    split <;> rfl
  case cons =>
    have hne : xs ≠ [] := by rintro rfl; simp at hnum
    have hnan : ¬ (xs.map f.decode).all FVal.isNan = true := fun hall => by simp [(f.numbers_eq_nil xs).2 hall] at hnum
    have hnumber : ∀ y ∈ x :: rest, (f.decode y).isNan = false := fun y hy => ((f.mem_numbers xs y).1 (hnum ▸ hy)).2
    rw [reduceFloat_of_numbers f m hop hnum]
    refine ⟨rfl, ?_⟩
    rw [if_neg hne, if_neg hnan]
    simp only [← and_assoc, ← f.mem_numbers, hnum]
    split
    case isTrue =>
      obtain ⟨hmem, hbest⟩ := foldl_below_least f hnumber
      exact ⟨hmem, fun y hy hy' => hbest y (hnum ▸ (f.mem_numbers xs y).2 ⟨hy, hy'⟩)⟩
    case isFalse =>
      obtain ⟨hmem, hbest⟩ := foldl_below_greatest f hnumber
      exact ⟨hmem, fun y hy hy' => hbest y (hnum ▸ (f.mem_numbers xs y).2 ⟨hy, hy'⟩)⟩

/-- A floating-point reduction is the reduction of 07 R137 of its terms. -/
theorem reduceFloat_rule {t : RedTy} {ty : FTy} (h : redFmt t = some ty) (op : RedOp) (m : RM) (xs : List Nat) :
    ReduceRule op t m xs (reduceFloat (fmtOf ty) m op xs) := by
  cases op
  case add => exact reduceFloat_add h m xs
  all_goals
    simp only [ReduceRule, h]
    exact reduceFloat_chooses (fmtOf ty) m (by decide) xs

/-! ### `lscan` and `lred` (07 R136, R137) -/

theorem reduceOf_rule (op : RedOp) (t : RedTy) (fmt : Word64) (xs : List Nat) (hxs : ∀ x ∈ xs, x < 2 ^ redW t) :
    ReduceRule op t (roundOf fmt .dyn false) xs (reduceOf op t fmt xs) := by
  rw [reduceOf]
  cases h : redFmt t with
  | none => exact reduceInt_rule h xs op _ hxs
  | some ty => exact reduceFloat_rule h op _ xs

theorem redW_eq (t : RedTy) : redW t = 32 * t.width := by cases t <;> rfl

theorem exec_lscan (gd : Guard) (op : RedOp) (t : RedTy) (excl : Bool) (d : Reg) (a : Src) (s : State) :
    exec (.lscan gd op t excl d a) s = execLscan gd op t excl d a s := rfl

theorem exec_lred (gd : Guard) (op : RedOp) (t : RedTy) (d : Reg) (a : Src) (s : State) :
    exec (.lred gd op t d a) s = execLred gd op t d a s := rfl

/-- A word over `reduceLanes` gives each active lane the reduction of the active lanes that it covers. -/
theorem Ready.reduceLanes {i : Instr} {s : State} {g : Group} {gd : Guard} {op : RedOp} {t : RedTy} {d : Reg} {a : Src}
    {cover : Nat → Nat → Bool} {reads : Bool} {os : List Opnd} (h : Ready i s g) (ht : ∀ a, targetFault i a = none)
    (hx : exec i s = Sys2Proof.Machine.reduceLanes i gd op t d a s cover) (ho : i.operands = ⟨.vec, d.toNat, t.width, reads, true⟩ :: os) :
    ∃ x, FloatWrites i gd d t.width s g x ∧
      ∀ l, ReduceRule op t (s.rounding g .dyn false) (((s.lanes g gd).filter (cover l)).map fun m => g.src a t.width m) (x l) := by
  have hx' : exec i s = Sys2Proof.Machine.laneFloat i gd s fun g e l => oneOut d t.width (reduceOf op t e.fmt
      (((g.active e gd).filter (cover l)).map fun m => g.src a t.width m % 2 ^ redW t)) := hx
  refine ⟨_, h.laneFloat ht hx' (h.vec_fits (ho ▸ List.mem_cons_self) t.width_cases), fun l => ?_⟩
  have hterm (m : Nat) : g.src a t.width m % 2 ^ redW t = g.src a t.width m := by
    rw [redW_eq]
    exact Nat.mod_eq_of_lt (g.src_lt a t.width m)
  simp only [hterm]
  refine reduceOf_rule op t (s.frag g).fmt _ fun x hx => ?_
  obtain ⟨m, -, rfl⟩ := List.mem_map.1 hx
  rw [redW_eq]
  exact g.src_lt a t.width m

/-- Settles O15: a scan covers the active lanes up to its own or below it, a reduction all of them. -/
theorem scansAndReductions : Obligations.ScansAndReductions := by
  unfold Obligations.ScansAndReductions
  intro s g gd op t d a
  refine ⟨fun excl h => ?scan, fun h => ?red⟩
  case scan =>
    have hx := h.reduceLanes (fun _ => rfl) (exec_lscan ..) rfl
    cases excl <;> exact hx
  case red =>
    have hx := h.reduceLanes (fun _ => rfl) (exec_lred ..) rfl
    simpa using hx

end Sys2Proof.Machine
end

section
/-! Branches: the target check of 03 R50, words that set the positions themselves, and `divert` (07 R118, R125, R126). -/

namespace Sys2Proof.Machine

/-! ### Targets (03 R50) -/

theorem outside_iff (a : Int) : outside a = true ↔ ¬ InSpace a := by
  have hend : ((vaEnd : Nat) : Int) = 2 ^ 57 := by norm_num [vaEnd]
  simp only [outside, hend, InSpace, Bool.or_eq_true, decide_eq_true_eq]
  omega

theorem branchTarget_eq (s : State) (g : Group) (off : BitVec 32) : branchTarget (s.frag g).pos.addr off = s.wordsOn g off.toInt := by
  rw [branchTarget, signExt_eq, BitVec.ofNat_toNat, BitVec.setWidth_eq]
  rfl

theorem joinTarget_eq (s : State) (g : Group) (join : BitVec 16) : joinTarget (s.frag g).pos.addr join = s.wordsOn g join.toInt := by
  rw [joinTarget, signExt_eq, BitVec.ofNat_toNat, BitVec.setWidth_eq]
  rfl

/-- The check of one address of a branch word: a fault of cause 0x11 that names it, where it lies outside the virtual space. -/
def addressFault (a : Int) : Option FaultInfo := if outside a then some (.addr 0x11 a) else none

theorem addressFault_inside {a : Int} (h : InSpace a) : addressFault a = none := by
  rw [addressFault, if_neg (mt (outside_iff a).1 (not_not.2 h))]

theorem addressFault_outside {a : Int} (h : ¬ InSpace a) : addressFault a = some (.addr 0x11 a) := by
  rw [addressFault, if_pos ((outside_iff a).2 h)]

section
variable {i : Instr} {s : State} {g : Group}

/-- A word that sets the positions itself. -/
theorem Ready.steers {body : Group → Entry → Res} {g1 : Group} (h : Ready i s g) (ht : targetFault i (s.frag g).pos.addr = none)
    (hx : exec i s = Sys2Proof.Machine.issue i s body) (hb : body g (s.frag g) = .control (s.setCurGroup g1)) : Steers i s g1 :=
  ⟨hx.trans (h.issue_control ht hb), fun a => by simp⟩

variable {gd : Guard} {off : BitVec 32} (h : Ready i s g) (hi : ∀ a, targetFault i a = addressFault (branchTarget a off))
include h hi

/-- A branch word whose target lies in the virtual space. -/
theorem Ready.branch_steers {body : Group → Entry → List Nat → Nat → Res} {g1 : Group} (hin : InSpace (s.wordsOn g off.toInt))
    (hx : exec i s = branch i gd off s body)
    (hb : body g (s.frag g) (s.lanes g gd) (s.wordsOn g off.toInt).toNat = .control (s.setCurGroup g1)) : Steers i s g1 := by
  rw [← branchTarget_eq] at hb
  refine h.steers ?_ hx hb
  rw [hi, branchTarget_eq, addressFault_inside hin]

theorem Ready.branch_faults (hgd : i.guard? ≠ none) (hout : ¬ InSpace (s.wordsOn g off.toInt)) :
    Faults i s g (.addr 0x11 (s.wordsOn g off.toInt)) :=
  faults_of_target hgd h.here h.legal (by rw [hi, branchTarget_eq, addressFault_outside hout])

end

/-! ### `divert` (07 R118) -/

theorem Group.lowestFree_spec {g : Group} (h : ∃ j, j < 32 ∧ (g.ent j).st = .free) :
    g.lowestFree < 32 ∧ (g.ent g.lowestFree).st = .free ∧ ∀ j, j < g.lowestFree → (g.ent j).st ≠ .free := by
  obtain ⟨j, hj, hfree⟩ := h
  cases hf : (List.range 32).find? fun k => (g.ent k).st == .free with
  | none => exact absurd (List.find?_eq_none.1 hf j (List.mem_range.2 hj)) (by simp [hfree])
  | some n =>
    have hn : g.lowestFree = n := by rw [Group.lowestFree, hf]; rfl
    obtain ⟨hst, hlt, hlow⟩ := List.find?_range_eq_some.1 hf
    rw [hn]
    exact ⟨List.mem_range.1 hlt, by simpa using hst, fun j hj => by simpa using hlow j hj⟩

/-- The model's `divert` is that of 07 R118, where a division finds an entry. -/
theorem Group.divert_diverts {g : Group} {k : Nat} (t : BitVec 32) (target fall join : Nat) (hk : (g.ent k).st = .running)
    (hroom : ∃ j, j < 32 ∧ (g.ent j).st = .free) : Diverts g (g.divert k t target fall join) k t target fall join := by
  have hset (p : Pos) : ({ g.ent k with pos := p } : Entry).st ≠ .free := by simp [hk]
  unfold Diverts Group.divert
  simp only
  split
  case isTrue => exact Group.setEnt_sets g k (hset _)
  case isFalse =>
    split
    case isTrue => exact Group.setEnt_sets g k (hset _)
    case isFalse =>
      obtain ⟨hlt, hfree, hlow⟩ := Group.lowestFree_spec hroom
      refine ⟨_, hlt, hfree, hlow, ?_⟩
      refine ((Group.setEnt_sets g g.lowestFree (by simp)).trans (Group.setEnt_sets _ k (by simp [hk]))).congr fun j => ?_
      by_cases hj : j = k
      · simp only [hj, if_true]
      · simp only [hj, if_false]
        exact Group.ent_setEnt g _ _ (by simp)

theorem exec_bra (gd : Guard) (off : BitVec 32) (s : State) : exec (.bra gd off) s = execBra gd off s := rfl

theorem exec_brq (gd : Guard) (whenFalse : Bool) (q : Reg) (off : BitVec 32) (s : State) :
    exec (.brq gd whenFalse q off) s = execBrq gd whenFalse q off s := rfl

theorem exec_bdiv (gd : Guard) (join : BitVec 16) (off : BitVec 32) (s : State) : exec (.bdiv gd join off) s = execBdiv gd join off s := rfl

/-- Settles O16: each branch word divides its fragment once, by the lanes that take it. -/
theorem branches : Obligations.Branches := by
  unfold Obligations.Branches
  intro s g gd off hrun
  have hdiv (t : BitVec 32) (target fall join : Nat) := Group.divert_diverts t target fall join hrun.runs hrun.room
  refine ⟨fun h => ?bra, fun whenFalse q h => ?brq, fun jo h => ?bdiv⟩
  case bra =>
    split
    case isTrue hin => exact ⟨_, h.branch_steers (fun _ => rfl) hin (exec_bra ..) rfl, hdiv ..⟩
    case isFalse hout => exact h.branch_faults (fun _ => rfl) (Option.some_ne_none _) hout
  case brq =>
    split
    case isTrue hin =>
      refine ⟨_, h.branch_steers (fun _ => rfl) hin (exec_brq ..) rfl, ?_⟩
      have htaken : (if g.rdQ q.toNat != whenFalse then maskOf (s.lanes g gd) else 0) =
          if g.rdQ q.toNat = whenFalse then 0 else maskOf (s.lanes g gd) := by
        by_cases hq : g.rdQ q.toNat = whenFalse <;> simp [hq]
      rw [← htaken]
      exact hdiv ..
    case isFalse hout => exact h.branch_faults (fun _ => rfl) (Option.some_ne_none _) hout
  case bdiv =>
    have hcheck : targetFault (.bdiv gd jo off) (s.frag g).pos.addr =
        (addressFault (s.wordsOn g off.toInt)).orElse fun _ => addressFault (s.wordsOn g jo.toInt) := by
      rw [← branchTarget_eq, ← joinTarget_eq]
      rfl
    split
    case isTrue hin =>
      rw [addressFault_inside hin] at hcheck
      dsimp only
      split
      case isTrue hjoin =>
        rw [addressFault_inside hjoin] at hcheck
        refine ⟨_, h.steers hcheck (exec_bdiv ..) ?_, hdiv ..⟩
        beta_reduce
        rw [branchTarget_eq, joinTarget_eq]
        rfl
      case isFalse hjoin =>
        rw [addressFault_outside hjoin] at hcheck
        exact faults_of_target (i := .bdiv gd jo off) (Option.some_ne_none _) h.here h.legal hcheck
    case isFalse hout =>
      rw [addressFault_outside hout] at hcheck
      exact faults_of_target (i := .bdiv gd jo off) (Option.some_ne_none _) h.here h.legal hcheck

end Sys2Proof.Machine
end

section
/-! `regang` with the collapse of the split table, and `loop` (07 R127, R128). -/

namespace Sys2Proof.Machine

/-! ### The collapse (07 R127) -/

/-- A split table of one entry. -/
theorem Group.ent_of_sole {g : Group} {e : Entry} (h : g.ents = Tbl.setD [] 0 e .freed) (j : Nat) : g.ent j = if j = 0 then e else .freed := by
  rw [Group.ent, h]
  by_cases hj : j = 0
  · rw [hj, if_pos rfl, Tbl.getD_setD_self]
  · rw [if_neg hj, Tbl.getD_setD_ne _ _ _ hj]
    rfl

theorem Group.live_all_iff (g : Group) (target : Nat) :
    g.live.all (fun j => (g.ent j).mask == 0 || ((g.ent j).st == .regang && (g.ent j).pos.caddr == target)) = true ↔
      ∀ j, j < 32 → ¬ Hinders (g.ent j) target := by
  simp only [List.all_eq_true, Group.mem_live, Hinders, Bool.or_eq_true, Bool.and_eq_true, beq_iff_eq]
  exact ⟨fun h j hj ⟨hst, hmask, hno⟩ => (h j ⟨hj, hst⟩).elim hmask hno, fun h j ⟨hj, hst⟩ => or_iff_not_imp_left.2 fun hmask => by
    by_contra hno
    exact h j hj ⟨hst, hmask, hno⟩⟩

/-- The FMT that a collapse gives entry 0: SAVED of an entry that was divided from it first, else its own. -/
def Group.collapseFmt (g : Group) : Word64 :=
  match g.live.find? fun j => (g.ent j).join && (g.ent j).keeper == 0 && (g.ent j).level == 1 with
  | some t => (g.ent t).saved
  | none => (g.ent 0).fmt

theorem Group.collapseFmt_spec (g : Group) :
    (∃ j, j < 32 ∧ (g.ent j).st ≠ .free ∧ (g.ent j).join = true ∧ (g.ent j).keeper = 0 ∧ (g.ent j).level = 1 ∧ g.collapseFmt = (g.ent j).saved) ∨
      ((∀ j, j < 32 → (g.ent j).st ≠ .free → ¬ ((g.ent j).join = true ∧ (g.ent j).keeper = 0 ∧ (g.ent j).level = 1)) ∧
        g.collapseFmt = (g.ent 0).fmt) := by
  rw [Group.collapseFmt]
  split
  case h_1 t hfind =>
    obtain ⟨hlt, hst⟩ := (g.mem_live t).1 (List.mem_of_find?_eq_some hfind)
    have ht := List.find?_some hfind
    simp only [Bool.and_eq_true, beq_iff_eq, and_assoc] at ht
    obtain ⟨hjoin, hkeeper, hlevel⟩ := ht
    exact .inl ⟨t, hlt, hst, hjoin, hkeeper, hlevel, rfl⟩
  case h_2 hfind =>
    refine .inr ⟨fun j hj hst hno => ?_, rfl⟩
    have := List.find?_eq_none.1 hfind j ((g.mem_live j).2 ⟨hj, hst⟩)
    simp [hno] at this

/-- Where an entry with lanes waits at `target`, the model's collapse is that of 07 R127 there. -/
theorem Group.collapse_collapses {g : Group} {k target : Nat} (hk : k < 32) (hst : (g.ent k).st = .regang) (hmask : (g.ent k).mask ≠ 0)
    (hpos : (g.ent k).pos.caddr = target) : Collapses g g.collapse target := by
  have hmem : k ∈ g.live.filter fun j => (g.ent j).st == .regang && (g.ent j).mask != 0 :=
    List.mem_filter.2 ⟨(g.mem_live k).2 ⟨hk, by simp [hst]⟩, by simpa [hst] using hmask⟩
  rw [Group.collapse]
  cases hw : g.live.filter fun j => (g.ent j).st == .regang && (g.ent j).mask != 0 with
  | nil => exact absurd (hw ▸ hmem) List.not_mem_nil
  | cons w ws =>
    obtain ⟨hlive, hwait⟩ := List.mem_filter.1 (hw ▸ List.mem_cons_self : w ∈ g.live.filter _)
    obtain ⟨hlt, hwst⟩ := (g.mem_live w).1 hlive
    simp only [Bool.and_eq_true, beq_iff_eq, bne_iff_ne, ne_eq] at hwait
    obtain ⟨hwreg, hwmask⟩ := hwait
    simp only [Group.live_all_iff]
    split
    case isTrue hall =>
      have htarget : (g.ent w).pos.caddr = target := by
        by_contra hne
        exact hall k hk ⟨by simp [hst], hmask, fun hat => hne (hat.2.symm.trans hpos)⟩
      rw [htarget] at hall ⊢
      refine ⟨fun ⟨j, hj, hin⟩ => absurd hin (hall j hj), fun _ => ⟨g.collapseFmt, ⟨rfl, fun j => ?_⟩, g.collapseFmt_spec⟩⟩
      exact Group.ent_of_sole rfl j
    case isFalse hsome =>
      refine ⟨fun _ => rfl, fun hall => absurd (fun j hj hin => hall j hj ?_) hsome⟩
      have hwat : (g.ent w).pos.caddr = target := by
        by_contra hne
        exact hall w hlt ⟨hwst, hwmask, fun hat => hne hat.2⟩
      exact hwat ▸ hin

/-! ### `regang` (07 R127) -/

/-- A fragment with lanes keeps some of them through a division. -/
theorem Diverts.keeps_lanes {g g1 : Group} {k : Nat} {t : BitVec 32} {target fall join : Nat} (h : Diverts g g1 k t target fall join)
    (hmask : (g.ent k).mask ≠ 0) : (g1.ent k).mask ≠ 0 := by
  unfold Diverts at h
  simp only at h
  split at h
  case isTrue => rw [h.2 k]; simpa using hmask
  case isFalse =>
    split at h
    case isTrue => rw [h.2 k]; simpa using hmask
    case isFalse hrest =>
      obtain ⟨n, -, -, -, hset⟩ := h
      rw [hset.2 k]; simpa using hrest

theorem exec_regang (gd : Guard) (off : BitVec 32) (s : State) : exec (.regang gd off) s = execRegang gd off s := rfl

theorem exec_loop (gd : Guard) (vector : Bool) (c : Reg) (off : BitVec 32) (s : State) :
    exec (.loop gd vector c off) s = execLoop gd vector c off s := rfl

section
variable {s : State} {g : Group} {gd : Guard} {off : BitVec 32}

theorem regang_passes (h : Ready (.regang gd off) s g) (hin : InSpace (s.wordsOn g off.toInt)) (hact : maskOf (s.lanes g gd) = 0) :
    Steers (.regang gd off) s
      (g.divert s.cur.entry 0 (s.wordsOn g off.toInt).toNat (s.fall (s.frag g)) (s.frag g).reconv) :=
  h.branch_steers (fun _ => rfl) hin (exec_regang ..) (if_pos hact)

/-- The group in which the issuing fragment waits at the target, the passed-over lanes sent on. -/
def Group.regangAt (g : Group) (k : Nat) (target : Nat) : Group := g.setEnt k { g.ent k with pos := ⟨target, 0⟩, st := .regang }

theorem Group.regangAt_sets (g : Group) (k target : Nat) :
    EntriesSet g (g.regangAt k target) fun j => if j = k then { g.ent k with pos := ⟨target, 0⟩, st := .regang } else g.ent j :=
  Group.setEnt_sets g k (by simp)

theorem regang_waits (h : Ready (.regang gd off) s g) (hin : InSpace (s.wordsOn g off.toInt)) (hact : maskOf (s.lanes g gd) ≠ 0) :
    ∃ g1, g1 = (if (s.frag g).mask &&& ~~~maskOf (s.lanes g gd) = 0 then g
        else g.divert s.cur.entry ((s.frag g).mask &&& ~~~maskOf (s.lanes g gd)) (s.fall (s.frag g)) (s.wordsOn g off.toInt).toNat
          (s.frag g).reconv) ∧
      Steers (.regang gd off) s (g1.regangAt s.cur.entry (s.wordsOn g off.toInt).toNat).collapse :=
  ⟨_, rfl, h.branch_steers (fun _ => rfl) hin (exec_regang ..) (if_neg hact)⟩

end

/-- A fragment with an active lane has lanes. -/
theorem State.frag_mask_ne_zero {s : State} {g : Group} {gd : Guard} (h : maskOf (s.lanes g gd) ≠ 0) : (s.frag g).mask ≠ 0 := by
  intro hzero
  rw [ne_eq, maskOf_eq_zero fun l => State.lanes_lt] at h
  obtain ⟨l, hl⟩ := List.exists_mem_of_ne_nil _ h
  have hbit := ((g.mem_active _ _ _).1 hl).2.1
  simp [hzero] at hbit

/-! ### `loop` (07 R128) -/

theorem loop_scalar_idle {s : State} {g : Group} {gd : Guard} {c : Reg} {off : BitVec 32} (h : Ready (.loop gd false c off) s g)
    (hin : InSpace (s.wordsOn g off.toInt)) (hls : s.lanes g gd = []) :
    Steers (.loop gd false c off) s (g.divert s.cur.entry 0 (s.wordsOn g off.toInt).toNat (s.fall (s.frag g)) (s.frag g).reconv) :=
  h.branch_steers (fun _ => rfl) hin (exec_loop ..) (by rw [hls]; rfl)

theorem loop_scalar_counts {s : State} {g : Group} {gd : Guard} {c : Reg} {off : BitVec 32} (h : Ready (.loop gd false c off) s g)
    (hin : InSpace (s.wordsOn g off.toInt)) (hls : s.lanes g gd ≠ []) :
    Steers (.loop gd false c off) s
      ((g.wrSs c.toNat 1 (g.rdS c.toNat - 1).toNat).divert s.cur.entry (if g.rdS c.toNat - 1 = 0 then 0 else maskOf (s.lanes g gd))
        (s.wordsOn g off.toInt).toNat (s.fall (s.frag g)) (s.frag g).reconv) := by
  refine h.branch_steers (fun _ => rfl) hin (exec_loop ..) ?_
  simp only [Bool.false_eq_true, if_false, List.isEmpty_iff, hls, Group.wrSs, BitVec.ofNat_toNat, BitVec.setWidth_eq]
  rfl

theorem loop_vector_counts {s : State} {g : Group} {gd : Guard} {c : Reg} {off : BitVec 32} (h : Ready (.loop gd true c off) s g)
    (hin : InSpace (s.wordsOn g off.toInt)) :
    Steers (.loop gd true c off) s
      (((s.lanes g gd).foldl (fun acc l => acc.wrVs l c.toNat 1 (g.rdV l c.toNat - 1).toNat) g).divert s.cur.entry
        (maskOf ((s.lanes g gd).filter fun l => g.rdV l c.toNat ≠ 1)) (s.wordsOn g off.toInt).toNat (s.fall (s.frag g)) (s.frag g).reconv) := by
  refine h.branch_steers (fun _ => rfl) hin (exec_loop ..) ?_
  have hmore (x : Word32) : (x - 1 != 0) = decide (x ≠ 1) := by
    rw [Bool.eq_iff_iff, bne_iff_ne, decide_eq_true_eq, ne_eq, ne_eq, sub_eq_zero]
  simp only [if_true, Group.wrVs, BitVec.ofNat_toNat, BitVec.setWidth_eq, hmore]
  rfl

/-- Settles O17: `regang` divides, waits and collapses; `loop` writes the counter and divides. -/
theorem regangAndLoop : Obligations.RegangAndLoop := by
  unfold Obligations.RegangAndLoop
  intro s g gd off hrun
  dsimp only
  intro hin
  have hdiv (t : BitVec 32) (target fall join : Nat) := Group.divert_diverts t target fall join hrun.runs hrun.room
  refine ⟨fun h => ?regang, fun c h => ?scalar, fun c h => ?vector⟩
  case regang =>
    by_cases hact : maskOf (s.lanes g gd) = 0
    · exact ⟨_, regang_passes h hin hact, by rw [if_pos hact]; exact hdiv ..⟩
    · obtain ⟨g1, hg1, hsteers⟩ := regang_waits h hin hact
      have hsent : if (s.frag g).mask &&& ~~~maskOf (s.lanes g gd) = 0 then g1 = g
          else Diverts g g1 s.cur.entry ((s.frag g).mask &&& ~~~maskOf (s.lanes g gd)) (s.fall (s.frag g)) (s.wordsOn g off.toInt).toNat
            (s.frag g).reconv := by
        split
        case isTrue hrest => rw [hg1, if_pos hrest]
        case isFalse hrest =>
          rw [hg1, if_neg hrest]
          exact hdiv ..
      have hmask : (g1.ent s.cur.entry).mask ≠ 0 := by
        have hfrag := State.frag_mask_ne_zero hact
        split at hsent
        · rw [hsent]
          exact hfrag
        · exact hsent.keeps_lanes hfrag
      have hset := Group.regangAt_sets g1 s.cur.entry (s.wordsOn g off.toInt).toNat
      have hk := (hset.2 s.cur.entry).trans (if_pos rfl)
      refine ⟨_, hsteers, ?_⟩
      rw [if_neg hact]
      exact ⟨g1, _, hsent, hset, Group.collapse_collapses hrun.entry (by rw [hk]) (by rw [hk]; exact hmask) (by rw [hk])⟩
  case scalar =>
    by_cases hls : s.lanes g gd = []
    · refine ⟨g, _, loop_scalar_idle h hin hls, by rw [hls]; exact ScaWritten.none .., ?_⟩
      rw [if_pos (.inl hls)]
      exact hdiv ..
    · have hw := Group.wrSs_written g c.toNat 1 (g.rdS c.toNat - 1).toNat
      refine ⟨_, _, loop_scalar_counts h hin hls, by rw [List.isEmpty_eq_false_iff.2 hls]; exact hw, ?_⟩
      simp only [hls, false_or]
      exact Group.divert_diverts _ _ _ _ (by rw [hw.ent]; exact hrun.runs) (by simpa only [hw.ent] using hrun.room)
  case vector =>
    have hw := Group.foldl_wrVs (fun l => (g.rdV l c.toNat - 1).toNat) c.toNat 1 c.isLt (s.lanes g gd) g
    refine ⟨_, _, loop_vector_counts h hin, hw, ?_⟩
    exact Group.divert_diverts _ _ _ _ (by rw [hw.ent]; exact hrun.runs) (by simpa only [hw.ent] using hrun.room)

end Sys2Proof.Machine
end

section
/-! Joins, and the end of lanes: `nop`, `yield`, `exit` (07 R119, R120, R130, R131; 13 R230; 16 R301; 22 R386). -/

namespace Sys2Proof.Machine

/-! ### Joins (07 R119) -/

theorem Group.ent_setEnt_freed (g : Group) (k j : Nat) : (g.setEnt k .freed).ent j = if j = k then .freed else g.ent j := by
  unfold Group.ent
  by_cases hj : j = k
  · rw [hj, if_pos rfl, Group.setEnt_ents]
    exact Tbl.getD_setD_self ..
  · rw [if_neg hj, Group.setEnt_ents, Tbl.getD_setD_ne _ _ _ hj]

theorem Group.setEnt_freed_sets (g : Group) (k : Nat) : EntriesSet g (g.setEnt k .freed) fun j => if j = k then .freed else g.ent j :=
  ⟨rfl, g.ent_setEnt_freed k⟩

/-- The keeper of a join of entry `t` into entry `k` (07 R119). -/
def Group.joinedKeeper (g : Group) (k t : Nat) : Entry :=
  let e : Entry := { g.ent k with
    mask := (g.ent k).mask ||| (g.ent t).mask, reconv := (g.ent t).outer, fmt := (g.ent t).saved, depth := (g.ent k).depth - 1 }
  if e.mask = 0 then e
  else { e with pos := ⟨(g.ent t).reconv, 0⟩, st := if (g.ent t).outer = (g.ent t).reconv then .arrived else .running }

theorem Group.joinedKeeper_st {g : Group} {k : Nat} (t : Nat) (hk : (g.ent k).st ≠ .free) : (g.joinedKeeper k t).st ≠ .free := by
  unfold Group.joinedKeeper
  simp only
  split
  · exact hk
  · dsimp only
    split <;> simp

theorem Group.joinOne_sets {g : Group} {k t : Nat} (hkt : k ≠ t) (hk : (g.ent k).st ≠ .free) :
    EntriesSet g (g.joinOne k t) fun j => if j = t then .freed else if j = k then g.joinedKeeper k t else g.ent j := by
  refine ((g.setEnt_freed_sets t).trans (Group.setEnt_sets _ k (g.joinedKeeper_st t hk))).congr fun j => ?_
  rw [Group.ent_setEnt_freed]
  by_cases hjk : j = k
  · rw [if_pos hjk, if_neg (by omega), if_pos hjk]
  · rw [if_neg hjk, if_neg hjk]

/-- Settles O19: the pair is one that joins, and the join writes its two entries. -/
theorem joinsFuse : Obligations.JoinsFuse := by
  unfold Obligations.JoinsFuse
  intro g k t hkt hk ht hjoin hkeeper hlevel hdepth hlt
  refine ⟨fun hnone => ?_, _, rfl, Group.joinOne_sets hkt (by simp [hk])⟩
  rw [Group.joinable, Option.map_eq_none_iff, List.find?_eq_none] at hnone
  exact hnone t ((g.mem_live t).2 ⟨hlt, by simp [ht]⟩) (by simp [hjoin, ht, hkeeper, hk, hlevel, hdepth])

theorem Group.joins_of_none {g : Group} (h : g.joinable = none) (n : Nat) : g.joins n = g := by
  cases n with
  | zero => rfl
  | succ n => rw [Group.joins, h]

/-- What a join looks at in an entry: its state and its place among the divisions. -/
def Entry.joinPart (e : Entry) : EntrySt × Bool × Nat × Nat × Nat := (e.st, e.join, e.keeper, e.level, e.depth)

theorem Group.joinable_congr {g h : Group} (e : ∀ j, (h.ent j).joinPart = (g.ent j).joinPart) : h.joinable = g.joinable := by
  have hst (j : Nat) : (h.ent j).st = (g.ent j).st := congrArg (·.1) (e j)
  have hjoin (j : Nat) : (h.ent j).join = (g.ent j).join := congrArg (·.2.1) (e j)
  have hkeeper (j : Nat) : (h.ent j).keeper = (g.ent j).keeper := congrArg (·.2.2.1) (e j)
  have hlevel (j : Nat) : (h.ent j).level = (g.ent j).level := congrArg (·.2.2.2.1) (e j)
  have hdepth (j : Nat) : (h.ent j).depth = (g.ent j).depth := congrArg (·.2.2.2.2) (e j)
  simp only [Group.joinable, Group.live, hst, hjoin, hkeeper, hlevel, hdepth]

theorem Group.joinable_setEnt {g : Group} {k : Nat} {e : Entry} (hst : e.st ≠ .free) (he : e.joinPart = (g.ent k).joinPart) :
    (g.setEnt k e).joinable = g.joinable := by
  refine Group.joinable_congr fun j => ?_
  rw [Group.ent_setEnt _ _ _ hst]
  split
  case isTrue hj => rw [he, hj]
  case isFalse => rfl

theorem Group.onlyEnts_trans {g h i : Group} (h1 : h = { g with ents := h.ents }) (h2 : i = { h with ents := i.ents }) :
    i = { g with ents := i.ents } := by
  rw [h2, h1]

theorem Group.joins_only_ents (n : Nat) : ∀ g : Group, g.joins n = { g with ents := (g.joins n).ents } := by
  induction n with
  | zero => exact fun g => rfl
  | succ n ih =>
    intro g
    rw [Group.joins]
    split
    · exact Group.onlyEnts_trans rfl (ih (g.joinOne _ _))
    · rfl

theorem Group.collapse_only_ents (g : Group) : g.collapse = { g with ents := g.collapse.ents } := by
  rw [Group.collapse]
  split
  · rfl
  · dsimp only
    split <;> rfl

/-! ### Masks -/

theorem Group.allMask_getLsbD (g : Group) (l : Nat) :
    g.allMask.getLsbD l = true ↔ ∃ j, j < 32 ∧ (g.ent j).st ≠ .free ∧ (g.ent j).mask.getLsbD l = true := by
  rw [Group.allMask, foldl_or_getLsbD]
  simp [Group.mem_live, and_assoc]

/-- The lanes of a mask outside another. -/
theorem mask_diff_eq_zero {m n : BitVec 32} : m &&& ~~~n = 0 ↔ ∀ l, m.getLsbD l = true → n.getLsbD l = true := by
  constructor
  · intro h l hl
    by_contra hn
    have hbit : (m &&& ~~~n).getLsbD l = true := by
      rw [BitVec.getLsbD_and, hl, BitVec.getLsbD_not, Bool.eq_false_of_not_eq_true hn]
      simp [BitVec.lt_of_getLsbD hl]
    simp [h] at hbit
  · intro h
    refine BitVec.eq_of_getLsbD_eq fun l hl => ?_
    cases hm : m.getLsbD l
    · simp [hm]
    · simp [hm, h l hm]

theorem Group.allMask_eq_zero {g : Group} (h : ∀ j, (g.ent j).mask = 0) : g.allMask = 0 := by
  refine BitVec.eq_of_getLsbD_eq fun l _ => ?_
  rw [Bool.eq_iff_iff, Group.allMask_getLsbD]
  simp [h]

theorem Group.collapse_empty {g : Group} (h : ∀ j, (g.ent j).mask = 0) : g.collapse = g := by
  have hw : g.live.filter (fun j => (g.ent j).st == .regang && (g.ent j).mask != 0) = [] := by simp [h]
  rw [Group.collapse, hw]

/-- A fragment that runs keeps the group from collapsing. -/
theorem Group.collapse_running {g : Group} {k : Nat} (hk : k < 32) (hst : (g.ent k).st = .running) (hmask : (g.ent k).mask ≠ 0) :
    g.collapse = g := by
  rw [Group.collapse]
  simp only [Group.live_all_iff]
  split
  · rfl
  · exact if_neg fun hall => hall k hk ⟨by simp [hst], hmask, by simp [hst]⟩

theorem Group.setEnt_empty {g : Group} {k : Nat} {e : Entry} (h : ∀ j, (g.ent j).mask = 0) (he : e.mask = 0) (j : Nat) :
    ((g.setEnt k e).ent j).mask = 0 := by
  by_cases hst : e.st = .free
  · have hfreed : g.setEnt k e = g.setEnt k .freed := by simp [Group.setEnt, hst]
    rw [hfreed, Group.ent_setEnt_freed]
    split
    · rfl
    · exact h j
  · rw [Group.ent_setEnt _ _ _ hst]
    split
    · exact he
    · exact h j

theorem Group.joinOne_empty {g : Group} (k t : Nat) (h : ∀ j, (g.ent j).mask = 0) : ∀ j, ((g.joinOne k t).ent j).mask = 0 := by
  have hkeeper : (g.joinedKeeper k t).mask = 0 := by simp [Group.joinedKeeper, h]
  exact Group.setEnt_empty (Group.setEnt_empty (k := t) (e := .freed) h rfl) hkeeper

theorem Group.joins_empty (n : Nat) : ∀ g : Group, (∀ j, (g.ent j).mask = 0) → ∀ j, ((g.joins n).ent j).mask = 0 := by
  induction n with
  | zero => exact fun g h => h
  | succ n ih =>
    intro g h
    rw [Group.joins]
    split
    · exact ih _ (Group.joinOne_empty _ _ h)
    · exact h

/-! ### Lanes that leave an entry (07 R120) -/

theorem Group.removeLanes_only_ents (g : Group) (k : Nat) (lanes : BitVec 32) :
    g.removeLanes k lanes = { g with ents := (g.removeLanes k lanes).ents } := by
  unfold Group.removeLanes
  exact Group.onlyEnts_trans (Group.onlyEnts_trans rfl (Group.joins_only_ents 32 _)) (Group.collapse_only_ents _)

/-- An entry that keeps lanes runs on, and nothing joins. -/
theorem Group.removeLanes_some {g : Group} {k : Nat} {lanes : BitVec 32} (hk : k < 32) (hst : (g.ent k).st = .running)
    (hrest : (g.ent k).mask &&& ~~~lanes ≠ 0) (hjoin : g.joinable = none) :
    EntriesSet g (g.removeLanes k lanes) fun j => if j = k then { g.ent k with mask := (g.ent k).mask &&& ~~~lanes } else g.ent j := by
  have hfree : ({ g.ent k with mask := (g.ent k).mask &&& ~~~lanes } : Entry).st ≠ .free := by simp [hst]
  have hset := Group.setEnt_sets g k hfree
  have hk' := (hset.2 k).trans (if_pos rfl)
  have hstays : g.removeLanes k lanes = g.setEnt k { g.ent k with mask := (g.ent k).mask &&& ~~~lanes } := by
    simp only [Group.removeLanes, if_neg hrest]
    rw [Group.joins_of_none ((Group.joinable_setEnt hfree rfl).trans hjoin)]
    exact Group.collapse_running hk (by rw [hk']; exact hst) (by rw [hk']; exact hrest)
  rw [hstays]
  exact hset

theorem Group.removeLanes_all {g : Group} {k : Nat} {lanes : BitVec 32} (hrest : (g.ent k).mask &&& ~~~lanes = 0)
    (hothers : ∀ j, j ≠ k → (g.ent j).mask = 0) : (g.removeLanes k lanes).allMask = 0 := by
  have hempty : ∀ j, ((g.setEnt k { g.ent k with mask := 0, st := .arrived }).ent j).mask = 0 := by
    intro j
    rw [Group.ent_setEnt _ _ _ (by simp)]
    split
    · rfl
    · exact hothers j ‹_›
  have hjoins := Group.joins_empty 32 _ hempty
  simp only [Group.removeLanes, hrest, if_true]
  rw [Group.collapse_empty hjoins]
  exact Group.allMask_eq_zero hjoins

/-! ### The last lane (07 R120, R130; 13 R230; 16 R301; 22 R386) -/

/-- The groups and the memory of a state. -/
def State.groupsMem (s : State) : Tbl Group × Mem := (s.groups, s.mem)

theorem State.groupsMem_eq {s t : State} (h : t.groupsMem = s.groupsMem) : t.groups = s.groups ∧ t.mem = s.mem := Prod.mk.inj h

@[simp] theorem State.groupsMem_setCtx (s : State) (q : Nat) (c : Ctx) : (s.setCtx q c).groupsMem = s.groupsMem := rfl
@[simp] theorem State.groupsMem_setTrack (s : State) (t : Tracking) : (s.setTrack t).groupsMem = s.groupsMem := rfl
@[simp] theorem State.groupsMem_setTeam (s : State) (core ts : Nat) (t : Team) : (s.setTeam core ts t).groupsMem = s.groupsMem := rfl
@[simp] theorem State.groupsMem_boundary (s : State) (p level : Nat) : (s.boundary p level).groupsMem = s.groupsMem := rfl
@[simp] theorem State.groupsMem_boundAll (s : State) (f : Group → Bool) (level : Nat) : (s.boundAll f level).groupsMem = s.groupsMem := rfl
@[simp] theorem State.groupsMem_uncount (s : State) (i : Ids) (tag : Bool) : (s.uncount i tag).groupsMem = s.groupsMem := rfl

@[simp] theorem State.groupsMem_updGrid (s : State) (q k : Nat) (f : Grid → Grid) : (s.updGrid q k f).groupsMem = s.groupsMem := by
  unfold State.updGrid
  dsimp only
  split <;> rfl

@[simp] theorem State.groupsMem_teamBarrier (s : State) (core ts : Nat) (i : Ids) : (s.teamBarrier core ts i).groupsMem = s.groupsMem := by
  unfold State.teamBarrier
  split
  · rfl
  · split <;> rfl

@[simp] theorem State.groupsMem_clusterBarrier (s : State) (i : Ids) : (s.clusterBarrier i).groupsMem = s.groupsMem := by
  unfold State.clusterBarrier
  split
  · rfl
  · split <;> rfl

@[simp] theorem State.groupsMem_gridBarrier (s : State) (i : Ids) : (s.gridBarrier i).groupsMem = s.groupsMem := by
  unfold State.gridBarrier
  split
  · rfl
  · split <;> simp

@[simp] theorem State.groupsMem_setClusters (s : State) (x : Tbl Cluster) : ({ s with clusters := x } : State).groupsMem = s.groupsMem := rfl

/-- A group that leaves its barriers changes no group and no memory. -/
@[simp] theorem State.groupsMem_leaveBars (s : State) (core : Nat) (i : Ids) (b : Block) : (s.leaveBars core i b).groupsMem = s.groupsMem := by
  simp only [State.leaveBars, State.groupsMem_gridBarrier, State.groupsMem_updGrid]
  split <;> split <;> simp

theorem State.group?_of_groupsMem {s t : State} (h : t.groupsMem = s.groupsMem) (core slot : Nat) : t.group? core slot = s.group? core slot := by
  rw [State.group?, (State.groupsMem_eq h).1, State.group?]

theorem State.group?_updGroup_self {s : State} {core slot : Nat} {g : Group} (h : s.group? core slot = some g) (f : Group → Group) :
    (s.updGroup core slot f).group? core slot = some (f g) := by
  rw [State.updGroup_some s h, State.group?_setGroup_self]

theorem State.mem_updGroup (s : State) (core slot : Nat) (f : Group → Group) : (s.updGroup core slot f).mem = s.mem := by
  unfold State.updGroup
  split <;> rfl

theorem State.leaveReads_spec {s : State} {core slot : Nat} {g : Group} (hg : s.group? core slot = some g) :
    (s.leaveReads core slot g).group? core slot = some { g with rdepth := 0 } ∧ (s.leaveReads core slot g).mem = s.mem := by
  have hcount : (if 0 < g.rdepth ∧ g.leader.isNone then s.uncount g.ids g.rtag else s).groupsMem = s.groupsMem := by
    split <;> simp
  refine ⟨State.group?_updGroup_self ((State.group?_of_groupsMem hcount core slot).trans hg) _, ?_⟩
  rw [State.leaveReads]
  exact (State.mem_updGroup _ _ _ _).trans (State.groupsMem_eq hcount).2

theorem State.lastLane_spec {s : State} {core slot : Nat} {g : Group} (hg : s.group? core slot = some g) :
    (s.lastLane core slot).group? core slot = some { g with rdepth := 0, act := { g.act with st := .ending } } ∧
      (s.lastLane core slot).mem = s.mem := by
  obtain ⟨hleft, hmem⟩ := State.leaveReads_spec hg
  have hending := State.group?_updGroup_self hleft fun g => { g with act := { g.act with st := .ending } }
  have hmem' := (State.mem_updGroup (s.leaveReads core slot g) core slot fun g => { g with act := { g.act with st := .ending } }).trans hmem
  simp only [State.lastLane, hg]
  split
  · exact ⟨hending, hmem'⟩
  · have hbars := (State.groupsMem_leaveBars (((s.leaveReads core slot g).updGroup core slot
      fun g => { g with act := { g.act with st := .ending } }).boundary g.ids.uid 5) core g.ids g.block).trans (State.groupsMem_boundary _ _ _)
    exact ⟨(State.group?_of_groupsMem hbars core slot).trans hending, (State.groupsMem_eq hbars).2.trans hmem'⟩

/-! ### `exit` (07 R120, R130) -/

theorem exec_exit (gd : Guard) (s : State) : exec (.exit gd) s = execExit gd s := rfl

section
variable {s : State} {g : Group} {gd : Guard}

/-- The group after its active lanes have ended. -/
def State.exited (s : State) (g : Group) (gd : Guard) : Group :=
  (g.setEnt s.cur.entry { s.frag g with pos := ⟨s.fall (s.frag g), 0⟩ }).removeLanes s.cur.entry (maskOf (s.lanes g gd))

theorem exit_some (h : Ready (.exit gd) s g) (hrun : Running s g) (hrest : (s.frag g).mask &&& ~~~maskOf (s.lanes g gd) ≠ 0) :
    Steers (.exit gd) s (s.exited g gd) := by
  refine h.steers rfl (exec_exit ..) ?_
  have hlast : (g.allMask &&& ~~~maskOf (s.lanes g gd) == 0) = false := by
    rw [beq_eq_false_iff_ne, ne_eq, mask_diff_eq_zero]
    rw [ne_eq, mask_diff_eq_zero] at hrest
    exact fun hall => hrest fun l hl => hall l ((g.allMask_getLsbD l).2 ⟨_, hrun.entry, by simp [show (g.ent s.cur.entry).st = _ from hrun.runs], hl⟩)
  rw [State.lanes] at hlast
  simp only [hlast, Bool.false_and, Bool.false_eq_true, if_false]
  rfl

theorem exit_last (h : Ready (.exit gd) s g) (hrest : (s.frag g).mask &&& ~~~maskOf (s.lanes g gd) = 0)
    (hothers : ∀ j, j ≠ s.cur.entry → (g.ent j).mask = 0) (hidle : g.inflight = []) :
    exec (.exit gd) s = .next (((s.setCurGroup (s.exited g gd)).lastLane s.cur.core s.cur.slot).updGroup s.cur.core s.cur.slot Group.steered) := by
  have hlast : (g.allMask &&& ~~~maskOf (s.lanes g gd) == 0) = true := by
    rw [mask_diff_eq_zero] at hrest
    rw [beq_iff_eq, mask_diff_eq_zero]
    intro l hl
    obtain ⟨j, -, -, hbit⟩ := (g.allMask_getLsbD l).1 hl
    by_cases hj : j = s.cur.entry
    · rw [hj] at hbit
      exact hrest l hbit
    · simp [hothers j hj] at hbit
  rw [State.lanes, State.frag] at hlast
  rw [exec_exit, execExit, lanewise, h.issue rfl]
  simp only [hlast, hidle, List.any_nil, Bool.and_false, Bool.false_eq_true, if_false, if_true]
  rfl

end

/-- Settles O20: `nop` and `yield` advance; `exit` takes its lanes out of its entry, and the last lane leaves sections and barriers. -/
theorem nopYieldExit : Obligations.NopYieldExit := by
  unfold Obligations.NopYieldExit
  intro s g gd
  refine ⟨fun h => ⟨h.issue_same rfl rfl, fun a => by simp⟩, fun h => ⟨h.issue_same rfl rfl, fun a => by simp⟩, fun h hrun => ⟨?some, ?last⟩⟩
  case some =>
    intro hrest hjoin
    have hfree : ({ s.frag g with pos := ⟨s.fall (s.frag g), 0⟩ } : Entry).st ≠ .free := by simp [hrun.runs]
    have hmoved := Group.setEnt_sets g s.cur.entry hfree
    have hk := (hmoved.2 s.cur.entry).trans (if_pos rfl)
    have hremoved := Group.removeLanes_some (lanes := maskOf (s.lanes g gd)) hrun.entry (by rw [hk]; exact hrun.runs) (by rw [hk]; exact hrest)
      ((Group.joinable_setEnt hfree rfl).trans hjoin)
    refine ⟨_, exit_some h hrun hrest, (hmoved.trans hremoved).congr fun j => ?_⟩
    split
    case isTrue => rw [hk]; rfl
    case isFalse hj => exact (hmoved.2 j).trans (if_neg hj)
  case last =>
    intro hrest hothers hidle
    have hmoved (j : Nat) := Group.ent_setEnt g s.cur.entry j (e := { s.frag g with pos := ⟨s.fall (s.frag g), 0⟩ }) (by simp [hrun.runs])
    have hover : (s.exited g gd).allMask = 0 := by
      refine Group.removeLanes_all (by rw [hmoved, if_pos rfl]; exact hrest) fun j hj => ?_
      rw [hmoved, if_neg hj]
      exact hothers j hj
    have hents : s.exited g gd = { g with ents := (s.exited g gd).ents } :=
      Group.onlyEnts_trans rfl (Group.removeLanes_only_ents _ _ _)
    have hexec := exit_last h hrest hothers hidle
    generalize s.exited g gd = g1 at hover hents hexec
    obtain ⟨hlast, hmem⟩ := State.lastLane_spec (State.group?_setCurGroup s g1)
    have hregs := congrArg Group.regs hents
    have hfpstat := congrArg Group.fpstat hents
    refine ⟨_, _, hexec, State.group?_updGroup_self hlast Group.steered, beq_iff_eq.2 hover, rfl, rfl, hregs, hfpstat, fun a => ?_⟩
    rw [State.mem_updGroup]
    exact congrArg (fun m : Mem => m.byte a) hmem

end Sys2Proof.Machine
end

section
/-! Indirect jumps to several targets in a split table with one FREE entry (07 R121, R129). -/

namespace Sys2Proof.Machine

/-! ### A division takes a FREE entry -/

/-- A division that leaves lanes behind takes a FREE entry, frees none and keeps those lanes. -/
theorem Diverts.takes_free {g h : Group} {k l : Nat} {t : BitVec 32} {target fall join : Nat} (hd : Diverts g h k t target fall join)
    (hk : (g.ent k).st ≠ .free) (ht : t ≠ 0) (hl : (g.ent k).mask.getLsbD l = true) (hout : t.getLsbD l = false) :
    (∃ n, n < 32 ∧ (g.ent n).st = .free ∧ (h.ent n).st ≠ .free) ∧ (∀ j, (h.ent j).st = .free → (g.ent j).st = .free) ∧
      (h.ent k).mask.getLsbD l = true ∧ (h.ent k).st ≠ .free := by
  have hbit : ((g.ent k).mask &&& ~~~t).getLsbD l = true := by
    rw [BitVec.getLsbD_and, hl, BitVec.getLsbD_not, hout]
    simp [BitVec.lt_of_getLsbD hl]
  have hrest : (g.ent k).mask &&& ~~~t ≠ 0 := fun hzero => by simp [hzero] at hbit
  simp only [Diverts, if_neg ht, if_neg hrest] at hd
  obtain ⟨n, hn, hfree, -, -, hent⟩ := hd
  have hnk : n ≠ k := fun hnk => hk (hnk ▸ hfree)
  have hentk := (hent k).trans (if_pos rfl)
  have hentn := (hent n).trans ((if_neg hnk).trans (if_pos rfl))
  refine ⟨⟨n, hn, hfree, by rw [hentn]; simp⟩, fun j hj => ?_, by rw [hentk]; exact hbit, by rw [hentk]; exact hk⟩
  by_cases hjk : j = k
  · rw [hjk, hentk] at hj
    exact absurd hj hk
  · by_cases hjn : j = n
    · rw [hjn]
      exact hfree
    · rwa [(hent j).trans ((if_neg hjk).trans (if_neg hjn))] at hj

/-- Where one entry is FREE, two divisions that both leave a lane behind cannot follow one another. -/
theorem DivertsAll.at_most_one {g g1 : Group} {k l n fall join : Nat} {p q : Nat × BitVec 32} {ps : List (Nat × BitVec 32)}
    (hd : DivertsAll k fall join (p :: q :: ps) g g1) (hk : (g.ent k).st ≠ .free) (hone : ∀ j, j < 32 → (g.ent j).st = .free → j = n)
    (hl : (g.ent k).mask.getLsbD l = true) (hp : p.2 ≠ 0 ∧ p.2.getLsbD l = false) (hq : q.2 ≠ 0 ∧ q.2.getLsbD l = false) : False := by
  obtain ⟨h, hfirst, h', hsecond, -⟩ := hd
  obtain ⟨⟨m, hm, hmfree, hmtaken⟩, hkeeps, hl', hk'⟩ := hfirst.takes_free hk hp.1 hl hp.2
  obtain ⟨⟨m', hm', hmfree', -⟩, -⟩ := hsecond.takes_free hk' hq.1 hl' hq.2
  have hsame : m' = m := (hone m' hm' (hkeeps m' hmfree')).trans (hone m hm hmfree).symm
  exact hmtaken (hsame ▸ hmfree')

/-! ### The counterexample -/

/-- A group whose entry 0 runs lanes 0, 1 and 2 at the one word of a clause; entries 1 to 30 hold no lane and are not FREE. Predicate 1 is
true in lanes 0 and 1; the pair of register 2 holds the address 0 in lane 0 and 8 in lane 1. -/
def crowdedGroup : Group :=
  let g := Group.start ⟨0, 0, 0, 0, 0, 0, 0, 0⟩ 32 256 0 true 0 false ⟨.active, false, 0, 0, none, 0⟩
  { g with
    regs := { g.regs with v := [(258, 8)], p := [(1, true), (17, true)] }
    ents := (0, { g.ent 0 with pos := ⟨0, 1⟩, mask := 7 }) ::
      (List.range 30).map fun k => (k + 1, { Entry.freed with st := .arrived }) }

def crowdedState : State := { State.reset.setGroup 0 0 crowdedGroup with cur := ⟨0, 0, 0, none, 1, false⟩ }

theorem crowded_ready : Ready (.jmpi ⟨1, false⟩ (.vec 2)) crowdedState crowdedGroup :=
  ⟨rfl, by decide, by decide, .inl rfl⟩

theorem crowded_running : Running crowdedState crowdedGroup := ⟨by decide, by decide, 31, by decide⟩

theorem crowded_lanes : crowdedState.lanes crowdedGroup ⟨1, false⟩ = [0, 1] := by decide

theorem crowded_targets : [0, 1].map (fun l => (l, crowdedGroup.src (.vec 2) 2 l)) = [(0, 0), (1, 8)] := by decide

theorem crowded_free : ∀ j, j < 32 → (crowdedGroup.ent j).st = .free → j = 31 := by decide

/-- The parts of a jump of lanes 0 and 1 to two targets are two or more, none empty and none with lane 2. -/
theorem two_parts {ps : List (Nat × BitVec 32)} (h : PartsOf [(0, 0), (1, 8)] ps) :
    (∃ p q rest, ps = p :: q :: rest) ∧ ∀ p ∈ ps, p.2 ≠ 0 ∧ p.2.getLsbD 2 = false := by
  obtain ⟨-, hbits, hall, hne, -⟩ := h
  refine ⟨?_, fun p hp => ⟨hne p hp, Bool.eq_false_of_not_eq_true fun hbit => ?_⟩⟩
  · obtain ⟨p, hp, hp0⟩ := hall (0, 0) (by simp)
    obtain ⟨q, hq, hq8⟩ := hall (1, 8) (by simp)
    match ps with
    | [] => exact absurd hp List.not_mem_nil
    | [x] =>
      rw [List.mem_singleton] at hp hq
      rw [hp] at hp0
      rw [hq, hp0] at hq8
      cases hq8
    | x :: y :: rest => exact ⟨x, y, rest, rfl⟩
  · simpa using (hbits p hp 2 (by decide)).1 hbit

/-- Refutes O18: `Running` gives a FREE entry for one division, but a jump divides once for each target that does not stay. In a split table
that 07 R121 excludes, with one FREE entry left, a `jmpi` that passes lane 2 over and sends lanes 0 and 1 to different targets would take two. -/
theorem not_callsAndJumps : ¬ Obligations.CallsAndJumps := by
  unfold Obligations.CallsAndJumps
  intro hall
  obtain ⟨-, hjmpi, -⟩ := hall crowdedState crowdedGroup ⟨1, false⟩ crowded_running
  obtain ⟨-, hgo⟩ := hjmpi (.vec 2) crowded_ready
  rw [crowded_lanes, crowded_targets] at hgo
  obtain ⟨g0, g1, -, ⟨ps, hparts, hspread⟩, rfl⟩ := hgo (by decide)
  obtain ⟨⟨p, q, rest, rfl⟩, hpart⟩ := two_parts hparts
  dsimp only at hspread
  rw [if_neg (by decide)] at hspread
  exact hspread.at_most_one (k := 0) (l := 2) (by decide) crowded_free (by decide) (hpart p (by simp)) (hpart q (by simp))

end Sys2Proof.Machine
end

section
/-! `regroup` alone (07 R138 steps 1 and 2). -/

namespace Sys2Proof.Machine

/-! ### Lanes of a mask -/

theorem mem_maskLanes (m : BitVec 32) (l : Nat) : l ∈ maskLanes m ↔ m.getLsbD l = true := by
  simp only [maskLanes, List.mem_filter, List.mem_range]
  exact ⟨fun h => h.2, fun h => ⟨BitVec.lt_of_getLsbD h, h⟩⟩

/-- The lanes of the mask of the active lanes are the active lanes, in the same order. -/
theorem maskLanes_maskOf_lanes (s : State) (g : Group) (gd : Guard) : maskLanes (maskOf (s.lanes g gd)) = s.lanes g gd := by
  have hdef : s.lanes g gd = (List.range 32).filter fun l => (s.frag g).mask.getLsbD l && g.guardLane gd l := rfl
  conv_rhs => rw [hdef]
  refine List.filter_congr fun l hl => ?_
  have hlt := List.mem_range.1 hl
  rw [Bool.eq_iff_iff, maskOf_getLsbD _ hlt, State.lanes, Group.mem_active, Bool.and_eq_true, and_iff_right hlt]

/-- A status written in the lanes of a mask. -/
theorem Group.regroupStatus_written (g : Group) {d : Nat} (hd : d < 256) (m : BitVec 32) (x : Nat) :
    VecWritten g (g.regroupStatus d m x) (maskLanes m) d 1 fun _ => x :=
  Group.foldl_wrVs (fun _ => x) d 1 hd (maskLanes m) g

/-! ### The partner (07 R138) -/

theorem sameTeam_iff (g h : Group) : sameTeam g.ids h.ids = true ↔ TeamMates g h := by
  simp [sameTeam, TeamMates, and_assoc]

/-- The group of the team that has the GRPID `p` and a lane left. -/
def Partner (s : State) (g : Group) (p : Nat) : Prop :=
  ∃ q ∈ s.groups, q.1 / 64 = s.cur.core ∧ q.2.leader = none ∧ TeamMates q.2 g ∧ q.2.ids.grpid = p ∧ q.2.allMask ≠ 0

theorem teamMate_isNone_iff (s : State) (g : Group) (p : Nat) : (s.teamMate s.cur.core g.ids p).isNone = true ↔ ¬ Partner s g p := by
  rw [Option.isNone_iff_eq_none, State.teamMate, List.find?_eq_none]
  simp only [State.groupsOn, List.mem_map, List.mem_filter, Partner, Bool.and_eq_true, Bool.not_eq_true', beq_iff_eq, sameTeam_iff,
    Option.isNone_iff_eq_none, Group.over, beq_eq_false_iff_ne]
  constructor
  · rintro h ⟨q, hq, hcore, hlead, hteam, hid, hmask⟩
    exact h _ ⟨q, ⟨hq, hcore⟩, rfl⟩ ⟨⟨⟨hlead, hteam⟩, hid⟩, hmask⟩
  · rintro h _ ⟨q, ⟨hq, hcore⟩, rfl⟩ ⟨⟨⟨hlead, hteam⟩, hid⟩, hmask⟩
    exact h ⟨q, hq, hcore, hlead, hteam, hid, hmask⟩

/-! ### `regroup` -/

theorem exec_regroup (gd : Guard) (d a : Reg) (s : State) : exec (.regroup gd d a) s = execRegroup gd d a s := rfl

section
variable {s : State} {g : Group} {gd : Guard} {d a : Reg} (h : Ready (.regroup gd d a) s g)
include h

theorem regroup_divided (hs : g.single = false) : Faults (.regroup gd d a) s g (.word 0x01) :=
  (exec_regroup ..).trans (h.issue_fault rfl (by simp [hs]))

variable (hs : g.single = true)
include hs

theorem regroup_idle (hls : s.lanes g gd = []) : Completes (.regroup gd d a) s g := by
  rw [State.lanes, State.frag] at hls
  exact ⟨(exec_regroup ..).trans (h.issue_same rfl (by simp [hs, hls])), fun a => by simp⟩

variable (hls : s.lanes g gd ≠ [])
include hls

theorem regroup_alone (halone : (g.rdS a.toNat).toNat = g.ids.grpid ∨ ¬ Partner s g (g.rdS a.toNat).toNat) (hidle : g.inflight = []) :
    exec (.regroup gd d a) s =
      .next ((s.boundary g.ids.uid 5).setCurGroup ((g.regroupStatus d.toNat (maskOf (s.lanes g gd)) 2).advanced s.cur)) := by
  have hent := (g.regroupStatus_written d.isLt (maskOf (s.lanes g gd)) 2).ent s.cur.entry
  rw [← teamMate_isNone_iff] at halone
  rw [State.lanes, State.frag] at hls hent ⊢
  rw [exec_regroup, execRegroup, lanewise, h.issue rfl]
  simp only [hs, Bool.not_true, Bool.false_eq_true, if_false, List.isEmpty_iff, hls, if_pos halone, hidle, List.isEmpty_nil]
  refine congrArg Host.Outcome.next ((State.updGroup_setCurGroup (s.boundary g.ids.uid 5) _ _).trans ?_)
  rw [Group.advanced, hent]

theorem regroup_meets (hother : (g.rdS a.toNat).toNat ≠ g.ids.grpid) (hpartner : Partner s g (g.rdS a.toNat).toNat) :
    Steers (.regroup gd d a) s { g.setEnt s.cur.entry { s.frag g with st := .regroup } with
      meet := some ((g.rdS a.toNat).toNat, maskOf (s.lanes g gd), d.toNat, s.fall (s.frag g)), blockPos := (s.frag g).pos } := by
  have hsome : ¬ ((g.rdS a.toNat).toNat = g.ids.grpid ∨ (s.teamMate s.cur.core g.ids (g.rdS a.toNat).toNat).isNone = true) := by
    rw [teamMate_isNone_iff, not_or, not_not]
    exact ⟨hother, hpartner⟩
  refine h.steers rfl (exec_regroup ..) ?_
  rw [State.lanes] at hls
  simp only [hs, Bool.not_true, Bool.false_eq_true, if_false, List.isEmpty_iff, hls, if_neg hsome]
  rfl

end

end Sys2Proof.Machine
end

section
/-! The registers and the split table of a fused group (07 R139). -/

namespace Sys2Proof.Machine

/-! ### Tables of lane registers moved to other lanes -/

section
variable {β : Type}

theorem Tbl.find?_append (t t' : Tbl β) (a : Nat) : Tbl.find? (t ++ t') a = (Tbl.find? t a).or (Tbl.find? t' a) := by
  induction t with
  | nil => rfl
  | cons p t ih =>
    simp only [List.cons_append, Tbl.find?]
    split
    · rfl
    · exact ih

theorem lane_place {w l k r r' : Nat} (hr : r < w) (hr' : r' < w) : l * w + r' = k * w + r ↔ l = k ∧ r' = r := by
  constructor
  · intro h
    have hdiv := congrArg (· / w) h
    have hmod := congrArg (· % w) h
    simp only [Nat.mul_comm _ w, Nat.mul_add_div (Nat.zero_lt_of_lt hr), Nat.div_eq_of_lt hr, Nat.div_eq_of_lt hr', Nat.add_zero] at hdiv
    simp only [Nat.mul_comm _ w, Nat.mul_add_mod, Nat.mod_eq_of_lt hr, Nat.mod_eq_of_lt hr'] at hmod
    exact ⟨hdiv, hmod⟩
  · rintro ⟨rfl, rfl⟩
    rfl

/-- A moved lane holds what the old lane held, at its new place alone. -/
theorem find?_moveLane (t : Tbl β) {w : Nat} (old new : Nat) {k r : Nat} (hr : r < w) :
    Tbl.find? (moveLane t w old new) (k * w + r) = if k = new then Tbl.find? t (old * w + r) else none := by
  induction t with
  | nil => simp [moveLane, Tbl.find?]
  | cons p t ih =>
    obtain ⟨x, v⟩ := p
    have hx : x / w * w + x % w = x := by rw [Nat.mul_comm]; exact Nat.div_add_mod x w
    have hxw : x % w < w := Nat.mod_lt _ (Nat.zero_lt_of_lt hr)
    have hfound : x = old * w + r ↔ x / w = old ∧ x % w = r := by
      conv_lhs => rw [← hx]
      exact lane_place hr hxw
    by_cases hold : x / w = old
    · have hcons : moveLane ((x, v) :: t) w old new = (new * w + x % w, v) :: moveLane t w old new := by simp [moveLane, hold]
      rw [hcons]
      simp only [Tbl.find?, lane_place hr hxw, hfound, hold, true_and, ih, eq_comm (a := new) (b := k)]
      by_cases hk : k = new <;> by_cases hxr : x % w = r <;> simp [hk, hxr]
    · have hcons : moveLane ((x, v) :: t) w old new = moveLane t w old new := by simp [moveLane, hold]
      rw [hcons, ih]
      simp only [Tbl.find?, hfound, hold, false_and, if_false]

/-- Lanes of several tables moved to places numbered from `n` on. -/
theorem find?_moveLanes {α : Type} (f : α → Tbl β) (lane : α → Nat) {w : Nat} {k r : Nat} (hr : r < w) (src : List α) : ∀ n,
    Tbl.find? ((src.zipIdx n).flatMap fun p => moveLane (f p.1) w (lane p.1) p.2) (k * w + r) =
      if n ≤ k then (src[k - n]?).bind fun x => Tbl.find? (f x) (lane x * w + r) else none := by
  induction src with
  | nil => intro n; simp [Tbl.find?]
  | cons x src ih =>
    intro n
    rw [List.zipIdx_cons, List.flatMap_cons, Tbl.find?_append, find?_moveLane _ _ _ hr, ih]
    rcases lt_trichotomy k n with hlt | rfl | hgt
    · rw [if_neg (by omega), if_neg (by omega), if_neg (by omega)]
      rfl
    · simp
    · rw [if_neg (by omega), if_pos (by omega), if_pos (by omega), show k - n = (k - (n + 1)) + 1 by omega]
      simp

/-- What a place of the moved lanes reads: the value of the lane that stands there. -/
theorem getD_moveLanes {α : Type} (f : α → Tbl β) (lane : α → Nat) {w : Nat} {k r : Nat} (hr : r < w) {src : List α} {x : α} (hx : src[k]? = some x)
    (dflt : β) : Tbl.getD (src.zipIdx.flatMap fun p => moveLane (f p.1) w (lane p.1) p.2) (k * w + r) dflt =
      Tbl.getD (f x) (lane x * w + r) dflt := by
  rw [Tbl.getD, find?_moveLanes f lane hr, if_pos (Nat.zero_le k), Nat.sub_zero, hx, Option.bind_some, Tbl.getD]

end

/-! ### The fused registers (07 R139) -/

/-- The lanes of a fused group, each with the registers and the number that it had. -/
def fusedLanes (a b : Regs) (la lb : List Nat) : List (Regs × Nat) := (la.map fun l => (a, l)) ++ lb.map fun l => (b, l)

theorem fusedRegs_lane {a b : Regs} {la lb : List Nat} {k : Nat} {x : Regs × Nat} (h : (fusedLanes a b la lb)[k]? = some x) :
    (∀ r, r < 256 → Tbl.getD (fusedRegs a b la lb).v (k * 256 + r) 0 = Tbl.getD x.1.v (x.2 * 256 + r) 0) ∧
      (∀ r, r < 16 → Tbl.getD (fusedRegs a b la lb).p (k * 16 + r) false = Tbl.getD x.1.p (x.2 * 16 + r) false) ∧
      Tbl.getD (fusedRegs a b la lb).orig k 0 = Tbl.getD x.1.orig x.2 0 := by
  refine ⟨fun r hr => ?_, fun r hr => ?_, ?_⟩
  · exact getD_moveLanes (fun y : Regs × Nat => y.1.v) (·.2) hr h 0
  · exact getD_moveLanes (fun y : Regs × Nat => y.1.p) (·.2) hr h false
  · have horig := getD_moveLanes (fun y : Regs × Nat => y.1.orig) (·.2) Nat.one_pos h 0
    rw [Nat.mul_one, Nat.add_zero, Nat.mul_one, Nat.add_zero] at horig
    exact horig

/-! ### The survivor (07 R139) -/

/-- The one entry of the survivor before it takes its region entry. -/
def Group.fusedRoot (a b : Group) (ma mb : BitVec 32) (fall : Nat) : Entry :=
  { a.ent 0 with st := .running, pos := ⟨fall, 0⟩
                 mask := BitVec.ofNat 32 (2 ^ (fusedRegs a.regs b.regs (lanesOf ma) (lanesOf mb)).nlanes - 1), reconv := 0 }

/-- The survivor before its status is written. -/
def Group.fusedAt (a b : Group) (ma mb : BitVec 32) (fall : Nat) : Group :=
  ({ a with regs := fusedRegs a.regs b.regs (lanesOf ma) (lanesOf mb)
            ents := Tbl.setD [] 0 (a.fusedRoot b ma mb fall) .freed, meet := none } : Group).takeRegion ⟨fall, 0⟩

/-- The survivor with its status. -/
def Group.fusedStatus (a b : Group) (ma mb : BitVec 32) (d fall : Nat) : Group :=
  (a.fusedAt b ma mb fall).regroupStatus d (BitVec.ofNat 32 (2 ^ (a.fusedAt b ma mb fall).regs.nlanes - 1)) 1

theorem Group.fuse_eq (a b : Group) (ma mb : BitVec 32) (d fall : Nat) :
    a.fuse b ma mb d fall = { a.fusedStatus b ma mb d fall with again := true } := rfl

theorem Group.fusedStatus_written (a b : Group) (ma mb : BitVec 32) {d : Nat} (hd : d < 256) (fall : Nat) :
    VecWritten (a.fusedAt b ma mb fall) (a.fusedStatus b ma mb d fall)
      (maskLanes (BitVec.ofNat 32 (2 ^ (a.fusedAt b ma mb fall).regs.nlanes - 1))) d 1 fun _ => 1 :=
  Group.regroupStatus_written _ hd _ 1

theorem getLsbD_low_lanes {n l : Nat} (hl : l < n) (hn : n ≤ 32) : (BitVec.ofNat 32 (2 ^ n - 1)).getLsbD l = true := by
  rw [BitVec.getLsbD_ofNat, Nat.testBit_two_pow_sub_one]
  simp [hl]
  omega

theorem Group.takeRegion_ent {g : Group} (p : Pos) (h : (g.ent 0).st ≠ .free) (j : Nat) :
    (g.takeRegion p).ent j = if j = 0 then { g.ent 0 with saved := (g.ent 0).fmt } else g.ent j :=
  Group.ent_setEnt g 0 j h

theorem Group.fusedAt_ent (a b : Group) (ma mb : BitVec 32) (fall j : Nat) : (a.fusedAt b ma mb fall).ent j =
    if j = 0 then { a.ent 0 with st := .running, pos := ⟨fall, 0⟩
                                 mask := BitVec.ofNat 32 (2 ^ (a.fusedAt b ma mb fall).regs.nlanes - 1), reconv := 0, saved := (a.ent 0).fmt }
    else .freed := by
  have hroot := Group.ent_of_sole (e := a.fusedRoot b ma mb fall) (g := { a with
    regs := fusedRegs a.regs b.regs (lanesOf ma) (lanesOf mb), ents := Tbl.setD [] 0 (a.fusedRoot b ma mb fall) .freed, meet := none }) rfl
  refine (Group.takeRegion_ent ⟨fall, 0⟩ (by rw [hroot]; simp [Group.fusedRoot]) j).trans ?_
  rw [hroot, hroot]
  by_cases hj : j = 0
  · rw [if_pos hj, if_pos hj]
    rfl
  · rw [if_neg hj, if_neg hj, if_neg hj]

/-- The lanes of the survivor, each with the group that it comes from. -/
abbrev fusedSources (a b : Group) (ma mb : BitVec 32) : List (Group × Nat) :=
  (maskLanes ma).map (fun l => (a, l)) ++ (maskLanes mb).map fun l => (b, l)

theorem fusedAt_nlanes (a b : Group) (ma mb : BitVec 32) (fall : Nat) :
    (a.fusedAt b ma mb fall).regs.nlanes = (fusedSources a b ma mb).length := by
  simp [Group.fusedAt, Group.takeRegion, fusedRegs]
  rfl

theorem fusedLanes_eq (a b : Group) (ma mb : BitVec 32) :
    fusedLanes a.regs b.regs (maskLanes ma) (maskLanes mb) = (fusedSources a b ma mb).map fun x => (x.1.regs, x.2) := by
  simp [fusedLanes, Function.comp_def]

section
variable {a b : Group} {ma mb : BitVec 32} {d : Nat} {fall : Nat} (hd : d < 256)
  (hn : (maskLanes ma).length + (maskLanes mb).length ≤ 32)
include hd hn

/-- A lane of the survivor has the registers, predicates and origin that it had, and status 1. -/
theorem Group.fuse_lane {k : Nat} {x : Group × Nat} (hx : (fusedSources a b ma mb)[k]? = some x) :
    (∀ r, r < 256 → (a.fuse b ma mb d fall).rdV k r = if r = d then 1 else x.1.rdV x.2 r) ∧
      (∀ r, r < 16 → (a.fuse b ma mb d fall).rdP k r = x.1.rdP x.2 r) ∧
      Tbl.getD (a.fuse b ma mb d fall).regs.orig k 0 = Tbl.getD x.1.regs.orig x.2 0 := by
  obtain ⟨hregs, hread⟩ := a.fusedStatus_written b ma mb hd fall
  have hlt : k < (a.fusedAt b ma mb fall).regs.nlanes := by
    rw [fusedAt_nlanes]
    exact (List.getElem?_eq_some_iff.1 hx).1
  have hle : (a.fusedAt b ma mb fall).regs.nlanes ≤ 32 := by simpa [fusedAt_nlanes] using hn
  have hmoved : (fusedLanes a.regs b.regs (maskLanes ma) (maskLanes mb))[k]? = some (x.1.regs, x.2) := by
    rw [fusedLanes_eq, List.getElem?_map, hx]
    rfl
  obtain ⟨hv, hpred, horig⟩ := fusedRegs_lane hmoved
  rw [Group.fuse_eq]
  generalize a.fusedStatus b ma mb d fall = r at hregs hread
  have hp : r.regs.p = (a.fusedAt b ma mb fall).regs.p := by rw [hregs]
  have ho : r.regs.orig = (a.fusedAt b ma mb fall).regs.orig := by rw [hregs]
  refine ⟨fun n hn => ?_, fun n hn => ?_, (congrArg (fun t => Tbl.getD t k 0) ho).trans horig⟩
  · have hreg := hread k n (by omega) hn
    have hin := (mem_maskLanes _ k).2 (getLsbD_low_lanes hlt hle)
    by_cases hnd : n = d
    · rw [if_pos ⟨hin, by omega, by omega⟩] at hreg
      rw [if_pos hnd]
      refine hreg.1.trans ?_
      simp [hnd]
    · rw [if_neg (by omega)] at hreg
      rw [if_neg hnd]
      exact hreg.1.trans (hv n hn)
  · exact congrArg (n == 15 || ·) ((congrArg (fun t => Tbl.getD t (k * 16 + n) false) hp).trans (hpred n hn))

end

/-- The model's fuse is that of 07 R139. -/
theorem Group.fuse_fusedFrom {a b : Group} {ma mb : BitVec 32 × Nat × Nat} (hd : ma.2.1 < 256)
    (hn : (maskLanes ma.1).length + (maskLanes mb.1).length ≤ 32) : FusedFrom a b (a.fuse b ma.1 mb.1 ma.2.1 ma.2.2) ma mb := by
  obtain ⟨v, bad, hsub⟩ : ∃ v bad, a.fusedStatus b ma.1 mb.1 ma.2.1 ma.2.2 =
      { a.fusedAt b ma.1 mb.1 ma.2.2 with regs := { (a.fusedAt b ma.1 mb.1 ma.2.2).regs with v := v, badV := bad } } :=
    ⟨_, _, (a.fusedStatus_written b ma.1 mb.1 hd ma.2.2).1⟩
  refine ⟨?_, fun k x hx => Group.fuse_lane hd hn hx, ?_⟩ <;> rw [Group.fuse_eq, hsub]
  · exact fusedAt_nlanes a b ma.1 mb.1 ma.2.2
  · refine ⟨fun j => ?_, rfl, rfl, rfl⟩
    refine (a.fusedAt_ent b ma.1 mb.1 ma.2.2 j).trans ?_
    rw [fusedAt_nlanes]

end Sys2Proof.Machine
end

section
/-! The rendezvous of two groups (07 R138 steps 3 to 5, R139; 11 R187, R189). -/

namespace Sys2Proof.Machine

/-! ### Groups that meet (07 R138) -/

theorem Meeting.meets {s : State} {core slot : Nat} {g : Group} {partner : Nat} {m : BitVec 32 × Nat × Nat}
    (h : Meeting s core slot g partner m) : s.meets core slot g = true := by
  obtain ⟨-, hroot, hwaits, ⟨hlead, hshadow, htrace⟩, ⟨hrun, hunwritten, hunserved⟩,
    ⟨hin, hbatch, htok, hstat, hholds, hcmds⟩, ⟨hsave, hrem⟩⟩ := h
  have hcmd : ((s.cmdsOf core slot).all fun c => c.done || c.flag.isNone) = true := by simpa [List.all_eq_true] using hcmds
  have hheld : g.holds.any s.held = false := by simpa [List.any_eq_false] using hholds
  simp [State.meets, State.drained, State.ctxMoves, hroot, hwaits, hlead, hshadow, htrace, hrun, hunwritten, hunserved, hin, hbatch, htok, hstat,
    hheld, hcmd, hsave, hrem]

/-- The group holds a read section open or a reservation of slates (07 R138 step 4). -/
def HoldsOn (g : Group) : Prop := 0 < g.rdepth ∨ ∃ r, g.resv = some r ∧ 0 < r.nsl

theorem holdsOn_iff (g : Group) : HoldsOn g ↔ g.rdepth ≠ 0 ∨ g.holdsSlates = true := by
  rw [HoldsOn, Nat.pos_iff_ne_zero, Group.holdsSlates]
  cases g.resv <;> simp

theorem unitsIn_eq (n v b : Nat) : unitsIn n v b = if 4 * b < n then v / 16 else 0 := by
  have hbank : b < banksOf n ↔ 4 * b < n := by
    unfold banksOf
    omega
  simp only [unitsIn, hbank]

/-- The model's check of the survivor's quarter is that of 11 R189. -/
theorem fuseFits_iff {s : State} {core ka kb : Nat} {a b : Group} (n : Nat) (ha : a.shadow = none) (hb : b.shadow = none) :
    s.fuseFits core ka kb a b n = true ↔ QuarterHolds s core ka [ka, kb] n a.regs.nvr := by
  have hadmit : (fun p : Nat × Group => p.1 % 64 / 16 == ka / 16 && (!([ka, kb].contains (p.1 % 64)) && p.1 / 64 == core)) =
      fun p => p.1 / 64 == core && p.1 % 64 / 16 == ka / 16 && !([ka, kb].contains (p.1 % 64)) := by
    funext p
    rw [Bool.and_comm _ (p.1 / 64 == core), ← Bool.and_assoc, Bool.and_comm _ (p.1 / 64 == core)]
  simp only [State.fuseFits, ha, hb, Option.toList_none, List.append_nil, Option.isSome_none, Bool.false_eq_true, if_false, banksFit,
    List.all_eq_true, List.mem_range, decide_eq_true_eq, Nat.one_mul, QuarterHolds, takenIn, State.occ, State.groupsOn, unitsIn_eq,
    List.filter_map, List.map_map, List.filter_filter, Function.comp_def]
  rw [hadmit]

theorem Group.unfused_goesOn (g : Group) {m : BitVec 32 × Nat × Nat} (x : Nat) (hm : m.2.1 < 256) : GoesOn g (g.unfused m x) m x := by
  have hw := g.regroupStatus_written hm m.1 x
  refine ⟨_, hw, ?_⟩
  rw [Group.unfused, hw.ent]

/-! ### What the meeting does (07 R138 step 4) -/

theorem exec_regroupRendezvous (core ka kb : Nat) (s : State) :
    exec (.regroupRendezvous core ka kb) s = execRegroupRendezvous core ka kb s := rfl

section
variable {s : State} {core ka kb : Nat} {a b : Group} {ma mb : BitVec 32 × Nat × Nat}

/-- The state after the boundaries of both groups. -/
def State.cutBoth (s : State) (a b : Group) : State := (s.boundary a.ids.uid 5).boundary b.ids.uid 5

/-- Two slots of one core hold two groups. -/
def State.setPair (s : State) (core ka kb : Nat) (a b : Group) : State := (s.setGroup core ka a).setGroup core kb b

theorem State.group?_setPair_snd (s : State) (core ka kb : Nat) (a b : Group) : (s.setPair core ka kb a b).group? core kb = some b :=
  State.group?_setGroup_self _ _ _ _

theorem State.group?_setPair_fst (s : State) {core ka kb : Nat} (hne : ka ≠ kb) (a b : Group) :
    (s.setPair core ka kb a b).group? core ka = some a :=
  (State.group?_setGroup_ne _ _ (gkey_ne core hne)).trans (State.group?_setGroup_self _ _ _ _)

/-- Both groups go on unchanged with a status. -/
def State.bothGoOn (s : State) (core ka kb : Nat) (a b : Group) (ma mb : BitVec 32 × Nat × Nat) (x : Nat) : State :=
  (s.cutBoth a b).setPair core ka kb (a.unfused ma x) (b.unfused mb x)

/-- A pair without a shadow is its leader. -/
theorem State.updPair_alone (s : State) (core slot : Nat) {g : Group} (h : g.shadow = none) (f : Group → Group) :
    s.updPair core slot g f = s.setGroup core slot (f g) := by
  rw [State.updPair, h]

theorem rendezvous_eq (ha : Meeting s core ka a b.ids.grpid ma) (hb : Meeting s core kb b a.ids.grpid mb) (hteam : TeamMates a b)
    (hlow : a.ids.grpid < b.ids.grpid) : exec (.regroupRendezvous core ka kb) s = .next
      (if a.rdepth ≠ 0 ∨ b.rdepth ≠ 0 ∨ a.holdsSlates = true ∨ b.holdsSlates = true then s.bothGoOn core ka kb a b ma mb 3
      else if 32 < (maskLanes ma.1).length + (maskLanes mb.1).length then s.bothGoOn core ka kb a b ma mb 0
      else if s.fuseFits core ka kb a b ((maskLanes ma.1).length + (maskLanes mb.1).length) = false then s.bothGoOn core ka kb a b ma mb 4
      else (s.cutBoth a b).fuseGroups core ka kb a b ma mb) := by
  have hshadow := ha.alone.2.1
  have hshadow' := hb.alone.2.1
  rw [exec_regroupRendezvous]
  simp only [execRegroupRendezvous, event, Option.bind_eq_bind, ha.here, hb.here, ha.waits, hb.waits, Option.bind_some, ha.meets, hb.meets,
    (sameTeam_iff a b).2 hteam, hlow, decide_true, bne_self_eq_false, Bool.not_true, Bool.or_self, Bool.false_eq_true, if_false, if_true,
    State.updPair_alone _ _ _ hshadow, State.updPair_alone _ _ _ hshadow', Bool.not_eq_true']
  simp only [apply_ite (Option.getD · s), Option.getD_some]
  rfl

/-- The groups that do not fuse go on, each with the status in its participating lanes. -/
theorem bothGoOn_stays (x : Nat) (hx : exec (.regroupRendezvous core ka kb) s = .next (s.bothGoOn core ka kb a b ma mb x))
    (hda : ma.2.1 < 256) (hdb : mb.2.1 < 256) : ∃ a1 b1, GoesOn a a1 ma x ∧ GoesOn b b1 mb x ∧
      exec (.regroupRendezvous core ka kb) s = .next (((s.cutBoth a b).setGroup core ka a1).setGroup core kb b1) :=
  ⟨a.unfused ma x, b.unfused mb x, a.unfused_goesOn x hda, b.unfused_goesOn x hdb, hx⟩

end

/-! ### The fused group (07 R138 step 5, R139) -/

/-- A group that is a party of no collective group has no binding to end. -/
theorem State.endBindings_unbound {s : State} {core slot : Nat} {g : Group} (hg : s.group? core slot = some g) (h : g.binds = []) (all : Bool) :
    s.endBindings core slot all = s.setGroup core slot { g with binds := [] } := by
  simp only [State.endBindings, hg, h, Tbl.vals, List.map_nil, List.foldl_nil, State.updGroup_some s hg]

theorem State.freeSlot_mem {s : State} {core slot : Nat} {g : Group} (hg : s.group? core slot = some g) :
    (s.freeSlot core slot).mem = s.mem := by
  simp only [State.freeSlot, hg]
  split <;> split <;> rfl

/-- The survivor takes its fused form, the other group's slot is freed, and memory stays. -/
theorem State.fuseGroups_spec {s : State} {core ka kb : Nat} {a b : Group} (ma mb : BitVec 32 × Nat × Nat) (hne : ka ≠ kb)
    (hb : s.group? core kb = some b) (hsa : a.shadow = none) (hsb : b.shadow = none) (hbinds : b.binds = []) :
    (s.fuseGroups core ka kb a b ma mb).group? core ka = some (a.fuse b ma.1 mb.1 ma.2.1 ma.2.2) ∧
      (s.fuseGroups core ka kb a b ma mb).group? core kb = none ∧ (s.fuseGroups core ka kb a b ma mb).mem = s.mem := by
  have hparty : (s.setGroup core ka (a.fuse b ma.1 mb.1 ma.2.1 ma.2.2)).group? core kb = some b :=
    (State.group?_setGroup_ne s _ (gkey_ne core hne.symm)).trans hb
  have hfuse : s.fuseGroups core ka kb a b ma mb =
      ((s.setPair core ka kb (a.fuse b ma.1 mb.1 ma.2.1 ma.2.2) { b with binds := [] }).freeSlot core kb).leaveBars core b.ids .none := by
    simp only [State.fuseGroups, hsa, hsb, State.endBindings_unbound hparty hbinds, State.setPair]
  have ha3 := s.group?_setPair_fst (core := core) hne (a.fuse b ma.1 mb.1 ma.2.1 ma.2.2) { b with binds := [] }
  have hb3 := s.group?_setPair_snd core ka kb (a.fuse b ma.1 mb.1 ma.2.1 ma.2.2) { b with binds := [] }
  have hleft := State.groupsMem_leaveBars
    ((s.setPair core ka kb (a.fuse b ma.1 mb.1 ma.2.1 ma.2.2) { b with binds := [] }).freeSlot core kb) core b.ids .none
  rw [hfuse, State.group?_of_groupsMem hleft, State.group?_of_groupsMem hleft, (State.groupsMem_eq hleft).2, State.freeSlot_mem hb3]
  refine ⟨?_, ?_, rfl⟩
  · rw [State.group?, State.freeSlot_groups hb3, Tbl.find?_del_ne _ (gkey_ne core hne)]
    exact ha3
  · rw [State.group?, State.freeSlot_groups hb3]
    exact Tbl.find?_del_self _ _

/-- Settles O22: `regroup` by its guards, and the meeting by the order of the checks of 07 R138 step 4. -/
theorem regroup : Obligations.Regroup := by
  unfold Obligations.Regroup
  constructor
  · intro s g gd d a h
    refine ⟨regroup_divided h, regroup_idle h, fun hs hls halone hidle => ⟨_, ?_, regroup_alone h hs hls halone hidle⟩,
      fun hs hls hother hpartner hroot _ => ⟨_, ?_, regroup_meets h hs hls hother hpartner⟩⟩
    · have hw := g.regroupStatus_written d.isLt (maskOf (s.lanes g gd)) 2
      rwa [maskLanes_maskOf_lanes] at hw
    · have hset := Group.setEnt_sets g s.cur.entry (e := { s.frag g with st := .regroup }) (by simp)
      rw [State.frag, hroot] at hset ⊢
      exact hset
  · intro s core ka kb a b ma mb _ _ hne ha hb hteam hlow _
    have hfits := fuseFits_iff (s := s) (core := core) (ka := ka) (kb := kb) ((maskLanes ma.1).length + (maskLanes mb.1).length)
      ha.alone.2.1 hb.alone.2.1
    have hheld : (a.rdepth ≠ 0 ∨ b.rdepth ≠ 0 ∨ a.holdsSlates = true ∨ b.holdsSlates = true) ↔ HoldsOn a ∨ HoldsOn b := by
      rw [holdsOn_iff, holdsOn_iff]
      tauto
    have hx := rendezvous_eq ha hb hteam hlow
    refine ⟨fun h => ?_, fun h hn => ?_, fun h hn hno => ?_, fun h hn hyes hd hbinds => ?_⟩
    · rw [if_pos (hheld.2 h)] at hx
      exact bothGoOn_stays 3 hx
    · rw [if_neg (mt hheld.1 h), if_pos hn] at hx
      exact bothGoOn_stays 0 hx
    · rw [if_neg (mt hheld.1 h), if_neg (Nat.not_lt.2 hn), if_pos (Bool.eq_false_iff.2 (mt hfits.1 hno))] at hx
      exact bothGoOn_stays 4 hx
    · rw [if_neg (mt hheld.1 h), if_neg (Nat.not_lt.2 hn), if_neg (by simp [hfits.2 hyes])] at hx
      obtain ⟨hsurvivor, hgone, hmem⟩ := State.fuseGroups_spec (s := s.cutBoth a b) ma mb hne hb.here ha.alone.2.1 hb.alone.2.1 hbinds
      exact ⟨_, _, hx, hsurvivor, Group.fuse_fusedFrom hd hn, hgone, fun x => congrArg (fun m : Mem => m.byte x) hmem⟩

end Sys2Proof.Machine
end

section
/-! The significand that a rounding mode selects for a positive rational (08 R147). -/

namespace Sys2Proof.Machine

/-! ### The selected significand -/

theorem RoundedTo.abs_sub_lt_one {mode : Rnd} {neg : Bool} {x : ℚ} {k : Nat} (h : RoundedTo mode neg x k) : |x - k| < 1 := by
  have hdown (h : (k : ℚ) ≤ x ∧ x < k + 1) : |x - k| < 1 := abs_sub_lt_iff.2 ⟨by linarith, by linarith⟩
  have hup (h : x ≤ k ∧ (k : ℚ) < x + 1) : |x - k| < 1 := abs_sub_lt_iff.2 ⟨by linarith, by linarith⟩
  have hnear (h : |x - k| < 1 / 2 ∨ |x - k| = 1 / 2 ∧ k % 2 = 0) : |x - k| < 1 := by
    rcases h with h | h <;> linarith
  cases mode with
  | dyn | rn => exact hnear h
  | rz => exact hdown h
  | rp => cases neg with
    | false => exact hup h
    | true => exact hdown h
  | rm => cases neg with
    | false => exact hdown h
    | true => exact hup h

/-- The rounding of a value between `n` and `n + 1` is exact for `n` alone. -/
theorem RoundedTo.eq_iff {mode : Rnd} {neg : Bool} {x : ℚ} {k n : Nat} (h : RoundedTo mode neg x k) (hle : (n : ℚ) ≤ x) (hlt : x < n + 1) :
    (k : ℚ) = x ↔ x = n := by
  have hk := abs_sub_lt_iff.1 h.abs_sub_lt_one
  have hnat {a b : Nat} (hab : (a : ℚ) < b + 1) : a ≤ b := Nat.lt_succ_iff.1 (by exact_mod_cast hab)
  constructor
  · intro hkx
    have : k = n := le_antisymm (hnat (by linarith)) (hnat (by linarith))
    rw [← hkx, this]
  · intro hxn
    have : k = n := le_antisymm (hnat (by linarith)) (hnat (by linarith))
    rw [hxn, this]

/-- What the rounding sees of `x`: the natural number `n` below it, how the rest compares with a half, and whether the rest is zero. -/
structure SeenAs (x : ℚ) (n : Nat) (rest : Ordering) (exact : Bool) : Prop where
  le : (n : ℚ) ≤ x
  lt : x < n + 1
  rest_eq : rest = cmp (x - n) (1 / 2)
  exact_iff : exact = true ↔ x = n

section
variable {x : ℚ} {n : Nat} {rest : Ordering} {exact : Bool} (h : SeenAs x n rest exact)
include h

theorem SeenAs.down : (n : ℚ) ≤ x ∧ x < n + 1 := ⟨h.le, h.lt⟩

/-- The lesser neighbour above: `n` itself for an exact value, else `n + 1`. -/
theorem SeenAs.up : x ≤ (if exact = false then n + 1 else n : Nat) ∧ ((if exact = false then n + 1 else n : Nat) : ℚ) < x + 1 := by
  cases exact with
  | true => simp [h.exact_iff.1 rfl]
  | false =>
    have hne : x ≠ n := fun hx => Bool.false_ne_true (h.exact_iff.2 hx)
    have hlt : (n : ℚ) < x := lt_of_le_of_ne h.le hne.symm
    simpa using ⟨h.lt.le, hlt⟩

/-- The nearer neighbour, and of a tie the even one. -/
theorem SeenAs.nearest {k : Nat} (hk : k = if (rest == .gt || (rest == .eq && n % 2 == 1)) = true then n + 1 else n) :
    |x - k| < 1 / 2 ∨ |x - k| = 1 / 2 ∧ k % 2 = 0 := by
  have hle := h.le
  have hlt := h.lt
  have hbelow : |x - n| = x - n := abs_of_nonneg (by linarith)
  have habove : |x - (n + 1 : Nat)| = n + 1 - x := by rw [abs_of_nonpos (by push_cast; linarith)]; push_cast; ring
  obtain hrest | hrest | hrest := lt_trichotomy (x - n) (1 / 2)
  · rw [h.rest_eq, cmp_eq_lt_iff _ _ |>.2 hrest] at hk
    exact .inl (by rw [show k = n from hk, hbelow]; exact hrest)
  · rw [h.rest_eq, cmp_eq_eq_iff _ _ |>.2 hrest] at hk
    rcases Nat.mod_two_eq_zero_or_one n with hpar | hpar
    · have hkn : k = n := by simpa [hpar] using hk
      exact .inr (by rw [hkn, hbelow]; exact ⟨hrest, hpar⟩)
    · have hkn : k = n + 1 := by simpa [hpar] using hk
      exact .inr (by rw [hkn, habove]; exact ⟨by linarith, by omega⟩)
  · rw [h.rest_eq, cmp_eq_gt_iff _ _ |>.2 hrest] at hk
    exact .inl (by rw [show k = n + 1 from hk, habove]; linarith)

theorem SeenAs.roundedTo (mode : Rnd) (neg : Bool) :
    RoundedTo mode neg x (if roundsUp mode neg (n % 2 == 1) rest exact then n + 1 else n) := by
  have hup := h.up
  cases mode with
  | dyn | rn => exact h.nearest rfl
  | rz => exact h.down
  | rp => cases neg with
    | false => simpa [RoundedTo, roundsUp] using hup
    | true => simpa [RoundedTo, roundsUp] using h.down
  | rm => cases neg with
    | false => simpa [RoundedTo, roundsUp] using h.down
    | true => simpa [RoundedTo, roundsUp] using hup

end

/-! ### What is seen of a value of enough bits -/

theorem SeenAs.of_nat (n : Nat) : SeenAs n n .lt true :=
  ⟨le_rfl, by linarith, (cmp_eq_lt_iff _ _ |>.2 (by norm_num)).symm, by simp⟩

/-- A rest in units of 1 / d against a half, where the sticky mark says that the value lies above it. -/
def restOrd (rest d : Nat) (sticky : Bool) : Ordering :=
  match natOrd (2 * rest) d with
  | .eq => if sticky then .gt else .eq
  | o => o

section
variable {rest d : Nat} (sticky : Bool)

theorem restOrd_of_lt (h : 2 * rest < d) : restOrd rest d sticky = .lt := by
  simp [restOrd, natOrd, h]

theorem restOrd_of_eq (h : 2 * rest = d) : restOrd rest d sticky = if sticky then .gt else .eq := by
  simp [restOrd, natOrd, h]

theorem restOrd_of_gt (h : d < 2 * rest) : restOrd rest d sticky = .gt := by
  simp [restOrd, natOrd, h.not_gt, h.ne']

end

/-- `y` is `m`, or with the sticky mark a value between `m` and `m + 1`. -/
def Truncates (y : ℚ) (m : Nat) (sticky : Bool) : Prop := if sticky then (m : ℚ) < y ∧ y < m + 1 else y = m

section
variable {y : ℚ} {m : Nat} {sticky : Bool} (h : Truncates y m sticky)
include h

theorem Truncates.le : (m : ℚ) ≤ y := by
  cases sticky with
  | true => exact h.1.le
  | false => exact h.ge

theorem Truncates.lt : y < m + 1 := by
  cases sticky with
  | true => exact h.2
  | false => rw [show y = m from h]; linarith

theorem Truncates.eq_iff : y = m ↔ sticky = false := by
  cases sticky with
  | true => exact iff_of_false h.1.ne' (by decide)
  | false => exact iff_of_true h rfl

/-- The bits of `m` below an even divisor, with the mark, show as much of `y / d` as rounding needs. -/
theorem Truncates.seenAs_div {c : Nat} (hc : 0 < c) :
    SeenAs (y / (2 * c : Nat)) (m / (2 * c)) (restOrd (m % (2 * c)) (2 * c) sticky) (m % (2 * c) == 0 && !sticky) := by
  have hle := h.le
  have hlt := h.lt
  have hcq : (0 : ℚ) < c := by exact_mod_cast hc
  have hm : (m : ℚ) = 2 * c * (m / (2 * c) : Nat) + (m % (2 * c) : Nat) := by exact_mod_cast (Nat.div_add_mod m (2 * c)).symm
  have hr : m % (2 * c) + 1 ≤ 2 * c := Nat.mod_lt _ (by omega)
  have hrq : ((m % (2 * c) : Nat) : ℚ) + 1 ≤ 2 * c := by exact_mod_cast hr
  have hr0 : (0 : ℚ) ≤ (m % (2 * c) : Nat) := Nat.cast_nonneg _
  have hsub : y / (2 * c : Nat) - (m / (2 * c) : Nat) = ((m % (2 * c) : Nat) + (y - m)) / (2 * c) := by
    rw [hm]
    push_cast
    field_simp
    ring
  have heq := h.eq_iff
  generalize m / (2 * c) = n at hm hsub ⊢
  refine ⟨?_, ?_, ?_, ?_⟩
  · rw [← sub_nonneg, hsub]
    exact div_nonneg (by linarith) (by linarith)
  · rw [← sub_lt_iff_lt_add', hsub, div_lt_one (by linarith)]
    linarith
  · rw [hsub]
    obtain hcmp | hcmp | hcmp := lt_trichotomy (2 * (m % (2 * c))) (2 * c)
    · have hbelow : ((m % (2 * c) : Nat) : ℚ) + 1 ≤ c := by exact_mod_cast (by omega : m % (2 * c) + 1 ≤ c)
      rw [restOrd_of_lt sticky hcmp, eq_comm, cmp_eq_lt_iff, div_lt_iff₀ (by linarith)]
      linarith
    · have hhalf : ((m % (2 * c) : Nat) : ℚ) = c := by exact_mod_cast (by omega : m % (2 * c) = c)
      rw [restOrd_of_eq sticky hcmp, hhalf, eq_comm]
      cases sticky with
      | true =>
        have hmy : (m : ℚ) < y := h.1
        rw [if_pos rfl, cmp_eq_gt_iff, lt_div_iff₀ (by linarith)]
        linarith
      | false =>
        rw [if_neg Bool.false_ne_true, cmp_eq_eq_iff, div_eq_iff (by linarith), heq.2 rfl]
        ring
    · have habove : (c : ℚ) + 1 ≤ (m % (2 * c) : Nat) := by exact_mod_cast (by omega : c + 1 ≤ m % (2 * c))
      rw [restOrd_of_gt sticky hcmp, eq_comm, cmp_eq_gt_iff, lt_div_iff₀ (by linarith)]
      linarith
  · rw [← sub_eq_zero (a := y / _), hsub, div_eq_zero_iff, or_iff_left (by linarith), Bool.and_eq_true, beq_iff_eq,
      Bool.not_eq_true', ← heq]
    constructor
    · rintro ⟨hz, hy⟩
      simp [hz, hy]
    · intro hz
      exact ⟨by exact_mod_cast (by linarith : ((m % (2 * c) : Nat) : ℚ) = 0), by linarith⟩

end

/-! ### The significand of m × 2^e in units of 2^q -/

/-- The bits of m × 2^e at 2^q and above. -/
def sigKeep (m : Nat) (e q : Int) : Nat := if e < q then m / 2 ^ (q - e).toNat else m * 2 ^ (e - q).toNat

/-- The bits of m × 2^e below 2^q. -/
def sigRest (m : Nat) (e q : Int) : Nat := if e < q then m % 2 ^ (q - e).toNat else 0

/-- How the bits below 2^q compare with half of it. -/
def sigOrd (m : Nat) (e q : Int) (sticky : Bool) : Ordering :=
  if e < q then restOrd (sigRest m e q) (2 ^ (q - e).toNat) sticky else .lt

/-- Whether there is nothing below 2^q. -/
def sigExact (m : Nat) (e q : Int) (sticky : Bool) : Bool := sigRest m e q == 0 && !sticky

/-- The significand at 2^q that the mode selects. -/
def roundSig (mode : Rnd) (neg : Bool) (m : Nat) (e q : Int) (sticky : Bool) : Nat :=
  if roundsUp mode neg (sigKeep m e q % 2 == 1) (sigOrd m e q sticky) (sigExact m e q sticky) then sigKeep m e q + 1 else sigKeep m e q

section
variable {f : Fmt} {m : Nat} {e : Int} {sticky : Bool} {z : ℚ}

theorem Encloses.truncates (h : Encloses f m e sticky z) : Truncates (z / 2 ^ e) m sticky := by
  have hpow : (0 : ℚ) < 2 ^ e := by positivity
  obtain ⟨-, h⟩ := h
  cases sticky with
  | true => exact ⟨(lt_div_iff₀ hpow).2 h.2.1, (div_lt_iff₀ hpow).2 h.2.2⟩
  | false => exact (div_eq_iff hpow.ne').2 h

theorem Truncates.seenAs (h : Truncates (z / 2 ^ e) m sticky) {q : Int} (hq : sticky = true → e < q) :
    SeenAs (z / 2 ^ q) (sigKeep m e q) (sigOrd m e q sticky) (sigExact m e q sticky) := by
  by_cases heq : e < q
  · obtain ⟨n, hn⟩ : ∃ n : Nat, q = e + (n + 1 : Nat) := ⟨(q - e).toNat - 1, by omega⟩
    have hsh : 2 ^ (q - e).toNat = 2 * 2 ^ n := by rw [hn, add_sub_cancel_left, Int.toNat_natCast, Nat.pow_succ']
    have hx : z / 2 ^ q = z / 2 ^ e / (2 * 2 ^ n : Nat) := by
      rw [hn, zpow_add₀ two_ne_zero, zpow_natCast, pow_succ', div_div]
      push_cast
      rfl
    simp only [sigKeep, sigOrd, sigExact, sigRest, if_pos heq, hsh, hx]
    exact h.seenAs_div (Nat.two_pow_pos n)
  · obtain ⟨n, rfl⟩ : ∃ n : Nat, e = q + n := ⟨(e - q).toNat, by omega⟩
    obtain rfl : sticky = false := Bool.eq_false_iff.2 (mt hq heq)
    have hx : z / 2 ^ q = (m * 2 ^ n : Nat) := by
      have hm : z / 2 ^ (q + n : Int) = m := h
      rw [zpow_add₀ two_ne_zero, zpow_natCast] at hm
      push_cast
      rw [← hm]
      field_simp
    simp only [sigKeep, sigOrd, sigExact, sigRest, if_neg heq, add_sub_cancel_left, Int.toNat_natCast, hx]
    exact .of_nat _

end

/-! ### The spacing of a value (08 R147) -/

/-- The exponent of the spacing at m × 2^e. -/
def Fmt.spacing (f : Fmt) (m : Nat) (e : Int) : Int := (if e + m.log2 < f.emin then f.emin else e + m.log2) - f.frac

theorem Fmt.spacing_eq_max (f : Fmt) (m : Nat) (e : Int) : f.spacing m e = Max.max (e + m.log2) f.emin - f.frac := by
  rw [Fmt.spacing, max_def_lt]

theorem Fmt.qmin_le_spacing (f : Fmt) (m : Nat) (e : Int) : f.qmin ≤ f.spacing m e := by
  rw [Fmt.spacing, Fmt.qmin]
  split <;> omega

section
variable {f : Fmt} {m : Nat} {e : Int} {sticky : Bool} {z : ℚ} (h : Encloses f m e sticky z)
include h

theorem Encloses.lt_spacing (hs : sticky = true) : e < f.spacing m e := by
  obtain ⟨hm, h⟩ := h
  rw [if_pos hs] at h
  have hlog := (Nat.le_log2 hm).2 h.1
  rw [Fmt.spacing]
  split <;> omega

/-- In units of its spacing a value has at most the format's precision before the point. -/
theorem Encloses.scaled_lt : z / 2 ^ f.spacing m e < 2 ^ (f.frac + 1) := by
  have hexp : e + (m.log2 + 1 : Nat) ≤ f.spacing m e + (f.frac + 1 : Nat) := by
    rw [Fmt.spacing]
    split <;> omega
  have hm : (m : ℚ) + 1 ≤ 2 ^ (m.log2 + 1) := by exact_mod_cast Nat.lt_log2_self
  have hpow : (2 : ℚ) ^ (m.log2 + 1) * 2 ^ e ≤ 2 ^ (f.frac + 1) * 2 ^ f.spacing m e := by
    rw [← zpow_natCast, ← zpow_natCast, ← zpow_add₀ two_ne_zero, ← zpow_add₀ two_ne_zero]
    exact zpow_le_zpow_right₀ one_le_two (by omega)
  rw [div_lt_iff₀ (by positivity)]
  calc z < (m + 1) * 2 ^ e := (div_lt_iff₀ (by positivity)).1 h.truncates.lt
    _ ≤ 2 ^ (m.log2 + 1) * 2 ^ e := by gcongr
    _ ≤ _ := hpow

/-- A value of a spacing above the subnormals' has the format's precision in full. -/
theorem Encloses.le_scaled (hq : f.spacing m e ≠ f.qmin) : 2 ^ f.frac ≤ z / 2 ^ f.spacing m e := by
  have hexp : f.spacing m e + f.frac = e + m.log2 := by
    rw [Fmt.spacing, Fmt.qmin] at *
    split at hq <;> simp_all
  have hm : (2 : ℚ) ^ m.log2 ≤ m := by exact_mod_cast Nat.log2_self_le h.1
  rw [le_div_iff₀ (by positivity)]
  calc (2 : ℚ) ^ f.frac * 2 ^ f.spacing m e = 2 ^ m.log2 * 2 ^ e := by
        rw [← zpow_natCast, ← zpow_natCast, ← zpow_add₀ two_ne_zero, ← zpow_add₀ two_ne_zero, add_comm, hexp, add_comm]
    _ ≤ m * 2 ^ e := by gcongr
    _ ≤ z := (le_div_iff₀ (by positivity)).1 h.truncates.le

theorem Encloses.seenAs : SeenAs (z / 2 ^ f.spacing m e) (sigKeep m e (f.spacing m e)) (sigOrd m e (f.spacing m e) sticky)
    (sigExact m e (f.spacing m e) sticky) :=
  h.truncates.seenAs h.lt_spacing

theorem Encloses.roundSig_roundedTo (mode : Rnd) (neg : Bool) :
    RoundedTo mode neg (z / 2 ^ f.spacing m e) (roundSig mode neg m e (f.spacing m e) sticky) :=
  h.seenAs.roundedTo mode neg

theorem Encloses.roundSig_le (mode : Rnd) (neg : Bool) : roundSig mode neg m e (f.spacing m e) sticky ≤ 2 ^ (f.frac + 1) := by
  have hk := (abs_sub_lt_iff.1 (h.roundSig_roundedTo mode neg).abs_sub_lt_one).2
  have hx := h.scaled_lt
  exact Nat.lt_succ_iff.1 (by exact_mod_cast (by linarith : (roundSig mode neg m e (f.spacing m e) sticky : ℚ) < 2 ^ (f.frac + 1) + 1))

theorem Encloses.le_roundSig (mode : Rnd) (neg : Bool) (hq : f.spacing m e ≠ f.qmin) :
    2 ^ f.frac ≤ roundSig mode neg m e (f.spacing m e) sticky := by
  have hk := (abs_sub_lt_iff.1 (h.roundSig_roundedTo mode neg).abs_sub_lt_one).1
  have hx := h.le_scaled hq
  exact Nat.lt_succ_iff.1 (by exact_mod_cast (by linarith : (2 : ℚ) ^ f.frac < roundSig mode neg m e (f.spacing m e) sticky + 1))

/-- The rounded value is the value itself where nothing lies below the spacing. -/
theorem Encloses.roundSig_eq_iff (mode : Rnd) (neg : Bool) :
    (roundSig mode neg m e (f.spacing m e) sticky : ℚ) * 2 ^ f.spacing m e = z ↔ sigExact m e (f.spacing m e) sticky = true := by
  have hseen := h.seenAs
  rw [← eq_div_iff (by positivity), (h.roundSig_roundedTo mode neg).eq_iff hseen.le hseen.lt, hseen.exact_iff]

end

end Sys2Proof.Machine
end

section
/-! Encodings in the order of their magnitudes, and `RoundTo` of a nonzero value (08 R140 to R143, R146 to R148). -/

namespace Sys2Proof.Machine

/-! ### Magnitudes of encodings -/

/-- The magnitude of an unsigned encoding, every exponent taken as an ordinary one. -/
def Fmt.mag (f : Fmt) (enc : Nat) : ℚ :=
  (enc - (enc / 2 ^ f.frac - 1) * 2 ^ f.frac : Nat) * 2 ^ (f.qmin + (enc / 2 ^ f.frac - 1 : Nat))

/-- A significand of at most the format's precision, carried out of its binade or not, is packed by adding it to the exponent. -/
theorem Fmt.mag_add (f : Fmt) {j k : Nat} (hk : k ≤ 2 ^ (f.frac + 1)) (hj : j ≠ 0 → 2 ^ f.frac ≤ k) :
    f.mag (k + j * 2 ^ f.frac) = k * 2 ^ (f.qmin + j) := by
  have hpos := Nat.two_pow_pos f.frac
  rw [Nat.pow_succ'] at hk
  rw [Fmt.mag, Nat.add_mul_div_right _ _ hpos]
  obtain hlt | rfl := hk.lt_or_eq
  · have hexp : k / 2 ^ f.frac + j - 1 = j := by
      have hdiv : k / 2 ^ f.frac < 2 := Nat.div_lt_of_lt_mul (by rwa [Nat.mul_comm])
      by_cases h0 : j = 0
      · omega
      · have := Nat.div_pos (hj h0) hpos
        omega
    rw [hexp, Nat.add_sub_cancel]
  · rw [Nat.mul_div_cancel _ hpos, show 2 + j - 1 = j + 1 by omega, Nat.add_mul, Nat.one_mul,
      show 2 * 2 ^ f.frac + j * 2 ^ f.frac - (j * 2 ^ f.frac + 2 ^ f.frac) = 2 ^ f.frac by omega]
    push_cast
    rw [← add_assoc, zpow_add_one₀ two_ne_zero]
    ring

/-- An encoding is a significand packed with an exponent. -/
theorem Fmt.exists_packed (f : Fmt) (enc : Nat) :
    ∃ j k, enc = k + j * 2 ^ f.frac ∧ k < 2 ^ (f.frac + 1) ∧ (j ≠ 0 → 2 ^ f.frac ≤ k) := by
  have hdm := Nat.div_add_mod' enc (2 ^ f.frac)
  have hmod := Nat.mod_lt enc (Nat.two_pow_pos f.frac)
  rw [Nat.pow_succ']
  cases hE : enc / 2 ^ f.frac with
  | zero => exact ⟨0, enc, by omega, by rw [hE] at hdm; omega, by simp⟩
  | succ j =>
    rw [hE, Nat.add_mul, Nat.one_mul] at hdm
    exact ⟨j, 2 ^ f.frac + enc % 2 ^ f.frac, by omega, by omega, by omega⟩

theorem Fmt.mag_strictMono (f : Fmt) : StrictMono f.mag := by
  refine strictMono_nat_of_lt_succ fun enc => ?_
  obtain ⟨j, k, rfl, hk, hj⟩ := f.exists_packed enc
  rw [show k + j * 2 ^ f.frac + 1 = k + 1 + j * 2 ^ f.frac by omega, f.mag_add hk.le hj, f.mag_add hk fun h => (hj h).trans k.le_succ]
  push_cast
  gcongr
  linarith

/-! ### Reading an encoding back (08 R140 to R143, R146) -/

/-- An encoding up to that of the largest finite value has room for a sign and is no NaN or infinity code. -/
theorem fmtOf_le_maxEnc (t : FTy) {enc : Nat} (h : enc ≤ (fmtOf t).maxEnc) :
    enc / 2 ^ (fmtOf t).frac < 2 ^ (fmtOf t).exp ∧
      ¬ (enc / 2 ^ (fmtOf t).frac = 2 ^ (fmtOf t).exp - 1 ∧ ((!(fmtOf t).isF8a) = true ∨ enc % 2 ^ (fmtOf t).frac = 7)) := by
  cases t <;> simp [fmtOf, Fmt.maxEnc, Fmt.isF8a] at h ⊢ <;> omega

section
variable (f : Fmt) (neg : Bool) {enc : Nat} (h : enc / 2 ^ f.frac < 2 ^ f.exp)
include h

theorem Fmt.lt_signBit : enc < f.signBit := by
  rw [Fmt.signBit, Nat.pow_add]
  exact Nat.lt_mul_of_div_lt h (Nat.two_pow_pos _)

theorem Fmt.signed_lt : f.signed neg enc < 2 ^ f.bits := by
  have henc := f.lt_signBit h
  rw [Fmt.bits, Nat.add_assoc, Nat.add_comm, Nat.pow_succ', ← Fmt.signBit, Fmt.signed]
  split <;> omega

theorem Fmt.bitOf_signed : bitOf (f.signed neg enc) (f.exp + f.frac) = neg := by
  have henc := f.lt_signBit h
  rw [bitOf_eq]
  cases neg with
  | false => exact Nat.testBit_lt_two_pow henc
  | true => exact (Nat.testBit_two_pow_add_eq ..).trans (by rw [Nat.testBit_lt_two_pow henc]; rfl)

theorem Fmt.bitsOf_signed_exp : bitsOf (f.signed neg enc) f.frac f.exp = enc / 2 ^ f.frac := by
  rw [bitsOf, Fmt.signed]
  split
  · rw [Fmt.signBit, Nat.pow_add, Nat.add_comm, Nat.add_mul_div_right _ _ (Nat.two_pow_pos _), Nat.add_mod_right, Nat.mod_eq_of_lt h]
  · exact Nat.mod_eq_of_lt h

omit h in
theorem Fmt.bitsOf_signed_frac : bitsOf (f.signed neg enc) 0 f.frac = enc % 2 ^ f.frac := by
  rw [bitsOf, Nat.pow_zero, Nat.div_one, Fmt.signed]
  split
  · rw [Fmt.signBit, Nat.pow_add, Nat.mul_add_mod_self_right]
  · rfl

/-- A signed encoding of a finite value reads back as its sign and its magnitude. -/
theorem Fmt.decode_signed (hfin : ¬ (enc / 2 ^ f.frac = 2 ^ f.exp - 1 ∧ ((!f.isF8a) = true ∨ enc % 2 ^ f.frac = 7))) :
    ∃ n x, f.decode (f.signed neg enc) = .fin neg n x ∧ n * (2 : ℚ) ^ x = f.mag enc := by
  have hdm := Nat.div_add_mod' enc (2 ^ f.frac)
  simp only [Fmt.decode, f.bitOf_signed neg h, f.bitsOf_signed_exp neg h, f.bitsOf_signed_frac, if_neg hfin]
  cases hE : enc / 2 ^ f.frac with
  | zero =>
    refine ⟨_, _, if_pos rfl, ?_⟩
    simp only [hE, Nat.zero_mul, Nat.zero_add] at hdm
    simp [Fmt.mag, hE, hdm]
  | succ j =>
    refine ⟨_, _, if_neg j.succ_ne_zero, ?_⟩
    rw [hE, Nat.add_mul, Nat.one_mul] at hdm
    rw [Fmt.mag, hE, Nat.add_sub_cancel, show enc - j * 2 ^ f.frac = 2 ^ f.frac + enc % 2 ^ f.frac by omega]
    congr 2
    omega

end

theorem fmtOf_decode_signed (t : FTy) (neg : Bool) {enc : Nat} (h : enc ≤ (fmtOf t).maxEnc) :
    ((fmtOf t).decode ((fmtOf t).signed neg enc)).rat = (if neg then -1 else 1) * (fmtOf t).mag enc ∧
      ((fmtOf t).decode ((fmtOf t).signed neg enc)).neg = neg := by
  obtain ⟨hroom, hfin⟩ := fmtOf_le_maxEnc t h
  obtain ⟨n, x, hdec, hmag⟩ := (fmtOf t).decode_signed neg hroom hfin
  rw [hdec, ← hmag]
  exact ⟨rfl, rfl⟩

theorem fmtOf_maxRat (t : FTy) : (fmtOf t).maxRat = (fmtOf t).mag (fmtOf t).maxEnc :=
  (fmtOf_decode_signed t false le_rfl).1.trans (one_mul _)

/-! ### `RoundTo` of a nonzero value (08 R147, R148) -/

/-- The encoding of a significand at 2^q. -/
def Fmt.packed (f : Fmt) (q : Int) (k : Nat) : Nat := k + (q - f.qmin).toNat * 2 ^ f.frac

theorem Fmt.mag_packed (f : Fmt) {q : Int} {k : Nat} (hq : f.qmin ≤ q) (hk : k ≤ 2 ^ (f.frac + 1)) (hfull : q ≠ f.qmin → 2 ^ f.frac ≤ k) :
    f.mag (f.packed q k) = k * 2 ^ q := by
  rw [Fmt.packed, f.mag_add hk fun h => hfull (by omega), Int.toNat_of_nonneg (by omega), add_sub_cancel]

/-- A rounded value lies below the smallest normal one exactly if its significand lacks the leading bit. -/
theorem Fmt.lt_emin_iff (f : Fmt) {q : Int} {k : Nat} (hq : f.qmin ≤ q) (hfull : q ≠ f.qmin → 2 ^ f.frac ≤ k) :
    (k : ℚ) * 2 ^ q < 2 ^ f.emin ↔ k < 2 ^ f.frac := by
  have hemin : (2 : ℚ) ^ f.emin = 2 ^ f.frac * 2 ^ f.qmin := by
    rw [← zpow_natCast, ← zpow_add₀ two_ne_zero, Fmt.qmin, add_sub_cancel]
  rw [hemin]
  constructor
  · contrapose!
    intro hk
    gcongr
    · exact_mod_cast hk
    · exact one_le_two
  · intro hk
    obtain rfl : q = f.qmin := by_contra fun hne => absurd (hfull hne) hk.not_ge
    gcongr
    exact_mod_cast hk

/-- Whether an overflow goes to the infinity (08 R147). -/
def overflowsAway (mode : Rnd) (neg : Bool) : Bool :=
  match mode with
  | .rz => false
  | .rp => !neg
  | .rm => neg
  | _ => true

theorem overflow_eq (f : Fmt) (r : RM) (neg : Bool) :
    ((overflowEnc f r neg, OF ||| NX) : FRes) =
      if !f.narrow && overflowsAway r.mode neg && !r.sat then (f.signed neg f.infEnc, OF ||| NX) else (f.signed neg f.maxEnc, OF ||| NX) := by
  change (f.signed neg (if f.narrow || r.sat || !overflowsAway r.mode neg then _ else _), _) = _
  cases f.narrow <;> cases r.sat <;> cases overflowsAway r.mode neg <;> rfl

/-- `roundReal` packs the significand that the mode selects at the value's spacing. -/
theorem Fmt.roundReal_eq (f : Fmt) (r : RM) (neg : Bool) (m : Nat) (e : Int) (sticky : Bool) {q : Int} {k : Nat} (hq : q = f.spacing m e)
    (hk : k = roundSig r.mode neg m e q sticky) :
    f.roundReal r neg m e sticky =
      if f.maxEnc < f.packed q k then (overflowEnc f r neg, OF ||| NX)
      else (f.signed neg (f.packed q k), if sigExact m e q sticky then 0 else if k < 2 ^ f.frac then UF ||| NX else NX) := by
  subst hk hq
  rw [overflow_eq]
  rfl

/-- Settles O13: the significand that the mode selects at the value's spacing, packed with its exponent, is the encoding of the rounded
value, and encodings are ordered as their magnitudes. -/
theorem roundToIsCorrect : Obligations.RoundToIsCorrect := by
  unfold Obligations.RoundToIsCorrect
  intro t r neg m e sticky z f h
  rw [← f.spacing_eq_max]
  intro q out
  obtain ⟨k, hk⟩ : ∃ k, k = roundSig r.mode neg m e q sticky := ⟨_, rfl⟩
  have hq : f.qmin ≤ q := f.qmin_le_spacing m e
  have hround : RoundedTo r.mode neg (z / 2 ^ q) k := hk ▸ h.roundSig_roundedTo r.mode neg
  have hfull : q ≠ f.qmin → 2 ^ f.frac ≤ k := hk ▸ h.le_roundSig r.mode neg
  have hexact : (k : ℚ) * 2 ^ q = z ↔ sigExact m e q sticky = true := hk ▸ h.roundSig_eq_iff r.mode neg
  have hmag : f.mag (f.packed q k) = k * 2 ^ q := f.mag_packed hq (hk ▸ h.roundSig_le r.mode neg) hfull
  have hfits : (k : ℚ) * 2 ^ q ≤ f.maxRat ↔ f.packed q k ≤ f.maxEnc := by
    rw [← hmag, fmtOf_maxRat, f.mag_strictMono.le_iff_le]
  have hout : out = _ := f.roundReal_eq r neg m e sticky (q := q) rfl hk
  refine ⟨k, hround, ?_⟩
  split
  case isTrue hfit =>
    have henc := hfits.1 hfit
    obtain ⟨hrat, hneg⟩ := fmtOf_decode_signed t neg henc
    rw [hout, if_neg henc.not_gt, ← hmag]
    refine ⟨hrat, hneg, f.signed_lt neg (fmtOf_le_maxEnc t henc).1, ?_⟩
    simp only [hmag, hexact, f.lt_emin_iff hq hfull]
  case isFalse hover => rw [hout, if_pos (not_le.1 (mt hfits.2 hover))]

end Sys2Proof.Machine
end

section
/-! The frames of the floating-point words (09 R160, R162): one result register, two, or a predicate, with the flags of each active lane. -/

namespace Sys2Proof.Machine

/-! ### What the checks say of a word's formats (05 R79) -/

theorem Ready.mods_ok {i : Instr} {s : State} {g : Group} (h : Ready i s g) : i.modsOk = true := by
  have hlegal := h.legal
  simp only [checkWord, Instr.legalOk] at hlegal
  cases hmods : i.modsOk with
  | true => rfl
  | false =>
    simp only [hmods, Bool.false_and, Bool.not_false, Bool.true_or, if_true] at hlegal
    split_ifs at hlegal

theorem FTy.isFour_iff (t : FTy) : t.isFour = true ↔ (fmtOf t).narrow = false := by cases t <;> decide

theorem FTy.narrow_of_isWide {t : FTy} (h : t.isWide = true) : (fmtOf t).narrow = false := by
  cases t
  case f64 | f32 => rfl
  all_goals cases h

/-! ### One result register -/

/-- A lane word whose first operand is its vector destination writes there the encodings that its function gives, with their flags. -/
theorem Ready.floatResult {i : Instr} {s : State} {g : Group} {gd : Guard} {d : Reg} {w : Nat} {reads : Bool} {os : List Opnd}
    {f : Group → Entry → Nat → FRes} (h : Ready i s g) (ht : ∀ a, targetFault i a = none)
    (hx : exec i s = Sys2Proof.Machine.laneFloat i gd s fun g e l => oneOut d w (f g e l))
    (ho : i.operands = ⟨.vec, d.toNat, w, reads, true⟩ :: os) (hw : w = 1 ∨ w = 2 ∨ w = 4) :
    FloatWrites i gd d w s g (f g (s.frag g)) :=
  h.laneFloat ht hx (h.vec_fits (ho ▸ List.mem_cons_self) hw)

/-! ### Flags beside other writes -/

/-- A write that passes by flags, made with flags lane by lane, is all the writes, then all the flags. -/
theorem Group.foldl_with_raise (step : Group → Nat → Group) (fl : Nat → Flags) (hpast : ∀ g l x, step (g.raise x) l = (step g l).raise x) :
    ∀ (ls : List Nat) (g : Group), ls.foldl (fun acc l => (step acc l).raise (fl l)) g =
      (ls.foldl step g).raise (ls.foldl (fun x l => x ||| fl l) 0) := by
  intro ls
  induction ls using List.reverseRecOn with
  | nil => intro g; simp [Group.raise]
  | append_singleton ls a ih =>
    intro g
    simp only [List.foldl_append, List.foldl_cons, List.foldl_nil, ih, hpast, Group.raise_raise]

/-- The flags of all lanes together are those taken in one after another. -/
theorem Group.raise_foldl (g : Group) (fl : Nat → Flags) (ls : List Nat) :
    g.raise (ls.foldl (fun x l => x ||| fl l) 0) = { g with fpstat := ls.foldl (fun x l => x ||| fl l) g.fpstat } := by
  rw [Group.raise, ← Group.foldl_raise g fl ls 0]
  simp

/-! ### A predicate (09 R168) -/

/-- A lane word that writes one predicate and raises flags in each active lane. -/
theorem Ready.predWithFlags {i : Instr} {s : State} {g : Group} {gd : Guard} {d : Reg} {os : List Opnd} {f : Group → Nat → Bool × Flags}
    (h : Ready i s g) (ht : ∀ a, targetFault i a = none)
    (hx : exec i s = lanewise i gd s fun g _ ls => .group s (ls.foldl (fun acc l => (acc.wrP l d.toNat (f g l).1).raise (f g l).2) g))
    (ho : i.operands = pDst d :: os) :
    ∃ g1, Completes i s { g1 with fpstat := (s.lanes g gd).foldl (fun x l => x ||| (f g l).2) g.fpstat } ∧
      PredWritten g g1 (s.lanes g gd) d.toNat fun l => (f g l).1 := by
  have hpred := Group.foldl_wrP (fun l => (f g l).1) d.toNat (h.pred_fits (r := false) (x := true) (ho ▸ List.mem_cons_self))
    (s.lanes g gd) g
  have hflags : ((s.lanes g gd).foldl (fun acc l => acc.wrP l d.toNat (f g l).1) g).fpstat = g.fpstat := by rw [hpred.1]
  refine ⟨_, ⟨?_, fun a => by simp⟩, hpred⟩
  rw [hx, ← hflags, ← Group.raise_foldl, ← Group.foldl_with_raise _ _ fun g l x => Group.wrP_raise g x l _ _]
  refine h.issue_done (ht _) rfl ?_
  rw [Group.foldl_with_raise _ _ fun g l x => Group.wrP_raise g x l _ _]
  exact congrArg Entry.pos (hpred.ent s.cur.entry)

/-! ### Two result registers (09 R170, R178) -/

section
variable (v u : Nat → Nat) (d w e : Nat)

/-- Each lane's first register, then its second. -/
def Group.wrPair (g : Group) (l : Nat) : Group := (g.wrVs l d w (v l)).wrVs l e 1 (u l)

theorem Group.foldl_wrPair_only (ls : List Nat) (g : Group) :
    ls.foldl (Group.wrPair v u d w e) g = { g with regs := { g.regs with
      v := (ls.foldl (Group.wrPair v u d w e) g).regs.v, badV := (ls.foldl (Group.wrPair v u d w e) g).regs.badV } } := by
  induction ls using List.reverseRecOn with
  | nil => rfl
  | append_singleton ls a ih =>
    simp only [List.foldl_append, List.foldl_cons, List.foldl_nil]
    exact Group.onlyV_trans ih (Group.onlyV_trans (Group.wrVs_regs ..) (Group.wrVs_regs ..))

/-- Pairs written lane by lane are the first registers of all lanes, then the second of all. -/
theorem Group.foldl_wrPair (hd : d + w ≤ 256) (he : e + 1 ≤ 256) (ls : List Nat) (g : Group) :
    VecWritten (ls.foldl (fun acc l => acc.wrVs l d w (v l)) g) (ls.foldl (Group.wrPair v u d w e) g) ls e 1 u := by
  refine ⟨?only, fun l n hl hn => ?reads⟩
  case only =>
    rw [Group.foldl_wrPair_only, (Group.foldl_wrVs v d w hd ls g).1]
  case reads =>
    induction ls using List.reverseRecOn with
    | nil => simp
    | append_singleton ls a ih =>
      simp only [List.foldl_append, List.foldl_cons, List.foldl_nil, Group.wrPair, List.mem_append, List.mem_singleton]
      rw [Group.rdV_wrVs _ _ _ _ _ _ _ he hn, Group.rdV_wrVs _ _ _ _ _ _ _ hd hn, Group.badV_wrVs _ _ _ _ _ _ _ he hn,
        Group.badV_wrVs _ _ _ _ _ _ _ hd hn, Group.rdV_wrVs _ _ _ _ _ _ _ hd hn, Group.badV_wrVs _ _ _ _ _ _ _ hd hn]
      by_cases hrange : e ≤ n ∧ n < e + 1
      · by_cases hla : l = a
        · simp [hla, hrange]
        · simp [hla, hrange] at ih ⊢
          exact ih
      · simp only [hrange, and_false, if_false, not_false_eq_true, and_true] at ih ⊢
        exact ⟨by rw [ih.1], by rw [ih.2]⟩

end

/-- A lane word that writes two registers and raises flags in each active lane, the second after the first. -/
theorem Ready.pairResult {i : Instr} {s : State} {g : Group} {gd : Guard} {d e : Reg} {w : Nat} {a : Opnd}
    {f : Group → Nat → Nat × Nat × Flags} (h : Ready i s g) (ht : ∀ a, targetFault i a = none)
    (hx : exec i s = Sys2Proof.Machine.laneFloat i gd s fun g _ l =>
      ([(d.toNat, w, (f g l).1), (e.toNat, 1, (f g l).2.1)], (f g l).2.2))
    (ho : i.operands = [vDst d w, a, vDst e 1]) (hw : w = 1 ∨ w = 2 ∨ w = 4) :
    ∃ g1 g2, Completes i s { g2 with fpstat := (s.lanes g gd).foldl (fun x l => x ||| (f g l).2.2) g.fpstat } ∧
      VecWritten g g1 (s.lanes g gd) d.toNat w (fun l => (f g l).1) ∧ VecWritten g1 g2 (s.lanes g gd) e.toNat 1 fun l => (f g l).2.1 := by
  have hd := h.vec_fits (d := d) (r := false) (x := true) (by simp [ho, vDst]) hw
  have he := h.vec_fits (d := e) (w := 1) (r := false) (x := true) (by simp [ho, vDst]) (.inl rfl)
  have hfirst := Group.foldl_wrVs (fun l => (f g l).1) d.toNat w hd (s.lanes g gd) g
  have hsecond := Group.foldl_wrPair (fun l => (f g l).1) (fun l => (f g l).2.1) d.toNat w e.toNat hd he (s.lanes g gd) g
  have hpast (g' : Group) (l : Nat) (x : Flags) :
      Group.wrPair (fun l => (f g l).1) (fun l => (f g l).2.1) d.toNat w e.toNat (g'.raise x) l =
        (Group.wrPair (fun l => (f g l).1) (fun l => (f g l).2.1) d.toNat w e.toNat g' l).raise x := by
    simp only [Group.wrPair, Group.wrVs_raise]
  have hflags := congrArg Group.fpstat (Group.foldl_wrPair_only (fun l => (f g l).1) (fun l => (f g l).2.1) d.toNat w e.toNat (s.lanes g gd) g)
  refine ⟨_, _, ⟨?_, fun a => by simp⟩, hfirst, hsecond⟩
  rw [hx, ← show _ = g.fpstat from hflags, ← Group.raise_foldl, ← Group.foldl_with_raise _ _ hpast]
  refine h.issue_done (ht _) rfl ?_
  rw [Group.foldl_with_raise _ _ hpast]
  exact congrArg Entry.pos ((hsecond.ent _).trans (hfirst.ent _))

end Sys2Proof.Machine
end

section
/-! Sums and products (08 R149, R153; 09 R163, R165, R180): the NaN rule, the exact sum rounded once, exact products, dot groups. -/

namespace Sys2Proof.Machine

/-! ### The NaN rule (09 R163) -/

section
variable (f : Fmt) {xs : List FVal} (k : FRes)

theorem Fmt.nanRule_of_nan (h : ∃ x ∈ xs, x.isNan = true) : NanRule f xs (f.nanRule xs k) := by
  obtain ⟨x, hfind⟩ := Option.isSome_iff_exists.1 (List.find?_isSome.2 h)
  rw [Fmt.nanRule, hfind]
  exact ⟨x, hfind, rfl, rfl⟩

theorem Fmt.nanRule_of_numbers (h : ∀ x ∈ xs, x.isNan = false) : f.nanRule xs k = k := by
  rw [Fmt.nanRule, List.find?_eq_none.2 fun x hx => by simp [h x hx]]

end

section
variable (f : Fmt) {x y : FVal} (k : FRes)

theorem Fmt.nanRule_pair_of_nan (h : x.isNan ∨ y.isNan) : NanRule f [x, y] (f.nanRule [x, y] k) :=
  f.nanRule_of_nan k (by simpa using h)

theorem Fmt.nanRule_pair_of_numbers (hx : x.isNan = false) (hy : y.isNan = false) : f.nanRule [x, y] k = k :=
  f.nanRule_of_numbers k (by simp [hx, hy])

end

/-! ### Sums (08 R153) -/

theorem zeroSign_eq (mode : Rnd) (ts : List FVal) : zeroSign mode ts = zeroRule mode ts := by
  rw [zeroSign, zeroRule]
  generalize (ts.all fun t => t.isZero && t.neg) = allNeg
  generalize (ts.all fun t => t.isZero && !t.neg) = allPos
  by_cases hrm : mode = .rm
  · cases allNeg <;> cases allPos <;> simp [hrm]
  · cases allNeg <;> simp [hrm]

theorem Fmt.roundTo_inf {f : Fmt} (hf : f.narrow = false) (m : RM) (n : Bool) : f.roundTo m (.inf n) = (f.signed n f.infEnc, 0) := by
  simp [Fmt.roundTo, hf]

@[simp] theorem Fmt.roundTo_zero (f : Fmt) (m : RM) (n : Bool) (e : Int) : f.roundTo m (.fin n 0 e) = (f.signed n 0, 0) := rfl

theorem Fmt.roundTo_exactSum (f : Fmt) (m : RM) (ts : List FVal) :
    RoundsOnce f m (ts.map FVal.rat).sum (zeroRule m.mode ts) (f.roundTo m (exactSum m.mode ts)) := by
  have hround := sum_roundsOnce f m (zeroRule m.mode ts) ts
  rw [exactSum]
  split <;> rename_i hzero
  · rw [if_pos hzero] at hround
    rw [zeroSign_eq]
    exact hround
  · rw [if_neg hzero] at hround
    exact hround

/-- A sum: opposite infinities, then an infinity, then the exact sum. -/
theorem Fmt.sum_rule {f : Fmt} (hf : f.narrow = false) (m : RM) (ts : List FVal) : SumRule f m ts (f.sum m ts) := by
  simp only [SumRule, Fmt.sum, ← any_posInf_iff, ← any_negInf_iff, f.roundTo_inf hf]
  cases ts.any fun t => t.isInf && !t.neg <;> cases ts.any fun t => t.isInf && t.neg
  case false.false => exact f.roundTo_exactSum m ts
  all_goals rfl

/-! ### Products (08 R153) -/

theorem zeroInf_iff (x y : FVal) : zeroInf x y = true ↔ ZeroTimesInf x y := by
  simp [zeroInf, ZeroTimesInf]

theorem exactMul_isProduct {x y : FVal} (hx : x.isNan = false) (hy : y.isNan = false) : IsProduct x y (exactMul x y) := by
  cases x with
  | nan => cases hx
  | inf a => cases y <;> simp [IsProduct, exactMul, FVal.neg, FVal.isNan, FVal.isInf]
  | fin a m e =>
    cases y with
    | nan => cases hy
    | inf b => simp [IsProduct, exactMul, FVal.neg, FVal.isNan, FVal.isInf]
    | fin b n k =>
      have hzero := FVal.isZero_iff (v := .fin (a != b) (m * n) (e + k)) rfl rfl
      have hrat : (FVal.fin (a != b) (m * n) (e + k)).rat = (FVal.fin a m e).rat * (FVal.fin b n k).rat := by
        simp only [FVal.rat]
        rw [zpow_add₀ two_ne_zero]
        push_cast
        cases a <;> cases b <;> simp <;> ring
      exact ⟨rfl, rfl, by simpa [FVal.isInf, exactMul] using ⟨hrat, hzero⟩⟩

theorem FVal.rat_fin_eq_zero {n : Bool} {m : Nat} {e : Int} : (FVal.fin n m e).rat = 0 ↔ m = 0 := by
  rw [← FVal.isZero_iff (v := .fin n m e) rfl rfl]
  cases m <;> simp [FVal.isZero]

/-- A finite value rounded once. -/
theorem Fmt.roundTo_fin_roundsOnce (f : Fmt) (m : RM) (n : Bool) (k : Nat) (e : Int) :
    RoundsOnce f m (FVal.fin n k e).rat n (f.roundTo m (.fin n k e)) := by
  refine ⟨fun hzero => ?_, fun _ => ⟨n, k, e, rfl, rfl⟩⟩
  obtain rfl := FVal.rat_fin_eq_zero.1 hzero
  rfl

/-! ### The operations (09 R165) -/

theorem Fmt.add_rule {f : Fmt} (hf : f.narrow = false) (m : RM) (x y : FVal) : AddRule f m x y (f.add m x y) := by
  rw [AddRule, Fmt.add]
  split
  case isTrue hnan => exact f.nanRule_pair_of_nan _ hnan
  case isFalse hnan =>
    simp only [not_or, Bool.not_eq_true] at hnan
    rw [f.nanRule_pair_of_numbers _ hnan.1 hnan.2]
    exact f.sum_rule hf m [x, y]

theorem Fmt.mul_rule {f : Fmt} (hf : f.narrow = false) (m : RM) (x y : FVal) : MulRule f m x y (f.mul m x y) := by
  rw [MulRule, Fmt.mul]
  split
  case isTrue hnan => exact f.nanRule_pair_of_nan _ hnan
  case isFalse hnan =>
    simp only [not_or, Bool.not_eq_true] at hnan
    simp only [f.nanRule_pair_of_numbers _ hnan.1 hnan.2, zeroInf_iff]
    obtain ⟨hneg, hnum, hprod⟩ := exactMul_isProduct hnan.1 hnan.2
    rw [← hneg]
    split
    case isTrue => rfl
    case isFalse =>
      split
      case isTrue hinf =>
        rw [if_pos hinf] at hprod
        cases hp : exactMul x y with
        | inf n => exact f.roundTo_inf hf m n
        | nan | fin => rw [hp] at hprod; cases hprod
      case isFalse hinf =>
        rw [if_neg hinf] at hprod
        obtain ⟨hfin, hrat, -⟩ := hprod
        rw [← hrat]
        cases hp : exactMul x y with
        | fin n k e => exact f.roundTo_fin_roundsOnce m n k e
        | nan => rw [hp] at hnum; cases hnum
        | inf => rw [hp] at hfin; cases hfin

theorem Fmt.fma_rule {f : Fmt} (hf : f.narrow = false) (m : RM) (x y z : FVal) : FmaRule f m x y z (f.fma m x y z) := by
  simp only [FmaRule, Fmt.fma, zeroInf_iff]
  split
  case isTrue hnan =>
    have hmem : ∃ v ∈ [x, y, z], v.isNan = true := by simpa using hnan
    split
    case isTrue =>
      have hrule := f.nanRule_of_nan f.invalid hmem
      obtain ⟨_, -, -, hflags⟩ := id hrule
      refine ⟨_, hrule, ?_⟩
      rw [hflags]
      split <;> rfl
    case isFalse => exact f.nanRule_of_nan _ hmem
  case isFalse hnan =>
    simp only [not_or, Bool.not_eq_true] at hnan
    obtain ⟨hx, hy, hz⟩ := hnan
    simp only [f.nanRule_of_numbers (xs := [x, y, z]) _ (by simp [hx, hy, hz])]
    split
    case isTrue => exact congrArg (Prod.mk f.canon) (BitVec.or_self (x := NV))
    case isFalse => exact ⟨_, exactMul_isProduct hx hy, f.sum_rule hf m _⟩

/-! ### Dot groups (08 R153) -/

theorem any_zip_flatMap (p : FVal → Bool) : ∀ {as bs : List FVal}, as.length = bs.length →
    ((as.zip bs).flatMap fun q => [q.1, q.2]).any p = (as.any p || bs.any p)
  | [], [], _ => rfl
  | a :: as, b :: bs, h => by
    have ih := any_zip_flatMap p (as := as) (bs := bs) (Nat.succ.inj h)
    simp only [List.zip_cons_cons, List.flatMap_cons, List.cons_append, List.nil_append, List.any_cons, ih]
    cases p a <;> cases p b <;> cases as.any p <;> rfl

theorem Fmt.dot_rule {f : Fmt} (hf : f.narrow = false) (m : RM) (acc : FVal) {as bs : List FVal} (h : as.length = bs.length) :
    DotRule f m acc as bs (f.dot m acc (as.zip bs)) := by
  have hops (p : FVal → Bool) : (acc :: (as.zip bs).flatMap fun q => [q.1, q.2]).any p = (acc :: as ++ bs).any p := by
    rw [List.any_cons, any_zip_flatMap p h, List.cons_append, List.any_cons, List.any_append]
  simp only [DotRule, Fmt.dot, hops, List.any_eq_true (p := FVal.isNan), List.any_eq_true (l := as.zip bs), zeroInf_iff]
  split
  case isTrue => rfl
  case isFalse hnan =>
    split
    case isTrue => rfl
    case isFalse =>
      have hnum (x : FVal) (hx : x ∈ acc :: as ++ bs) : x.isNan = false := Bool.eq_false_iff.2 fun hn => hnan ⟨x, hx, hn⟩
      refine ⟨_, List.forall₂_map_right_iff.2 (List.forall₂_same.2 fun p hp => ?_), f.sum_rule hf m _⟩
      obtain ⟨ha, hb⟩ := List.of_mem_zip (a := p.1) (b := p.2) hp
      exact exactMul_isProduct (hnum _ (by simp [ha])) (hnum _ (by simp [hb]))

end Sys2Proof.Machine
end

section
/-! `fadd`, `fsub`, `fmul`, `ffma` (09 R165) and the lane dot groups (09 R180). -/

namespace Sys2Proof.Machine

/-- Settles O7: each word rounds its exact sum or product once, by the rule of its operation. -/
theorem floatArithmetic : Obligations.FloatArithmetic := by
  unfold Obligations.FloatArithmetic
  intro s g gd t r sat d a b c f m
  refine ⟨fun h => ?fadd, fun h => ?fsub, fun h => ?fmul, fun h => ?ffma⟩
  case fadd | fsub =>
    exact ⟨_, h.floatResult (fun _ => rfl) rfl rfl t.width_cases, fun l => Fmt.add_rule ((FTy.isFour_iff t).1 h.mods_ok) m _ _⟩
  case fmul =>
    exact ⟨_, h.floatResult (fun _ => rfl) rfl rfl t.width_cases, fun l => Fmt.mul_rule ((FTy.isFour_iff t).1 h.mods_ok) m _ _⟩
  case ffma =>
    exact ⟨_, h.floatResult (fun _ => rfl) rfl rfl t.width_cases, fun l => Fmt.fma_rule ((FTy.isFour_iff t).1 h.mods_ok) m _ _ _⟩

/-- The elements of a packed operand, each as its bits. -/
theorem packed_eq_map (t : FTy) (n w x : Nat) : packed t n w x = (List.range n).map fun i => (fmtOf t).decode ((x >>> (w * i)) % 2 ^ w) := by
  simp only [packed, bitsOf, Nat.shiftRight_eq_div_pow]

/-- Settles O12: each word is one dot group over the elements of its packed operands. -/
theorem laneDotProducts : Obligations.LaneDotProducts := by
  unfold Obligations.LaneDotProducts
  intro s g gd t t2 r sat d a b c el
  refine ⟨fun h => ?fdot2, fun h => ?fdot4⟩
  all_goals
    have hwide : t.isWide = true := (Bool.and_eq_true_iff.1 (show (_ && _) = true from h.mods_ok)).1
    refine ⟨_, h.floatResult (fun _ => rfl) rfl rfl t.width_cases, fun l => ?_⟩
    simp only [packed_eq_map]
    exact Fmt.dot_rule (FTy.narrow_of_isWide hwide) _ _ rfl

end Sys2Proof.Machine
end

section
/-! Quotients and square roots with enough bits (09 R166, R176): `fdiv`, `fsqrt`, `frcp`. -/

namespace Sys2Proof.Machine

/-! ### Quotients -/

theorem FVal.abs_rat_fin (n : Bool) (m : Nat) (e : Int) : |(FVal.fin n m e).rat| = m * (2 : ℚ) ^ e := by
  have hpos : (0 : ℚ) ≤ m * 2 ^ e := by positivity
  cases n <;> simp [FVal.rat, abs_of_nonneg hpos]

theorem Truncates.of_div (n : Nat) {b : Nat} (hb : b ≠ 0) : Truncates ((n : ℚ) / b) (n / b) (n % b != 0) := by
  have hbq : (0 : ℚ) < b := by exact_mod_cast Nat.pos_of_ne_zero hb
  have hdm : ((b * (n / b) + n % b : Nat) : ℚ) = n := by rw [Nat.div_add_mod]
  push_cast at hdm
  have hlt : ((n % b : Nat) : ℚ) < b := by exact_mod_cast Nat.mod_lt n (Nat.pos_of_ne_zero hb)
  by_cases hr : n % b = 0
  · rw [hr, Nat.cast_zero, add_zero] at hdm
    simpa [Truncates, hr] using (div_eq_iff hbq.ne').2 (by linarith)
  · have hrq : (0 : ℚ) < (n % b : Nat) := by exact_mod_cast Nat.pos_of_ne_zero hr
    rw [Truncates, if_pos (by simpa using hr)]
    exact ⟨(lt_div_iff₀ hbq).2 (by linarith), (div_lt_iff₀ hbq).2 (by linarith)⟩

/-- What is truncated at 2^e with enough bits is enclosed. -/
theorem Truncates.encloses {f : Fmt} {m : Nat} {e : Int} {sticky : Bool} {z : ℚ} (h : Truncates (z / 2 ^ e) m sticky)
    (hm : 2 ^ (f.frac + 2) ≤ m) : Encloses f m e sticky z := by
  have hpow : (0 : ℚ) < 2 ^ e := by positivity
  refine ⟨(Nat.lt_of_lt_of_le (Nat.two_pow_pos _) hm).ne', ?_⟩
  cases sticky with
  | true => exact ⟨hm, (lt_div_iff₀ hpow).1 h.1, (div_lt_iff₀ hpow).1 h.2⟩
  | false => exact (div_eq_iff hpow.ne').1 h

theorem quotient_encloses (f : Fmt) {am bm : Nat} (ha : am ≠ 0) (hb : bm ≠ 0) (ae be : Int) :
    Encloses f (quotient am ae bm be f.p).1 (quotient am ae bm be f.p).2.1 (quotient am ae bm be f.p).2.2
      (am * 2 ^ ae / (bm * 2 ^ be)) := by
  obtain ⟨sh, hsh⟩ : ∃ sh, sh = f.p + 3 + bm.log2 + 1 := ⟨_, rfl⟩
  have hbits : 2 ^ (f.frac + 2) ≤ am * 2 ^ sh / bm := by
    rw [Nat.le_div_iff_mul_le (Nat.pos_of_ne_zero hb)]
    calc 2 ^ (f.frac + 2) * bm ≤ 2 ^ (f.frac + 2) * 2 ^ (bm.log2 + 1) := Nat.mul_le_mul_left _ Nat.lt_log2_self.le
      _ = 2 ^ (f.frac + 2 + (bm.log2 + 1)) := (Nat.pow_add ..).symm
      _ ≤ 2 ^ sh := Nat.pow_le_pow_right (by decide) (by simp only [hsh, Fmt.p]; omega)
      _ ≤ am * 2 ^ sh := Nat.le_mul_of_pos_left _ (Nat.pos_of_ne_zero ha)
  have hvalue : am * 2 ^ ae / (bm * 2 ^ be) / (2 : ℚ) ^ (ae - be - sh) = (am * 2 ^ sh : Nat) / bm := by
    rw [zpow_sub₀ two_ne_zero, zpow_sub₀ two_ne_zero, zpow_natCast]
    push_cast
    field_simp
  have htrunc := Truncates.of_div (am * 2 ^ sh) hb
  rw [← hvalue] at htrunc
  subst hsh
  exact htrunc.encloses hbits

theorem Fmt.div_rule (f : Fmt) (m : RM) (x y : FVal) : DivRule f m x y (f.div m x y) := by
  unfold DivRule Fmt.div
  split
  case isTrue hnan => exact f.nanRule_pair_of_nan _ hnan
  case isFalse hnan =>
    simp only [not_or, Bool.not_eq_true] at hnan
    obtain ⟨hx, hy⟩ := hnan
    rw [f.nanRule_pair_of_numbers _ hx hy]
    cases x with
    | nan => cases hx
    | inf a =>
      cases y with
      | nan => cases hy
      | inf b => simp [FVal.isZero, FVal.isInf, Invalid, Fmt.invalid]
      | fin b n k => simp [FVal.isZero, FVal.isInf, FVal.neg]
    | fin a am ae =>
      cases y with
      | nan => cases hy
      | inf b => simp [FVal.isZero, FVal.isInf, FVal.neg]
      | fin b bm be =>
        rw [FVal.abs_rat_fin, FVal.abs_rat_fin]
        cases am with
        | zero =>
          cases bm with
          | zero => simp [FVal.isZero, Invalid, Fmt.invalid]
          | succ => simp [FVal.isZero, FVal.isInf, FVal.neg]
        | succ am =>
          cases bm with
          | zero => simp [FVal.isZero, FVal.isInf, FVal.neg]
          | succ bm =>
            simp only [FVal.isZero, FVal.isInf, Bool.false_eq_true, false_and, or_self, if_false, Nat.succ_ne_zero]
            exact ⟨_, _, _, quotient_encloses f am.succ_ne_zero bm.succ_ne_zero ae be, rfl⟩

/-! ### Square roots -/

/-- The root's bits: enough of them, the exponent half of the value's, and the mark whether the square is exact. -/
theorem rootBits_spec (f : Fmt) {m : Nat} (hm : m ≠ 0) (e : Int) :
    ∃ k e' st, rootBits m e f.p = (k, e', st) ∧ 2 ^ (f.frac + 2) ≤ k ∧
      if st then ((k : ℚ) * 2 ^ e') ^ 2 < m * 2 ^ e ∧ (m : ℚ) * 2 ^ e < ((k + 1 : ℚ) * 2 ^ e') ^ 2
      else ((k : ℚ) * 2 ^ e') ^ 2 = m * 2 ^ e := by
  obtain ⟨sh, hsh⟩ : ∃ sh, sh = 2 * (f.p + 3) + (if (e - 2 * (f.p + 3)) % 2 = 0 then 0 else 1) := ⟨_, rfl⟩
  obtain ⟨e', he'⟩ : ∃ e', e' = (e - sh) / 2 := ⟨_, rfl⟩
  have heven : e = sh + 2 * e' := by
    rw [he', hsh]
    split <;> omega
  have hbits : 2 ^ (f.frac + 2) ≤ (m * 2 ^ sh).sqrt := by
    rw [Nat.le_sqrt, ← Nat.pow_add]
    calc 2 ^ (f.frac + 2 + (f.frac + 2)) ≤ 2 ^ sh := Nat.pow_le_pow_right (by decide) (by simp only [hsh, Fmt.p]; omega)
      _ ≤ m * 2 ^ sh := Nat.le_mul_of_pos_left _ (Nat.pos_of_ne_zero hm)
  have hvalue : (m : ℚ) * 2 ^ e = (m * 2 ^ sh : Nat) * (2 ^ e') ^ 2 := by
    rw [heven, zpow_add₀ two_ne_zero, zpow_natCast, mul_comm 2 e', zpow_mul, ← zpow_natCast (2 ^ e' : ℚ) 2]
    push_cast
    ring
  have hpow : (0 : ℚ) < (2 ^ e') ^ 2 := by positivity
  have hle := Nat.sqrt_le (m * 2 ^ sh)
  have hlt := Nat.lt_succ_sqrt (m * 2 ^ sh)
  refine ⟨_, e', (m * 2 ^ sh).sqrt * (m * 2 ^ sh).sqrt != m * 2 ^ sh, by rw [he', hsh]; rfl, hbits, ?_⟩
  simp only [mul_pow, hvalue, mul_lt_mul_iff_left₀ hpow, mul_left_inj' hpow.ne', pow_two ((Nat.sqrt _ : ℕ) : ℚ), bne_iff_ne]
  generalize (m * 2 ^ sh).sqrt = k at hle hlt ⊢
  split
  case isTrue hne =>
    exact ⟨by exact_mod_cast lt_of_le_of_ne hle hne, by rw [pow_two]; exact_mod_cast hlt⟩
  case isFalse heq => exact_mod_cast not_not.1 heq

theorem Fmt.sqrt_rule (f : Fmt) (m : RM) (x : FVal) : SqrtRule f m x (f.sqrt m x) := by
  unfold SqrtRule Fmt.sqrt
  split
  case isTrue hnan => exact f.nanRule_of_nan _ (by simpa using hnan)
  case isFalse hnan =>
    rw [f.nanRule_of_numbers _ (by simpa using hnan)]
    cases x with
    | nan => exact absurd rfl hnan
    | inf n => cases n <;> simp [FVal.isZero, FVal.isInf, FVal.neg, Invalid, Fmt.invalid]
    | fin n k e =>
      cases k with
      | zero => simp [FVal.isZero, FVal.neg]
      | succ k =>
        cases n with
        | true => simp [FVal.isZero, FVal.neg, Invalid, Fmt.invalid]
        | false =>
          simp only [FVal.isZero, FVal.neg, FVal.isInf, FVal.rat, Bool.false_eq_true, if_false, one_mul]
          obtain ⟨k', e', st, hroot, hbits, hsquare⟩ := rootBits_spec f k.succ_ne_zero e
          refine ⟨k', e', st, (Nat.lt_of_lt_of_le (Nat.two_pow_pos _) hbits).ne', ?_, ?_⟩
          · rw [hroot]
          · split at hsquare
            case isTrue hst => rw [if_pos hst]; exact ⟨hbits, hsquare⟩
            case isFalse hst => rw [if_neg hst]; exact hsquare

/-- Settles O8: the quotient's and the root's bits enclose the exact value with enough of them to round once. -/
theorem divisionAndRoot : Obligations.DivisionAndRoot := by
  unfold Obligations.DivisionAndRoot
  intro s g gd t r sat d a b
  refine ⟨fun h => ?fdiv, fun h => ?fsqrt, fun h => ?frcp⟩
  case fdiv => exact ⟨_, h.floatResult (fun _ => rfl) rfl rfl t.width_cases, fun l => Fmt.div_rule ..⟩
  case fsqrt => exact ⟨_, h.floatResult (fun _ => rfl) rfl rfl t.width_cases, fun l => Fmt.sqrt_rule ..⟩
  case frcp => exact ⟨_, h.floatResult (fun _ => rfl) rfl rfl (.inl rfl), fun l => Fmt.div_rule ..⟩

end Sys2Proof.Machine
end

section
/-! Choices, comparisons and classes (09 R167 to R169): `fmin`, `fmax`, `fcmp`, `fclass`. -/

namespace Sys2Proof.Machine

/-! ### The numerical order -/

theorem FVal.cmp_fin_gt_iff (n n' : Bool) (m m' : Nat) (e e' : Int) :
    (FVal.fin n m e).cmp (.fin n' m' e') = .gt ↔ (FVal.fin n' m' e').rat < (FVal.fin n m e).rat := by
  have hx := FVal.scaled_rat (.fin n m e) (lowExp_le (ts := [.fin n m e, .fin n' m' e']) List.mem_cons_self)
  have hy := FVal.scaled_rat (.fin n' m' e') (lowExp_le (ts := [.fin n m e, .fin n' m' e']) (by simp))
  rw [← hx, ← hy, mul_lt_mul_iff_left₀ (by positivity), Int.cast_lt]
  change (if _ < _ then Ordering.lt else if _ = _ then .eq else .gt) = .gt ↔ _
  split_ifs with hlt heq
  · simpa using hlt.le
  · simp [heq]
  · simpa using lt_of_le_of_ne (not_lt.1 hlt) (Ne.symm heq)

/-- The model's comparison of two numbers says which of them is less, if any. -/
theorem FVal.cmp_iff {x y : FVal} (hx : x.isNan = false) (hy : y.isNan = false) :
    (x.cmp y = .lt ↔ LessThan x y) ∧ (x.cmp y = .gt ↔ LessThan y x) := by
  cases x with
  | nan => cases hx
  | inf a =>
    cases y with
    | nan => cases hy
    | inf b => cases a <;> cases b <;> simp [LessThan, FVal.cmp]
    | fin => cases a <;> simp [LessThan, FVal.cmp]
  | fin n m e =>
    cases y with
    | nan => cases hy
    | inf b => cases b <;> simp [LessThan, FVal.cmp]
    | fin n' m' e' => exact ⟨FVal.cmp_fin_lt_iff .., FVal.cmp_fin_gt_iff ..⟩

/-! ### Comparisons (09 R168) -/

/-- When a comparison of 09 R168 is true. -/
def FloatCompares (cc : Cc) (x y : FVal) : Prop :=
  let anyNan : Prop := x.isNan ∨ y.isNan
  match cc with
  | .eq => ¬ anyNan ∧ ¬ LessThan x y ∧ ¬ LessThan y x
  | .ne => anyNan ∨ LessThan x y ∨ LessThan y x
  | .lt => ¬ anyNan ∧ LessThan x y
  | .le => ¬ anyNan ∧ ¬ LessThan y x
  | .gt => ¬ anyNan ∧ LessThan y x
  | .ge => ¬ anyNan ∧ ¬ LessThan x y
  | .num => ¬ anyNan
  | .nan => anyNan

theorem fcompare_iff (cc : Cc) (x y : FVal) : (fcompare cc x y).1 = true ↔ FloatCompares cc x y := by
  by_cases hnan : x.isNan ∨ y.isNan
  · have hor : (x.isNan || y.isNan) = true := by simpa using hnan
    simp only [fcompare, FloatCompares, hnan, hor]
    cases cc <;> simp
  · simp only [not_or, Bool.not_eq_true] at hnan
    obtain ⟨hx, hy⟩ := hnan
    obtain ⟨hlt, hgt⟩ := FVal.cmp_iff hx hy
    simp only [FloatCompares, ← hlt, ← hgt, fcompare, hx, hy]
    cases x.cmp y <;> cases cc <;> simp

/-! ### Minimum and maximum (09 R167) -/

theorem fmtOf_canon_lt (t : FTy) : (fmtOf t).canon < 2 ^ (fmtOf t).bits := by cases t <;> decide

/-- What a choice between two encodings writes, `takeB` saying when the second of two numbers is taken. -/
def Fmt.Chosen (f : Fmt) (a b : Nat) (takeB : Prop) (e : Nat) : Prop :=
  if (f.decode a).isNan ∧ (f.decode b).isNan then e = f.canon
  else if (f.decode a).isNan then e = b
  else if (f.decode b).isNan then e = a
  else (takeB → e = b) ∧ (¬ takeB → e = a)

section
variable (t : FTy) {a b : Nat} (ha : a < 2 ^ (fmtOf t).bits) (hb : b < 2 ^ (fmtOf t).bits)
include ha hb

theorem minMax_chosen (isMin : Bool) :
    (fmtOf t).Chosen a b (if isMin then Below ((fmtOf t).decode b) ((fmtOf t).decode a) else Below ((fmtOf t).decode a) ((fmtOf t).decode b))
      ((fmtOf t).minMax isMin a b).1 := by
  have hcanon := fmtOf_canon_lt t
  simp only [Fmt.Chosen, Fmt.minMax, Bool.and_eq_true]
  split
  case isTrue => exact Nat.mod_eq_of_lt hcanon
  case isFalse hboth =>
    split
    case isTrue => exact Nat.mod_eq_of_lt hb
    case isFalse hx =>
      split
      case isTrue => exact Nat.mod_eq_of_lt ha
      case isFalse hy =>
        rw [Bool.not_eq_true] at hx hy
        rw [← FVal.below_iff hx hy, ← FVal.below_iff hy hx]
        cases isMin
        all_goals
          simp only [Bool.false_eq_true, if_true, if_false]
          split
          case isTrue h => exact ⟨fun _ => Nat.mod_eq_of_lt hb, fun hn => absurd h hn⟩
          case isFalse h => exact ⟨fun hn => absurd hn h, fun _ => Nat.mod_eq_of_lt ha⟩

end

/-! ### Classes (09 R169) -/

theorem fmtOf_exp_ge (t : FTy) : 2 ≤ (fmtOf t).exp := by cases t <;> decide

/-- The significand and the exponent of an encoding that reads as a finite value: without an exponent field a subnormal's, else with the
leading bit, at the field's exponent or, for an infinity code of a narrow format, one below. -/
theorem fmtOf_decode_fin (t : FTy) {x : Nat} {n : Bool} {k : Nat} {e : Int} (h : (fmtOf t).decode x = .fin n k e) :
    let E := bitsOf x (fmtOf t).frac (fmtOf t).exp
    E = 0 ∧ k < 2 ^ (fmtOf t).frac ∧ e = (fmtOf t).qmin ∨
      E ≠ 0 ∧ 2 ^ (fmtOf t).frac ≤ k ∧ k < 2 ^ ((fmtOf t).frac + 1) ∧ (fmtOf t).qmin ≤ e ∧ e ≤ (fmtOf t).qmin + E - 1 ∧
        ((fmtOf t).narrow = false → e = (fmtOf t).qmin + E - 1) := by
  have hexp : 2 ^ 2 ≤ 2 ^ (fmtOf t).exp := Nat.pow_le_pow_right (by decide) (fmtOf_exp_ge t)
  have hfrac := Nat.two_pow_pos (fmtOf t).frac
  have hF : bitsOf x 0 (fmtOf t).frac < 2 ^ (fmtOf t).frac := Nat.mod_lt _ hfrac
  simp only [Fmt.decode] at h
  rw [Nat.pow_succ']
  split at h
  case isTrue htop =>
    split at h
    case isTrue => cases h
    case isFalse =>
      split at h
      case isTrue =>
        split at h
        case isTrue hnarrow =>
          cases h
          refine .inr ⟨by omega, by rw [Nat.pow_succ']; omega, by rw [Nat.pow_succ']; omega, ?_, ?_, by simp [hnarrow]⟩
          · rw [Fmt.qmin]
            have : (4 : Int) ≤ 2 ^ (fmtOf t).exp := by exact_mod_cast hexp
            omega
          · rw [Fmt.qmin, htop.1]
            push_cast [Nat.one_le_two_pow]
            omega
        case isFalse => cases h
      case isFalse =>
        split at h
        all_goals cases h
  case isFalse =>
    split at h
    case isTrue hE => cases h; exact .inl ⟨hE, hF, rfl⟩
    case isFalse hE =>
      cases h
      exact .inr ⟨hE, by omega, by omega, by omega, by omega, fun _ => rfl⟩

/-- A finite value is below the smallest normal one exactly if its encoding has no exponent field. -/
theorem fmtOf_lt_emin_iff (t : FTy) {x : Nat} {n : Bool} {k : Nat} {e : Int} (h : (fmtOf t).decode x = .fin n k e) :
    |(FVal.fin n k e).rat| < 2 ^ (fmtOf t).emin ↔ bitsOf x (fmtOf t).frac (fmtOf t).exp = 0 := by
  have hemin : (2 : ℚ) ^ (fmtOf t).emin = 2 ^ (fmtOf t).frac * 2 ^ (fmtOf t).qmin := by
    rw [← zpow_natCast, ← zpow_add₀ two_ne_zero, Fmt.qmin, add_sub_cancel]
  rw [FVal.abs_rat_fin, hemin]
  obtain ⟨hE, hk, rfl⟩ | ⟨hE, hk, -, he, -, -⟩ := fmtOf_decode_fin t h
  · refine iff_of_true ?_ hE
    gcongr
    exact_mod_cast hk
  · refine iff_of_false (not_lt.2 ?_) hE
    gcongr
    · exact_mod_cast hk
    · exact one_le_two

/-- Settles O9: choices by the order in which −0 lies below +0, comparisons by the numerical order, classes by the exponent field. -/
theorem floatChoicesAndClasses : Obligations.FloatChoicesAndClasses := by
  unfold Obligations.FloatChoicesAndClasses
  intro s g gd t d a b f snan anyNan choice
  have hbits (x : Src) (l : Nat) : g.fbits x t l < 2 ^ f.bits := Nat.mod_lt _ (Nat.two_pow_pos _)
  refine ⟨fun h => ?fmin, fun h => ?fmax, fun cc h => ?fcmp, fun h => ?fclass⟩
  case fmin =>
    exact ⟨_, h.floatResult (fun _ => rfl) rfl rfl t.width_cases, fun l => ⟨rfl, minMax_chosen t (hbits a l) (hbits b l) true⟩⟩
  case fmax =>
    exact ⟨_, h.floatResult (fun _ => rfl) rfl rfl t.width_cases, fun l => ⟨rfl, minMax_chosen t (hbits a l) (hbits b l) false⟩⟩
  case fcmp =>
    obtain ⟨g1, hdone, hpred⟩ := h.predWithFlags (f := fun g l => fcompare cc (g.fsrc a t l) (g.fsrc b t l)) (fun _ => rfl) rfl rfl
    refine ⟨_, g1, hdone, hpred, fun l => ⟨(fcompare_iff cc _ _).trans ?_, ?_⟩⟩
    · cases cc <;> exact Iff.rfl
    · cases cc <;> rfl
  case fclass =>
    refine ⟨_, h.floatResult (fun _ => rfl) rfl rfl (.inl rfl), fun l => ⟨rfl, ?_⟩⟩
    change (fmtOf t).classOf (g.fbits a t l) = _
    unfold Fmt.classOf
    cases hv : (fmtOf t).decode (g.fbits a t l) with
    | nan | inf => simp only [show g.fsrc a t l = _ from hv]; rfl
    | fin n k e =>
      simp only [show g.fsrc a t l = _ from hv, fmtOf_lt_emin_iff t hv, beq_iff_eq, f]
      norm_num

end Sys2Proof.Machine
end

section
/-! Rounding to an integer, exact results, and scaling far out of range (08 R147, R151; 09 R170, R171). -/

namespace Sys2Proof.Machine

/-! ### Rounding to an integer (08 R151) -/

theorem roundsUp_exact (mode : Rnd) (neg odd : Bool) : roundsUp mode neg odd .lt true = false := by
  cases mode <;> simp [roundsUp]

/-- Rounding to an integer selects the significand at 2^0. -/
theorem roundInt_eq (mode : Rnd) (neg : Bool) (m : Nat) (e : Int) :
    roundInt mode neg m e =
      (if neg then -(roundSig mode neg m e 0 false : Int) else roundSig mode neg m e 0 false, sigExact m e 0 false) := by
  by_cases he : 0 ≤ e
  · have hnot : ¬ e < 0 := by omega
    simp only [roundInt, if_pos he, roundSig, sigKeep, sigOrd, sigExact, sigRest, if_neg hnot, sub_zero]
    simp only [beq_self_eq_true, Bool.not_false, Bool.and_self, roundsUp_exact, Bool.false_eq_true, if_false]
    cases neg <;> simp
  · have hlt : e < 0 := by omega
    have hord (rest d : Nat) : restOrd rest d false = natOrd (2 * rest) d := by
      rw [restOrd]
      split <;> simp_all
    simp only [roundInt, if_neg he, roundSig, sigKeep, sigOrd, sigExact, sigRest, if_pos hlt, zero_sub, hord, Bool.not_false,
      Bool.and_true]
    congr 1
    split <;> simp

/-- The magnitude that a mode selects, with the sign, is the integer that it selects. -/
theorem RoundedTo.roundedInt {mode : Rnd} {neg : Bool} {z : ℚ} {k : Nat} (h : RoundedTo mode neg z k) (hz : 0 ≤ z) :
    RoundedInt mode ((if neg then -1 else 1) * z) (if neg then -(k : Int) else k) := by
  cases neg with
  | false =>
    rw [if_neg Bool.false_ne_true, if_neg Bool.false_ne_true, one_mul]
    cases mode with
    | dyn | rn => exact h.imp_right fun h => ⟨h.1, by omega⟩
    | rz => exact (if_pos hz).mpr h
    | rp | rm => exact h
  | true =>
    rw [if_pos rfl, if_pos rfl, neg_one_mul]
    cases mode with
    | dyn | rn =>
      have hdist : |-z - ((-k : Int) : ℚ)| = |z - k| := by
        push_cast
        rw [← abs_neg]
        ring_nf
      simp only [RoundedInt, hdist]
      exact h.imp_right fun h => ⟨h.1, by omega⟩
    | rz =>
      obtain ⟨hle, hlt⟩ : (k : ℚ) ≤ z ∧ z < k + 1 := h
      simp only [RoundedInt]
      push_cast
      split <;> constructor <;> linarith [Nat.cast_nonneg (α := ℚ) k]
    | rp =>
      obtain ⟨hle, hlt⟩ : (k : ℚ) ≤ z ∧ z < k + 1 := h
      simp only [RoundedInt]
      push_cast
      constructor <;> linarith
    | rm =>
      obtain ⟨hle, hlt⟩ : z ≤ k ∧ (k : ℚ) < z + 1 := h
      simp only [RoundedInt]
      push_cast
      constructor <;> linarith

theorem roundInt_rounded (mode : Rnd) (neg : Bool) (m : Nat) (e : Int) :
    RoundedInt mode (FVal.fin neg m e).rat (roundInt mode neg m e).1 ∧
      (((roundInt mode neg m e).1 : ℚ) = (FVal.fin neg m e).rat ↔ (roundInt mode neg m e).2 = true) := by
  have htrunc : Truncates ((m : ℚ) * 2 ^ e / 2 ^ e) m false := mul_div_cancel_right₀ _ (by positivity)
  have hseen := htrunc.seenAs (q := 0) (fun h => absurd h Bool.false_ne_true)
  rw [zpow_zero, div_one] at hseen
  have hround := hseen.roundedTo mode neg
  rw [roundInt_eq]
  refine ⟨hround.roundedInt (by positivity), ?_⟩
  rw [hseen.exact_iff, ← hround.eq_iff hseen.le hseen.lt]
  cases neg <;> simp [FVal.rat, roundSig]

/-! ### Exact results (08 R147) -/

/-- A value that the format holds is rounded to itself without a flag. -/
theorem roundReal_exact (t : FTy) (r : RM) (neg : Bool) {m : Nat} {e : Int} (hm : m ≠ 0) (hkept : (fmtOf t).spacing m e ≤ e)
    (hfits : (m : ℚ) * 2 ^ e ≤ (fmtOf t).maxRat) :
    ((fmtOf t).decode ((fmtOf t).roundReal r neg m e false).1).rat = (FVal.fin neg m e).rat ∧
      ((fmtOf t).roundReal r neg m e false).2 = 0 := by
  obtain ⟨k, hround, hresult⟩ := roundToIsCorrect t r neg m e false (m * 2 ^ e) ⟨hm, rfl⟩
  rw [← Fmt.spacing_eq_max] at hround hresult
  have hnat : (m : ℚ) * 2 ^ e / 2 ^ (fmtOf t).spacing m e = (m * 2 ^ (e - (fmtOf t).spacing m e).toNat : Nat) := by
    rw [mul_div_assoc, ← zpow_sub₀ two_ne_zero]
    push_cast
    rw [← zpow_natCast, Int.toNat_of_nonneg (by omega)]
  have hk := (hround.eq_iff hnat.ge (by rw [hnat]; exact lt_add_one _)).2 hnat
  rw [eq_div_iff (by positivity)] at hk
  rw [hk, if_pos hfits, if_pos rfl] at hresult
  exact ⟨hresult.1, hresult.2.2.2⟩

theorem fmtOf_decode_maxEnc (t : FTy) : ∃ k q, (fmtOf t).decode (fmtOf t).maxEnc = .fin false k q ∧ 1 ≤ k ∧ 0 ≤ q := by
  cases t <;> exact ⟨_, _, rfl, by decide, by decide⟩

theorem one_le_maxRat (t : FTy) : 1 ≤ (fmtOf t).maxRat := by
  obtain ⟨k, q, hdec, hk, hq⟩ := fmtOf_decode_maxEnc t
  rw [Fmt.maxRat, hdec, FVal.rat, if_neg Bool.false_ne_true, one_mul]
  exact one_le_mul_of_one_le_of_one_le (by exact_mod_cast hk) (one_le_zpow₀ one_le_two hq)

/-! ### Far out of range (09 R170) -/

theorem fmtOf_maxEnc_lt (t : FTy) : (fmtOf t).maxEnc < 2 ^ (fmtOf t).exp * 2 ^ (fmtOf t).frac := by cases t <;> decide

/-- A value far above the format's range overflows. -/
theorem roundReal_huge (t : FTy) (r : RM) (neg : Bool) {m : Nat} {e : Int} (h : (fmtOf t).emin + 2 ^ (fmtOf t).exp ≤ e + m.log2) :
    (fmtOf t).roundReal r neg m e false = (overflowEnc (fmtOf t) r neg, OF ||| NX) := by
  have hexp : (2 : Int) ^ (fmtOf t).exp = (2 ^ (fmtOf t).exp : Nat) := by push_cast; rfl
  have hq : 2 ^ (fmtOf t).exp ≤ ((fmtOf t).spacing m e - (fmtOf t).qmin).toNat := by
    rw [Fmt.spacing, Fmt.qmin]
    split <;> omega
  rw [(fmtOf t).roundReal_eq r neg m e false rfl rfl, if_pos]
  calc (fmtOf t).maxEnc < 2 ^ (fmtOf t).exp * 2 ^ (fmtOf t).frac := fmtOf_maxEnc_lt t
    _ ≤ ((fmtOf t).spacing m e - (fmtOf t).qmin).toNat * 2 ^ (fmtOf t).frac := Nat.mul_le_mul_right _ hq
    _ ≤ _ := Nat.le_add_left ..

section
variable {m : Nat} (hm : m ≠ 0) {e q : Int} (h : e + m.log2 + 1 < q)
include h

theorem two_mul_lt_of_below : 2 * m < 2 ^ (q - e).toNat := by
  calc 2 * m < 2 * 2 ^ (m.log2 + 1) := by have := Nat.lt_log2_self (n := m); omega
    _ = 2 ^ (m.log2 + 2) := by rw [← Nat.pow_succ']
    _ ≤ _ := Nat.pow_le_pow_right (by decide) (by omega)

/-- Of a value below half a unit the mode and the sign alone select the significand. -/
theorem roundSig_below (mode : Rnd) (neg : Bool) : roundSig mode neg m e q false = (roundsUp mode neg false .lt (sigExact m e q false)).toNat := by
  have hlt := two_mul_lt_of_below h
  have heq : e < q := by omega
  simp only [roundSig, sigKeep, sigOrd, sigRest, if_pos heq]
  rw [Nat.div_eq_of_lt (by omega), Nat.mod_eq_of_lt (a := m) (by omega), restOrd_of_lt false hlt]
  cases hup : roundsUp mode neg false .lt (sigExact m e q false) <;> simp [hup]

include hm in
theorem sigExact_below : sigExact m e q false = false := by
  have hlt := two_mul_lt_of_below h
  have heq : e < q := by omega
  simp only [sigExact, sigRest, if_pos heq]
  rw [Nat.mod_eq_of_lt (by omega)]
  simp [hm]

end

/-- Every value far below the format's range rounds as every other. -/
theorem roundReal_tiny (f : Fmt) (r : RM) (neg : Bool) {m : Nat} (hm : m ≠ 0) {e e' : Int} (h : e + m.log2 + 1 < f.qmin)
    (h' : e' + m.log2 + 1 < f.qmin) : f.roundReal r neg m e false = f.roundReal r neg m e' false := by
  have hspacing {x : Int} (hx : x + m.log2 + 1 < f.qmin) : f.spacing m x = f.qmin := by
    rw [Fmt.spacing, Fmt.qmin] at *
    rw [if_pos (by omega)]
  rw [f.roundReal_eq r neg m e false (hspacing h).symm rfl, f.roundReal_eq r neg m e' false (hspacing h').symm rfl]
  simp only [roundSig_below h, roundSig_below h', sigExact_below hm h, sigExact_below hm h']

theorem fmtOf_log2_le (t : FTy) {x : Nat} {n : Bool} {k : Nat} {e : Int} (h : (fmtOf t).decode x = .fin n k e) (hk : k ≠ 0) :
    k.log2 ≤ (fmtOf t).frac := by
  have hlt : k < 2 ^ ((fmtOf t).frac + 1) := by
    obtain ⟨-, hk, -⟩ | ⟨-, -, hk, -⟩ := fmtOf_decode_fin t h
    · exact hk.trans (Nat.pow_lt_pow_right (by decide) (Nat.lt_succ_self _))
    · exact hk
  exact Nat.lt_succ_iff.1 ((Nat.log2_lt hk).2 hlt)

theorem fmtOf_exp_range (t : FTy) {x : Nat} {n : Bool} {k : Nat} {e : Int} (h : (fmtOf t).decode x = .fin n k e) :
    (fmtOf t).qmin ≤ e ∧ e < (fmtOf t).qmin + 2 ^ (fmtOf t).exp := by
  have hE : (bitsOf x (fmtOf t).frac (fmtOf t).exp : Int) < 2 ^ (fmtOf t).exp := by
    exact_mod_cast Nat.mod_lt _ (Nat.two_pow_pos _)
  obtain ⟨-, -, rfl⟩ | ⟨-, -, -, hle, hlt, -⟩ := fmtOf_decode_fin t h
  · exact ⟨le_rfl, lt_add_of_pos_right _ (by positivity)⟩
  · exact ⟨hle, by omega⟩

/-- The exponent of `fldexp` taken to ±8192 changes no result. -/
theorem roundReal_clampExp (t : FTy) (r : RM) {x : Nat} {n : Bool} {k : Nat} {e : Int} (h : (fmtOf t).decode x = .fin n k e) (hk : k ≠ 0)
    (z : Int) : (fmtOf t).roundReal r n k (e + clampExp z) false = (fmtOf t).roundReal r n k (e + z) false := by
  have hsize : ((fmtOf t).frac : Int) + 2 ^ (fmtOf t).exp ≤ 4000 := by cases t <;> decide
  have hqmin : (fmtOf t).qmin = (fmtOf t).emin - (fmtOf t).frac := rfl
  have hlog := fmtOf_log2_le t h hk
  have hrange := fmtOf_exp_range t h
  rw [clampExp, satInt]
  split_ifs with hlow hhigh
  · exact roundReal_tiny _ r n hk (by omega) (by omega)
  · rw [roundReal_huge t r n (by omega), roundReal_huge t r n (by omega)]
  · rfl

end Sys2Proof.Machine
end

section
/-! Conversions and scaling (08 R150 to R152; 09 R170 to R175): `fcvt`, `i2f`, `f2i`, `fint`, `fldexp`, `ffrexp`, `fpack`, `funpack`. -/

namespace Sys2Proof.Machine

/-! ### Special operands -/

theorem Fmt.roundTo_fin (f : Fmt) (m : RM) (n : Bool) {k : Nat} (hk : k ≠ 0) (e : Int) :
    f.roundTo m (.fin n k e) = f.roundReal m n k e false := if_neg hk

theorem Fmt.nanRule_nan (f : Fmt) (n q : Bool) (p w : Nat) (k : FRes) :
    NanRule f [.nan n q p w] (f.nanRule [.nan n q p w] k) :=
  f.nanRule_of_nan k ⟨_, List.mem_singleton_self _, rfl⟩

theorem Fmt.roundNan_rule (f : Fmt) (n q : Bool) (p w : Nat) : NanRule f [.nan n q p w] (f.roundNan n q p w) := by
  refine ⟨_, rfl, rfl, ?_⟩
  rw [Fmt.roundNan]
  cases f.narrow <;> cases q <;> rfl

@[simp] theorem Fmt.nanRule_inf (f : Fmt) (n : Bool) (k : FRes) : f.nanRule [.inf n] k = k := rfl

@[simp] theorem Fmt.nanRule_fin (f : Fmt) (n : Bool) (m : Nat) (e : Int) (k : FRes) : f.nanRule [.fin n m e] k = k := rfl

/-! ### `f2i` and `i2f` (08 R151, R152) -/

theorem FVal.ofInt_rat (x : Int) : (FVal.ofInt x).rat = x := by
  have h := FVal.ofScaled_rat x 0
  rwa [zpow_zero, mul_one] at h

theorem roundTo_ofInt (f : Fmt) (m : RM) (x : Int) : RoundsOnce f m x false (f.roundTo m (.ofInt x)) := by
  refine ⟨fun hx => ?_, fun _ => ⟨_, _, _, FVal.ofInt_rat x, rfl⟩⟩
  obtain rfl : x = 0 := by exact_mod_cast hx
  rfl

/-- What `f2i` gives of a finite value: the rounded integer, or the bound that it exceeds. -/
theorem toInteger_fin (mode : Rnd) (lo hi : Int) (n : Bool) (m : Nat) (e : Int) :
    ∃ k, RoundedInt mode (FVal.fin n m e).rat k ∧
      if k < lo then toInteger mode lo hi (.fin n m e) = (lo, NV)
      else if hi < k then toInteger mode lo hi (.fin n m e) = (hi, NV)
      else toInteger mode lo hi (.fin n m e) = (k, if (k : ℚ) = (FVal.fin n m e).rat then 0 else NX) := by
  obtain ⟨hround, hexact⟩ := roundInt_rounded mode n m e
  refine ⟨_, hround, ?_⟩
  simp only [toInteger, hexact]
  split
  · rfl
  · split <;> rfl

theorem narrowed_eq (t : IntTy) (x : Int) : bitsInt x (tyW t) = narrowed t false x := finish_eq t false x

/-! ### `ffrexp` (09 R170) -/

theorem fmtOf_emin_neg (t : FTy) : (fmtOf t).emin ≤ -1 := by cases t <;> decide

/-- The fraction lies in [1/2, 1), and is exact. -/
theorem split_fin (t : FTy) {x : Nat} {n : Bool} {k : Nat} {e : Int} (h : (fmtOf t).decode x = .fin n k e) (hk : k ≠ 0) :
    let z := e + k.log2 + 1
    let v := ((fmtOf t).decode ((fmtOf t).split (.fin n k e)).1).rat
    ((fmtOf t).split (.fin n k e)).2 = (z, 0) ∧ v * 2 ^ z = (FVal.fin n k e).rat ∧ 1 / 2 ≤ |v| ∧ |v| < 1 := by
  intro z v
  have hlog := fmtOf_log2_le t h hk
  have hemin := fmtOf_emin_neg t
  have hlow : (2 : ℚ) ^ k.log2 ≤ k := by exact_mod_cast Nat.log2_self_le hk
  have hhigh : (k : ℚ) < 2 ^ (k.log2 + 1) := by exact_mod_cast Nat.lt_log2_self
  have hhalf : (2 : ℚ) ^ (e - z) = 1 / 2 ^ (k.log2 + 1) := by
    rw [show e - z = -((k.log2 + 1 : Nat) : Int) by simp only [z]; push_cast; ring, zpow_neg, zpow_natCast, one_div]
  have hsize : 1 / 2 ≤ (k : ℚ) * 2 ^ (e - z) ∧ (k : ℚ) * 2 ^ (e - z) < 1 := by
    rw [hhalf, mul_one_div, div_lt_one (by positivity), le_div_iff₀ (by positivity), pow_succ]
    exact ⟨by linarith, by rwa [← pow_succ]⟩
  have hv : v = (FVal.fin n k (e - z)).rat := by
    refine (roundReal_exact t .nearest n (e := e - z) hk ?_ (hsize.2.le.trans (one_le_maxRat t))).1 |> Eq.trans ?_
    · rw [← Fmt.roundTo_fin _ _ _ hk]
      simp only [v, Fmt.split, if_neg hk, z]
    · rw [Fmt.spacing]
      split <;> omega
  rw [hv, FVal.abs_rat_fin]
  refine ⟨by simp only [Fmt.split, if_neg hk, z], ?_, hsize⟩
  simp only [FVal.rat]
  rw [mul_assoc, mul_assoc, ← zpow_add₀ two_ne_zero, sub_add_cancel]

/-! ### The words -/

/-- Settles O10: conversions round once, `fint` and `f2i` by the integer that the mode selects, `fldexp` also far out of range, `ffrexp` exactly. -/
theorem floatConversions : Obligations.FloatConversions := by
  unfold Obligations.FloatConversions
  intro s g gd t t2 r sat d a b f m
  refine ⟨fun h => ?fcvt, fun ti h => ?i2f, fun ti h => ?f2i, fun h => ?fint, fun h => ?fldexp, fun er h => ?ffrexp, fun h => ?fpack,
    fun h => ?funpack⟩
  case fcvt => exact ⟨_, h.floatResult (fun _ => rfl) rfl rfl t.width_cases, fun l => rfl⟩
  case i2f =>
    refine ⟨_, h.floatResult (fun _ => rfl) rfl rfl t.width_cases, fun l => ?_⟩
    have hint : tyRead ti (g.src a ti.width l) = g.laneVal ti a l := tyRead_eq ..
    simp only [hint]
    exact roundTo_ofInt ..
  case f2i =>
    refine ⟨_, h.floatResult (fun _ => rfl) rfl rfl ti.width_cases, fun l => ?_⟩
    simp only [narrowed_eq]
    cases g.fsrc a t2 l with
    | nan | inf => exact ⟨_, rfl, rfl, rfl⟩
    | fin n k e =>
      obtain ⟨z, hround, hresult⟩ := toInteger_fin (s.rounding g r false).mode (tyLo ti) (tyHi ti) n k e
      refine ⟨_, rfl, z, hround, ?_⟩
      split_ifs at hresult ⊢
      all_goals exact Prod.ext_iff.1 hresult
  case fint =>
    refine ⟨_, h.floatResult (fun _ => rfl) rfl rfl t.width_cases, fun l => ?_⟩
    cases g.fsrc a t l with
    | nan => exact f.nanRule_nan ..
    | inf n => exact f.roundTo_inf ((FTy.isFour_iff t).1 h.mods_ok) .nearest n
    | fin n k e => exact ⟨_, (roundInt_rounded _ n k e).1, rfl⟩
  case fldexp =>
    refine ⟨_, h.floatResult (fun _ => rfl) rfl rfl t.width_cases, fun l => ?_⟩
    simp only [← signExt_eq]
    cases hv : g.fsrc a t l with
    | nan => exact f.nanRule_nan ..
    | inf n => exact f.roundTo_inf ((FTy.isFour_iff t).1 h.mods_ok) .nearest n
    | fin n k e =>
      by_cases hk : k = 0
      · subst hk
        rfl
      · exact (if_neg hk).trans ((roundReal_clampExp t m hv hk _).trans (f.roundTo_fin m n hk _).symm)
  case ffrexp =>
    obtain ⟨g1, g2, hdone, hfirst, hsecond⟩ := h.pairResult (f := fun g l =>
      ((f.split (g.fsrc a t l)).1, bitsInt (f.split (g.fsrc a t l)).2.1 32, (f.split (g.fsrc a t l)).2.2)) (fun _ => rfl) rfl rfl t.width_cases
    refine ⟨_, g1, g2, hdone, hfirst, hsecond, fun l => ?_⟩
    cases hv : g.fsrc a t l with
    | nan => exact ⟨f.roundNan_rule .., rfl⟩
    | inf => rfl
    | fin n k e =>
      by_cases hk : k = 0
      · subst hk
        rfl
      · obtain ⟨hexp, hsplit⟩ := split_fin t hv hk
        refine (if_neg hk).mpr ⟨_, ?_, hsplit⟩
        simp only [show (f.split (.fin n k e)).2 = (_, 0) from hexp]
        exact congrArg (·, (0 : Flags)) (narrowed_eq .s32 _)
  case fpack =>
    refine ⟨_, h.floatResult (fun _ => rfl) rfl rfl (.inl rfl), fun l => ?_⟩
    simp only [Nat.shiftLeft_eq]
    rfl
  case funpack =>
    refine ⟨_, h.floatResult (fun _ => rfl) rfl rfl (.inr (.inl rfl)), fun l => ?_⟩
    have hhigh : g.src a 1 l / 2 ^ 16 < 2 ^ 16 := Nat.div_lt_of_lt_mul (g.src_lt a 1 l)
    simp only [Nat.shiftLeft_eq, Nat.shiftRight_eq_div_pow, bitsOf, pow_zero, Nat.div_one, Nat.mod_eq_of_lt hhigh]
    rfl

end Sys2Proof.Machine
end

section
/-! What is shared by the approximated functions (09 R177 to R179): their flags, results that are numbers, powers of two. -/

namespace Sys2Proof.Machine

/-! ### Flags of approximated results (09 R177) -/

/-- A finite result raises NX, and UF also when it is subnormal or zero. -/
def ApproxFlagged (x : FRes) : Prop :=
  (F32.decode x.1).isInf = false → x.2 = if |(F32.decode x.1).rat| < 2 ^ F32.emin then UF ||| NX else NX

theorem approxFlags_flagged {r : Nat} (h : (F32.decode r).isNan = false) : ApproxFlagged (r, approxFlags r) := by
  intro hinf
  change (F32.decode r).isInf = false at hinf
  change approxFlags r = if |(F32.decode r).rat| < _ then _ else _
  cases hv : F32.decode r with
  | nan => rw [hv] at h; cases h
  | inf => rw [hv] at hinf; cases hinf
  | fin n k e =>
    exact if_congr (fmtOf_lt_emin_iff .f32 hv).symm rfl rfl

theorem f32_decode_infEnc (neg : Bool) : F32.decode (F32.signed neg F32.infEnc) = .inf neg := by cases neg <;> decide

theorem overflowEnc_eq (f : Fmt) (r : RM) (neg : Bool) :
    overflowEnc f r neg = f.signed neg f.maxEnc ∨ overflowEnc f r neg = f.signed neg f.infEnc :=
  (ite_eq_or_eq _ _ _).imp (congrArg (f.signed neg)) (congrArg (f.signed neg))

/-- Rounding never makes a NaN. -/
theorem roundReal_number (r : RM) (neg : Bool) (m : Nat) (e : Int) (sticky : Bool) :
    (F32.decode (F32.roundReal r neg m e sticky).1).isNan = false := by
  have hfinite {enc : Nat} (henc : enc ≤ F32.maxEnc) : (F32.decode (F32.signed neg enc)).isNan = false := by
    obtain ⟨hroom, hfin⟩ := fmtOf_le_maxEnc .f32 henc
    obtain ⟨n, x, hdec, -⟩ := F32.decode_signed neg hroom hfin
    rw [hdec]
    rfl
  rw [F32.roundReal_eq r neg m e sticky rfl rfl]
  split
  case isTrue =>
    obtain hmax | hinf := overflowEnc_eq F32 r neg
    · rw [hmax]
      exact hfinite le_rfl
    · rw [hinf, f32_decode_infEnc]
      rfl
  case isFalse hfits => exact hfinite (not_lt.1 hfits)

theorem within_number (cand : Nat) (v : Int) (bound tol : Nat) : (F32.decode (within cand v bound tol)).isNan = false := by
  unfold within
  split
  next hv =>
    split
    · rw [hv]
      rfl
    · exact roundReal_number ..
  next => exact roundReal_number ..

/-! ### Powers of two -/

section
variable {m : Nat} (hm : m ≠ 0) (e : Int)

include hm in
theorem two_zpow_lead_le : (2 : ℚ) ^ (e + m.log2) ≤ m * 2 ^ e := by
  have hle : (2 : ℚ) ^ m.log2 ≤ m := by exact_mod_cast Nat.log2_self_le hm
  rw [add_comm, zpow_add₀ two_ne_zero, zpow_natCast]
  gcongr

theorem lt_two_zpow_lead : (m : ℚ) * 2 ^ e < 2 ^ (e + m.log2 + 1) := by
  have hlt : (m : ℚ) < 2 ^ (m.log2 + 1) := by exact_mod_cast Nat.lt_log2_self
  rw [show e + m.log2 + 1 = (m.log2 + 1 : Nat) + e by push_cast; ring, zpow_add₀ two_ne_zero, zpow_natCast]
  gcongr

include hm in
/-- The exponent of a value's leading bit decides how it compares with a power of two. -/
theorem two_zpow_le_iff (i : Int) : (2 : ℚ) ^ i ≤ m * 2 ^ e ↔ i ≤ e + m.log2 := by
  constructor
  · intro h
    have := (zpow_lt_zpow_iff_right₀ one_lt_two).1 (h.trans_lt (lt_two_zpow_lead (m := m) e))
    omega
  · intro h
    exact (zpow_le_zpow_right₀ one_le_two h).trans (two_zpow_lead_le hm e)

end

theorem powerOfTwo_some {m : Nat} {e k : Int} (h : powerOfTwo m e = some k) : (m : ℚ) * 2 ^ e = 2 ^ k ∧ k = e + m.log2 := by
  rw [powerOfTwo] at h
  split at h
  case isTrue hm =>
    cases h
    refine ⟨?_, rfl⟩
    rw [add_comm, zpow_add₀ two_ne_zero, zpow_natCast]
    congr 1
    exact_mod_cast hm
  case isFalse => cases h

theorem powerOfTwo_none {m : Nat} {e : Int} (hm : m ≠ 0) (h : powerOfTwo m e = none) (k : Int) : (m : ℚ) * 2 ^ e ≠ 2 ^ k := by
  intro heq
  have hk : k = e + m.log2 := by
    have hle := (two_zpow_le_iff hm e k).1 heq.ge
    have hlt := (zpow_le_zpow_iff_right₀ one_lt_two).1 ((two_zpow_lead_le hm e).trans heq.le)
    omega
  rw [hk, add_comm, zpow_add₀ two_ne_zero, zpow_natCast, mul_left_inj' (by positivity)] at heq
  rw [powerOfTwo, if_pos (by exact_mod_cast heq)] at h
  cases h

theorem two_zpow_le_maxRat {i : Int} (h : i ≤ 127) : (2 : ℚ) ^ i ≤ F32.maxRat := by
  refine (zpow_le_zpow_right₀ one_le_two h).trans ?_
  norm_num [Fmt.maxRat, F32, fmtOf, Fmt.maxEnc, Fmt.isF8a, Fmt.decode, bitOf, bitsOf, Fmt.qmin, Fmt.emin, Fmt.bias, FVal.rat]

/-- Powers of two in the range of the format are exact. -/
theorem roundTo_two_zpow {i : Int} (hlow : -149 ≤ i) (hhigh : i ≤ 127) :
    (F32.decode (F32.roundTo .nearest (.fin false 1 i)).1).rat = 2 ^ i ∧ (F32.roundTo .nearest (.fin false 1 i)).2 = 0 := by
  have hkept : (fmtOf .f32).spacing 1 i ≤ i := by
    rw [Fmt.spacing, show (fmtOf .f32).emin = -126 from rfl, show (fmtOf .f32).frac = 23 from rfl, show Nat.log2 1 = 0 by decide]
    split <;> omega
  have hvalue : ((1 : Nat) : ℚ) * 2 ^ i = 2 ^ i := by rw [Nat.cast_one, one_mul]
  have hexact := roundReal_exact .f32 .nearest false one_ne_zero hkept (hvalue.trans_le (two_zpow_le_maxRat hhigh))
  rw [FVal.rat, if_neg Bool.false_ne_true, one_mul, hvalue] at hexact
  rw [F32.roundTo_fin _ _ one_ne_zero]
  exact hexact

/-- Small integers are exact. -/
theorem roundTo_small_int {i : Int} (h : |i| < 256) :
    (F32.decode (F32.roundTo .nearest (.ofInt i)).1).rat = i ∧ (F32.roundTo .nearest (.ofInt i)).2 = 0 := by
  by_cases hi : i = 0
  · subst hi
    refine ⟨?_, rfl⟩
    rw [show F32.decode _ = .fin false 0 (-149) by decide]
    simp [FVal.rat]
  · have habs : i.natAbs < 2 ^ 8 := by rw [Int.abs_eq_natAbs] at h; omega
    have hne : i.natAbs ≠ 0 := by omega
    have hlog := (Nat.log2_lt hne).2 habs
    have hkept : (fmtOf .f32).spacing i.natAbs 0 ≤ 0 := by
      rw [Fmt.spacing, show (fmtOf .f32).emin = -126 from rfl, show (fmtOf .f32).frac = 23 from rfl]
      split <;> omega
    have hfits : (i.natAbs : ℚ) * 2 ^ (0 : Int) ≤ F32.maxRat := by
      refine le_trans ?_ (two_zpow_le_maxRat (i := 8) (by decide))
      rw [zpow_zero, mul_one]
      exact_mod_cast habs.le
    have hexact := roundReal_exact .f32 .nearest (decide (i < 0)) hne hkept hfits
    rw [FVal.ofInt, F32.roundTo_fin _ _ hne]
    rwa [show (FVal.fin (decide (i < 0)) i.natAbs 0).rat = i from FVal.ofInt_rat i] at hexact

theorem f32_lead_range {enc : Nat} {n : Bool} {m : Nat} {e : Int} (h : F32.decode enc = .fin n m e) (hm : m ≠ 0) :
    -149 ≤ e ∧ e ≤ 106 ∧ m.log2 ≤ 23 := by
  obtain ⟨hlow, hhigh⟩ : -149 ≤ e ∧ e < -149 + 256 := fmtOf_exp_range .f32 h
  exact ⟨hlow, by omega, fmtOf_log2_le .f32 h hm⟩

end Sys2Proof.Machine
end

section
/-! The reciprocal square root (09 R177): an approximation is a normal number. -/

namespace Sys2Proof.Machine

/-- A value above the smallest normal one rounds to an encoding with an exponent field. -/
theorem roundReal_normal (r : RM) (neg : Bool) {m : Nat} {e : Int} (hm : 2 ^ 25 ≤ m) (h : -126 < e + m.log2) :
    bitsOf (F32.roundReal r neg m e true).1 23 8 ≠ 0 := by
  have hpow : (0 : ℚ) < 2 ^ e := by positivity
  have hencl : Encloses F32 m e true ((m + 1 / 2) * 2 ^ e) :=
    ⟨(Nat.lt_of_lt_of_le (by decide) hm).ne', hm, by nlinarith, by nlinarith⟩
  have hspacing : F32.spacing m e ≠ F32.qmin := by
    rw [Fmt.spacing, Fmt.qmin, show F32.emin = -126 from rfl]
    split <;> omega
  have hk := hencl.le_roundSig r.mode neg hspacing
  have hfield {enc : Nat} (hlow : 2 ^ 23 ≤ enc) (hroom : enc / 2 ^ 23 < 2 ^ 8) : bitsOf (F32.signed neg enc) 23 8 ≠ 0 := by
    have hexp := F32.bitsOf_signed_exp neg (enc := enc) hroom
    rw [show bitsOf (F32.signed neg enc) 23 8 = enc / 2 ^ 23 from hexp]
    omega
  rw [F32.roundReal_eq r neg m e true rfl rfl]
  split
  case isTrue =>
    obtain hmax | hinf := overflowEnc_eq F32 r neg
    · rw [hmax]
      exact hfield (by decide) (by decide)
    · rw [hinf]
      exact hfield (by decide) (by decide)
  case isFalse hfits => exact hfield (hk.trans (Nat.le_add_right ..)) (fmtOf_le_maxEnc .f32 (not_lt.1 hfits)).1

section
variable {m : Nat} {e : Int}

/-- Two units and the candidate's value together are too small when the candidate is below every normal number. -/
theorem rsqrt_below_normal (h : -149 ≤ e ∧ e ≤ 106 ∧ m.log2 ≤ 23) {r u : Nat} (hr : r < 2 ^ 34)
    (hu : u = 2 ^ (-((e + m.log2) / 2) - 1 - 23 + 160).toNat) {n : Nat} (hn : 426 ≤ n) :
    (r + u) * (r + u) * (m * 2 ^ (e + 149).toNat) < 2 ^ n := by
  obtain ⟨hlow, hhigh, hlog⟩ := h
  obtain ⟨b, hb⟩ : ∃ b, b = (-((e + m.log2) / 2) - 1 - 23 + 160).toNat := ⟨_, rfl⟩
  have hsum : r + u ≤ 2 ^ (b + 1) := by
    have hle : 2 ^ 34 ≤ 2 ^ b := Nat.pow_le_pow_right (by decide) (by omega)
    rw [hu, ← hb, Nat.pow_succ]
    omega
  have hm : m < 2 ^ (m.log2 + 1) := Nat.lt_log2_self
  calc (r + u) * (r + u) * (m * 2 ^ (e + 149).toNat)
      ≤ 2 ^ (b + 1) * 2 ^ (b + 1) * (2 ^ (m.log2 + 1) * 2 ^ (e + 149).toNat) := by gcongr
    _ = 2 ^ (b + 1 + (b + 1) + (m.log2 + 1 + (e + 149).toNat)) := by simp only [Nat.pow_add]
    _ < 2 ^ n := Nat.pow_lt_pow_right (by decide) (by omega)

/-- The root of a value below 2^25 with 120 bits is a normal number at every exponent of the format. -/
theorem rsqrt_rounded_normal (hm : m ≠ 0) (hlt : m < 2 ^ 25) (he : e ≤ 106) :
    bitsOf (F32.roundReal .nearest false (Nat.sqrt (2 ^ 120 / m)) (-60 - e / 2) true).1 23 8 ≠ 0 := by
  have hroot : 2 ^ 47 ≤ Nat.sqrt (2 ^ 120 / m) := by
    rw [Nat.le_sqrt, Nat.le_div_iff_mul_le (Nat.pos_of_ne_zero hm)]
    calc 2 ^ 47 * 2 ^ 47 * m ≤ 2 ^ 47 * 2 ^ 47 * 2 ^ 25 := Nat.mul_le_mul_left _ hlt.le
      _ ≤ 2 ^ 120 := by decide
  have hne : Nat.sqrt (2 ^ 120 / m) ≠ 0 := (Nat.lt_of_lt_of_le (by decide) hroot).ne'
  have hlog := (Nat.le_log2 hne).2 hroot
  exact roundReal_normal _ _ (le_trans (by decide) hroot) (by omega)

/-- What holds of a result at two parts holds of the result that takes their pair apart: stated of any `result`, so that nothing evaluates
the rounding for which it is used. -/
theorem match_mk_intro {P : Nat → Prop} {result : Nat → Int → Nat} (a : Nat) (b : Int) :
    P (result a b) → P (match (a, b) with | (a', b') => result a' b') := id

theorem rsqrtBounded_normal (cand : Nat) (hm : m ≠ 0) (h : -149 ≤ e ∧ e ≤ 106 ∧ m.log2 ≤ 23) :
    bitsOf (rsqrtBounded cand m e) 23 8 ≠ 0 := by
  have hlt : m < 2 ^ 24 := (Nat.log2_lt hm).1 (by omega)
  unfold rsqrtBounded
  extract_lets lead i u x ok
  split
  case isTrue hok =>
    intro hzero
    unfold ok at hok
    split at hok
    next r re hv =>
      obtain ⟨-, hk, hre⟩ | ⟨hE, -⟩ := fmtOf_decode_fin .f32 hv
      · have hr : r * 2 ^ (re + 160).toNat < 2 ^ 34 := by
          rw [hre, show ((fmtOf .f32).qmin + 160).toNat = 11 by decide]
          have hk : r < 2 ^ 23 := hk
          omega
        exact absurd (of_decide_eq_true (Bool.and_eq_true_iff.1 hok).1) (not_le.2 (rsqrt_below_normal h hr rfl (by decide)))
      · exact hE hzero
    next => cases hok
  case isFalse =>
    generalize hp : (if e % 2 = 0 then (m, e) else (2 * m, e - 1)) = p
    obtain ⟨m', e'⟩ := p
    refine match_mk_intro (P := fun y => bitsOf y 23 8 ≠ 0)
      (result := fun m e => (F32.roundReal .nearest false (Nat.sqrt (2 ^ 120 / m)) (-60 - e / 2) true).1) m' e' ?_
    have hpair : m' ≠ 0 ∧ m' < 2 ^ 25 ∧ e' ≤ 106 := by
      split at hp <;> cases hp <;> omega
    exact rsqrt_rounded_normal hpair.1 hpair.2.1 hpair.2.2

end

theorem FVal.rat_pos (m : Nat) (e : Int) : (FVal.fin false m e).rat = m * 2 ^ e := by
  rw [FVal.rat, if_neg Bool.false_ne_true, one_mul]

/-- `frsq` of a positive number: exact of an even power of two, else an approximation that raises NX alone. -/
theorem rsqrt32_pos {enc m : Nat} {e : Int} (hv : F32.decode enc = .fin false m e) (hm : m ≠ 0) :
    (∀ i : Int, (FVal.fin false m e).rat = 2 ^ (2 * i) → (F32.decode (rsqrt32 enc).1).rat = 2 ^ (-i) ∧ (rsqrt32 enc).2 = 0) ∧
      ((∀ i : Int, (FVal.fin false m e).rat ≠ 2 ^ (2 * i)) → (rsqrt32 enc).2 = NX) := by
  have hrange := f32_lead_range hv hm
  have happrox : approxFlags (rsqrtBounded (Config.rsqrtApprox (BitVec.ofNat 32 enc)).toNat m e) = NX :=
    if_neg (rsqrtBounded_normal _ hm hrange)
  rw [FVal.rat_pos]
  obtain ⟨m, rfl⟩ := Nat.exists_eq_succ_of_ne_zero hm
  simp only [rsqrt32, hv, Fmt.nanRule_fin]
  cases hp : powerOfTwo (m + 1) e with
  | none => exact ⟨fun i hi => absurd hi (powerOfTwo_none hm hp _), fun _ => happrox⟩
  | some k =>
    obtain ⟨hvalue, hk⟩ := powerOfTwo_some hp
    rw [Nat.succ_eq_add_one, hvalue]
    simp only [zpow_right_inj₀ (two_pos (α := ℚ)) (by norm_num), ne_eq]
    by_cases heven : k % 2 = 0
    · simp only [if_pos heven]
      refine ⟨fun i hi => ?_, fun h => absurd (by omega) (h (k / 2))⟩
      rw [show -(k / 2) = -i by omega]
      rw [Nat.succ_eq_add_one] at hrange
      exact roundTo_two_zpow (by omega) (by omega)
    · simp only [if_neg heven]
      exact ⟨fun i hi => absurd (by omega) heven, fun _ => happrox⟩

end Sys2Proof.Machine
end

section
/-! `fex2`, `flg2`, `fsin`, `fcos`, `frred` of finite operands (09 R177 to R179), and the words of the approximated functions. -/

namespace Sys2Proof.Machine

/-! ### `fex2` (09 R177) -/

theorem two_zpow_le_rat_iff {n : Bool} {m : Nat} {e : Int} (hm : m ≠ 0) (i : Int) :
    (!n && decide (i ≤ e + m.log2)) = true ↔ (2 : ℚ) ^ i ≤ (FVal.fin n m e).rat := by
  cases n with
  | false => rw [FVal.rat_pos, two_zpow_le_iff hm]; simp
  | true =>
    have hneg : (FVal.fin true m e).rat ≤ 0 := by
      rw [FVal.rat, if_pos rfl, neg_one_mul, neg_nonpos]
      positivity
    simpa using hneg.trans_lt (by positivity)

section
variable {enc m : Nat} {n : Bool} {e : Int} (hv : F32.decode enc = .fin n m e) (hm : m ≠ 0) (sat : Bool)
include hv hm

/-- The floor of the exponent, and whether it is the exponent. -/
theorem exp2of_cases : ∃ (lo : Int) (exact : Bool) (r : Nat), (F32.decode r).isNan = false ∧
    ((lo : ℚ) ≤ (FVal.fin n m e).rat ∧ (FVal.fin n m e).rat < lo + 1) ∧ ((lo : ℚ) = (FVal.fin n m e).rat ↔ exact = true) ∧
    exp2of sat enc = if (!n && decide (7 ≤ e + m.log2)) = true then (if sat then F32.maxEnc else F32.infEnc, OF ||| NX)
      else if (exact && decide (-149 ≤ lo)) = true then F32.roundTo .nearest (.fin false 1 lo)
      else if (decide (lo ≤ -151) || (exact && decide (lo = -150))) = true then (0, UF ||| NX)
      else (r, approxFlags r) := by
  obtain ⟨hround, hexact⟩ := roundInt_rounded .rm n m e
  refine ⟨_, _, ?r, ?number, hround, hexact, ?eq⟩
  case eq =>
    simp only [exp2of, hv, Fmt.nanRule_fin, if_neg hm]
    rfl
  case number => exact within_number ..

theorem exp2of_large (h : 128 ≤ (FVal.fin n m e).rat) :
    exp2of sat enc = (if sat then 0x7F7FFFFF else F32.infEnc, OF ||| NX) := by
  obtain ⟨lo, exact, r, -, -, -, heq⟩ := exp2of_cases hv hm sat
  rw [heq, if_pos ((two_zpow_le_rat_iff hm 7).2 (by norm_num; exact h))]
  rfl

omit hv in
theorem exp2of_not_large (h : (FVal.fin n m e).rat < 128) : ¬ (!n && decide (7 ≤ e + m.log2)) = true := by
  rw [two_zpow_le_rat_iff hm 7]
  norm_num
  exact h

theorem exp2of_small (h : (FVal.fin n m e).rat ≤ -150) : exp2of sat enc = (0, UF ||| NX) := by
  obtain ⟨lo, exact, r, -, ⟨hle, hlt⟩, hexact, heq⟩ := exp2of_cases hv hm sat
  have hlo : lo ≤ -150 := by exact_mod_cast hle.trans h
  rw [heq, if_neg (exp2of_not_large hm (by linarith)), if_neg (by simp; omega), if_pos]
  simp only [Bool.or_eq_true, Bool.and_eq_true, decide_eq_true_eq, ← hexact]
  by_cases hlow : lo ≤ -151
  · exact .inl hlow
  · obtain rfl : lo = -150 := by omega
    exact .inr ⟨le_antisymm hle (by exact_mod_cast h), rfl⟩

theorem exp2of_int {i : Int} (h : (FVal.fin n m e).rat = i) (hlow : -149 ≤ i) (hhigh : i ≤ 127) :
    (F32.decode (exp2of sat enc).1).rat = 2 ^ i ∧ (exp2of sat enc).2 = 0 := by
  obtain ⟨lo, exact, r, -, ⟨hle, hlt⟩, hexact, heq⟩ := exp2of_cases hv hm sat
  rw [h] at hle hlt hexact
  obtain rfl : lo = i := by
    have h1 : lo ≤ i := by exact_mod_cast hle
    have h2 : i < lo + 1 := by exact_mod_cast hlt
    omega
  have hlt128 : (FVal.fin n m e).rat < 128 := by
    rw [h]
    exact_mod_cast (by omega : lo < 128)
  rw [heq, if_neg (exp2of_not_large hm hlt128), if_pos (by simp [hexact.1 rfl, hlow])]
  exact roundTo_two_zpow hlow hhigh

theorem exp2of_between (hhigh : (FVal.fin n m e).rat < 128) (hlow : -150 < (FVal.fin n m e).rat)
    (h : ∀ i : Int, (FVal.fin n m e).rat ≠ i) : ApproxFlagged (exp2of sat enc) := by
  obtain ⟨lo, exact, r, hnum, ⟨hle, hlt⟩, hexact, heq⟩ := exp2of_cases hv hm sat
  obtain rfl : exact = false := Bool.eq_false_iff.2 (mt hexact.2 (h lo).symm)
  have hlo : -151 < lo := by
    have : (-150 : ℚ) < ((lo + 1 : Int) : ℚ) := by push_cast; linarith
    have : (-150 : Int) < lo + 1 := by exact_mod_cast this
    omega
  rw [heq, if_neg (exp2of_not_large hm hhigh), if_neg (by simp), if_neg (by simpa using hlo)]
  exact approxFlags_flagged hnum

end

/-! ### `flg2` (09 R177) -/

theorem log2of_pos {enc m : Nat} {e : Int} (hv : F32.decode enc = .fin false m e) (hm : m ≠ 0) :
    (∀ i : Int, (FVal.fin false m e).rat = 2 ^ i → (F32.decode (log2of enc).1).rat = i ∧ (log2of enc).2 = 0) ∧
      ((∀ i : Int, (FVal.fin false m e).rat ≠ 2 ^ i) → ApproxFlagged (log2of enc)) := by
  have hrange := f32_lead_range hv hm
  rw [FVal.rat_pos]
  obtain ⟨m, rfl⟩ := Nat.exists_eq_succ_of_ne_zero hm
  simp only [log2of, hv, Fmt.nanRule_fin]
  cases hp : powerOfTwo (m + 1) e with
  | none => exact ⟨fun i hi => absurd hi (powerOfTwo_none hm hp _), fun _ => approxFlags_flagged (within_number ..)⟩
  | some k =>
    obtain ⟨hvalue, hk⟩ := powerOfTwo_some hp
    rw [Nat.succ_eq_add_one] at hrange ⊢
    rw [hvalue]
    simp only [zpow_right_inj₀ (two_pos (α := ℚ)) (by norm_num), ne_eq]
    refine ⟨fun i hi => ?_, fun h => absurd rfl (h k)⟩
    subst hi
    exact roundTo_small_int (by rw [abs_lt]; omega)

/-! ### `fsin` and `fcos` (09 R179) -/

/-- The values below 2^-12 in magnitude are those of the encodings below that of 2^-12. -/
theorem f32_tiny_iff {enc m : Nat} {n : Bool} {e : Int} (hv : F32.decode enc = .fin n m e) :
    enc % 2 ^ 31 < 0x39800000 ↔ |(FVal.fin n m e).rat| < 2 ^ (-12 : Int) := by
  rw [FVal.abs_rat_fin]
  have hbits : enc % 2 ^ 31 < 0x39800000 ↔ bitsOf enc 23 8 < 115 := by
    rw [bitsOf]
    omega
  rw [hbits]
  obtain ⟨hE, hk, rfl⟩ | ⟨hE, hlow, hhigh, -, -, he⟩ := fmtOf_decode_fin .f32 hv
  · have hE : bitsOf enc 23 8 = 0 := hE
    have hk : (m : ℚ) < 2 ^ 23 := by exact_mod_cast hk
    refine iff_of_true (by omega) ?_
    rw [show (fmtOf .f32).qmin = -149 from rfl]
    calc (m : ℚ) * 2 ^ (-149 : Int) < 2 ^ 23 * 2 ^ (-149 : Int) := by gcongr
      _ ≤ 2 ^ (-12 : Int) := by norm_num
  · have he : e = -149 + (bitsOf enc 23 8 : Int) - 1 := he rfl
    have hlow : (2 : ℚ) ^ 23 ≤ m := by exact_mod_cast hlow
    have hhigh : (m : ℚ) < 2 ^ 24 := by exact_mod_cast hhigh
    constructor
    · intro h
      calc (m : ℚ) * 2 ^ e < 2 ^ 24 * 2 ^ e := by gcongr
        _ = 2 ^ (24 + e) := by rw [zpow_add₀ two_ne_zero]; rfl
        _ ≤ 2 ^ (-12 : Int) := zpow_le_zpow_right₀ one_le_two (by omega)
    · contrapose!
      intro h
      calc (2 : ℚ) ^ (-12 : Int) ≤ 2 ^ (23 + e) := zpow_le_zpow_right₀ one_le_two (by omega)
        _ = 2 ^ 23 * 2 ^ e := by rw [zpow_add₀ two_ne_zero]; rfl
        _ ≤ m * 2 ^ e := by gcongr

section
variable {enc m : Nat} {n : Bool} {e : Int} (hv : F32.decode enc = .fin n m e) (hm : m ≠ 0)
include hv hm

theorem sin32_tiny (h : |(FVal.fin n m e).rat| < 2 ^ (-12 : Int)) : sin32 enc = (enc, approxFlags enc) := by
  simp only [sin32, hv, Fmt.nanRule_fin, if_neg hm, if_pos ((f32_tiny_iff hv).2 h)]

theorem sin32_inexact (h : 2 ^ (-12 : Int) ≤ |(FVal.fin n m e).rat|) : (sin32 enc).2 = NX := by
  simp only [sin32, hv, Fmt.nanRule_fin, if_neg hm, if_neg (mt (f32_tiny_iff hv).1 h.not_gt)]
  split <;> rfl

theorem cos32_inexact : (cos32 enc).2 = NX := by
  simp only [cos32, hv, Fmt.nanRule_fin, if_neg hm]
  split <;> rfl

/-! ### `frred` (09 R178) -/

theorem reduce_fin : ∃ r k, reduce enc = (r, bitsInt k 2, approxFlags r) ∧ (F32.decode r).isNan = false := by
  simp only [reduce, hv, if_neg hm]
  refine ⟨_, _, rfl, ?_⟩
  split
  · rw [F32.roundTo_fin _ _ hm]
    exact roundReal_number ..
  · exact roundReal_number ..

end

theorem bitsInt_two_lt (k : Int) : bitsInt k 2 < 4 := by
  rw [bitsInt]
  omega

/-! ### The words -/

theorem nanRule_of_decode_nan {enc : Nat} {n q : Bool} {p w : Nat} {r k : FRes} (hr : r = F32.nanRule [F32.decode enc] k)
    (hv : F32.decode enc = .nan n q p w) : NanRule F32 [.nan n q p w] r := by
  rw [hr, hv]
  exact F32.nanRule_nan ..

theorem exp2of_zero {enc : Nat} {n : Bool} {e : Int} (hv : F32.decode enc = .fin n 0 e) (sat : Bool) :
    exp2of sat enc = (0x3F800000, 0) := by
  simp only [exp2of, hv, Fmt.nanRule_fin, if_true]

theorem f32_decode_one : (F32.decode 0x3F800000).rat = 1 := by
  rw [show F32.decode 0x3F800000 = .fin false (2 ^ 23) (-23) by decide, FVal.rat_pos]
  norm_num

/-- Settles O11: the special operands by the NaN rule and the tables, every other operand by the lemma of its function. -/
theorem floatApproximations : Obligations.FloatApproximations := by
  unfold Obligations.FloatApproximations
  intro s g gd d a f small
  have hsrc (l : Nat) : g.fsrc a .f32 l = F32.decode (g.fbits a .f32 l) := rfl
  simp only [hsrc]
  refine ⟨fun h => ?frsq, fun h => ?fex2, fun h => ?flg2, fun h => ?fsin, fun h => ?fcos, fun q h => ?frred⟩
  case frsq =>
    refine ⟨_, h.floatResult (fun _ => rfl) rfl rfl (.inl rfl), fun l => ?_⟩
    cases hv : F32.decode (g.fbits a .f32 l) with
    | nan => exact nanRule_of_decode_nan rfl hv
    | inf n =>
      simp only [rsqrt32, hv]
      cases n <;> rfl
    | fin n m e =>
      cases m with
      | zero => simp only [rsqrt32, hv]; rfl
      | succ m =>
        simp only [if_neg m.succ_ne_zero]
        cases n with
        | true => simp only [rsqrt32, hv]; rfl
        | false => exact rsqrt32_pos hv m.succ_ne_zero
  case fex2 =>
    refine ⟨_, h.floatResult (fun _ => rfl) rfl rfl (.inl rfl), fun l => ?_⟩
    cases hv : F32.decode (g.fbits a .f32 l) with
    | nan => exact nanRule_of_decode_nan rfl hv
    | inf n =>
      simp only [exp2of, hv]
      cases n <;> rfl
    | fin n m e =>
      by_cases hm : m = 0
      · subst hm
        have hzero : (FVal.fin n 0 e).rat = 0 := FVal.rat_fin_eq_zero.2 rfl
        rw [exp2of_zero hv]
        refine ⟨fun _ => rfl, fun h => ?_, fun h => ?_, fun i _ _ hi => ?_, fun _ _ h => absurd (hzero.trans Int.cast_zero.symm) (h 0)⟩
        · rw [hzero] at h
          norm_num at h
        · rw [hzero] at h
          norm_num at h
        · rw [hzero] at hi
          obtain rfl : 0 = i := by exact_mod_cast hi
          exact ⟨f32_decode_one, rfl⟩
      · exact ⟨fun h => absurd (FVal.rat_fin_eq_zero.1 h) hm, exp2of_large hv hm _, exp2of_small hv hm _,
          fun i hlow hhigh hi => exp2of_int hv hm _ hi hlow hhigh, exp2of_between hv hm _⟩
  case flg2 =>
    refine ⟨_, h.floatResult (fun _ => rfl) rfl rfl (.inl rfl), fun l => ?_⟩
    cases hv : F32.decode (g.fbits a .f32 l) with
    | nan => exact nanRule_of_decode_nan rfl hv
    | inf n =>
      simp only [log2of, hv]
      cases n <;> rfl
    | fin n m e =>
      cases m with
      | zero => simp only [log2of, hv]; rfl
      | succ m =>
        simp only [if_neg m.succ_ne_zero]
        cases n with
        | true => simp only [log2of, hv]; rfl
        | false => exact log2of_pos hv m.succ_ne_zero
  case fsin =>
    refine ⟨_, h.floatResult (fun _ => rfl) rfl rfl (.inl rfl), fun l => ?_⟩
    cases hv : F32.decode (g.fbits a .f32 l) with
    | nan => exact nanRule_of_decode_nan rfl hv
    | inf => simp only [sin32, hv]; rfl
    | fin n m e =>
      refine ⟨fun hzero => ?zero, fun hne htiny => ?tiny, fun hlarge => ?large⟩
      case zero =>
        obtain rfl := FVal.rat_fin_eq_zero.1 hzero
        simp only [sin32, hv]
        rfl
      case tiny =>
        rw [sin32_tiny hv (mt FVal.rat_fin_eq_zero.2 hne) htiny]
        exact ⟨rfl, approxFlags_flagged (by rw [hv]; rfl)⟩
      case large =>
        refine sin32_inexact hv (fun hm => ?_) hlarge
        rw [FVal.rat_fin_eq_zero.2 hm] at hlarge
        norm_num at hlarge
  case fcos =>
    refine ⟨_, h.floatResult (fun _ => rfl) rfl rfl (.inl rfl), fun l => ?_⟩
    cases hv : F32.decode (g.fbits a .f32 l) with
    | nan => exact nanRule_of_decode_nan rfl hv
    | inf => simp only [cos32, hv]; rfl
    | fin n m e =>
      refine ⟨fun hzero => ?_, fun hne => cos32_inexact hv (mt FVal.rat_fin_eq_zero.2 hne)⟩
      obtain rfl := FVal.rat_fin_eq_zero.1 hzero
      simp only [cos32, hv]
      rfl
  case frred =>
    obtain ⟨g1, g2, hdone, hfirst, hsecond⟩ := h.pairResult (f := fun g l => reduce (g.fbits a .f32 l)) (fun _ => rfl) rfl rfl (.inl rfl)
    refine ⟨_, g1, g2, hdone, hfirst, hsecond, fun l => ?_⟩
    cases hv : F32.decode (g.fbits a .f32 l) with
    | nan =>
      simp only [reduce, hv]
      exact ⟨F32.roundNan_rule .., trivial⟩
    | inf => simp only [reduce, hv]; rfl
    | fin n m e =>
      by_cases hm : m = 0
      · subst hm
        simp only [reduce, hv]
        exact ⟨Nat.zero_lt_succ 3, fun _ => rfl, fun hne => absurd (FVal.rat_fin_eq_zero.2 rfl) hne⟩
      · obtain ⟨r, k, hreduce, hnumber⟩ := reduce_fin hv hm
        rw [hreduce]
        exact ⟨bitsInt_two_lt k, fun hzero => absurd (FVal.rat_fin_eq_zero.1 hzero) hm, fun _ => approxFlags_flagged hnumber⟩

end Sys2Proof.Machine
end
